-- ==== Sys2Proof/Word.lean ====
section
/-! DEFINITION. The word types of the model and their plainest arithmetic. -/

namespace Sys2Proof

/-- One byte of a frame, a payload, a stored record or a memory. -/
abbrev Byte := BitVec 8

/-- One 32-bit word of an Auham core or of a device register (R403, 18_auham_instruction_set). -/
abbrev Word := BitVec 32

/-- A byte string. -/
abbrev Bytes := List Byte

/-- The byte of a number, modulo 256. -/
def byte (n : Nat) : Byte := BitVec.ofNat 8 n

/-- Bit `n` of a natural number used as a mask. -/
def bitSet (mask n : Nat) : Bool := mask.testBit n

/-- A mask with bit `n` set. -/
def setBit (mask n : Nat) : Nat := mask ||| (1 <<< n)

/-- A mask with bit `n` cleared. -/
def clrBit (mask n : Nat) : Nat := if mask.testBit n then mask - (1 <<< n) else mask

end Sys2Proof
end

