-- ==== Sys2Proof/Config.lean ====
section
/-! DEFINITION. What one device or implementation fixes, and the free values: constants without a body, of which Lean knows
nothing but the type. -/

namespace Sys2Proof.Config

/-- The device serial's bytes (R335, Table 14-3): the manual gives none. DESIGN CHOICE (log 7): free. -/
opaque serialByte : Nat → Byte

/-- The device serial, 16 bytes (CAPS bytes 18-33). -/
def serial : Bytes := (List.range 16).map serialByte

/-- The bytes of the host pairing key injected at manufacture (R331). DESIGN CHOICE (log 7): free. -/
opaque hostKeyByte : Nat → Byte

/-- The host pairing key as shipped, 32 bytes. -/
def hostKey : Bytes := (List.range 32).map hostKeyByte

/-- The bytes of the device identity private key, and of its public key (R335, R346). DESIGN CHOICE (log 7): free. -/
opaque identityByte : Nat → Byte

/-- The device identity private key, 128 bytes. -/
def identityKey : Bytes := (List.range 128).map identityByte

/-- The device identity public key's bytes. DESIGN CHOICE (log 7): free. -/
opaque identityPubByte : Nat → Byte

/-- The device identity public key, 64 bytes. -/
def identityPub : Bytes := (List.range 64).map identityPubByte

/-- The Jorholt root public key's bytes, held in the boot ROM (R337). DESIGN CHOICE (log 7): free. -/
opaque jorholtByte : Nat → Byte

/-- The Jorholt root public key, 64 bytes. -/
def jorholtRoot : Bytes := (List.range 64).map jorholtByte

/-- The key-encryption key that the PUF gives (R334). DESIGN CHOICE (log 7): free. -/
opaque kekByte : Nat → Byte

/-- The KEK, 32 bytes. -/
def kek : Bytes := (List.range 32).map kekByte

/-- The TKEK of a part shipped in PROVISIONED (Table 14-2). DESIGN CHOICE (log 7): free. -/
opaque tkekByte : Nat → Byte

/-- The TKEK as shipped, 32 bytes. -/
def tkek : Bytes := (List.range 32).map tkekByte

/-- The installed device certificate's bytes (R346): 128 + 84 + 29 792 bytes. DESIGN CHOICE (log 7): free. -/
opaque certificateByte : Nat → Byte

/-- The device certificate envelope of a part shipped in PROVISIONED. -/
def shippedCertificate : Bytes := (List.range 30004).map certificateByte

/-- SLH-DSA-SHAKE-256s verification of FIPS 205 (R338): key, context, message, signature. Not computed here (log 6): free. -/
opaque slhVerify : Bytes → Bytes → Bytes → Bytes → Bool

/-- The bytes of the deterministic SLH-DSA-SHAKE-256s signature (R366): key, context, message, index. Not computed here (log 6): free. -/
opaque slhSignByte : Bytes → Bytes → Bytes → Nat → Byte

/-- A signature of 29 792 bytes. -/
def slhSign (key ctx msg : Bytes) : Bytes := (List.range 29792).map (slhSignByte key ctx msg)

/-- The context string of R338. -/
def slhContext : Bytes := ("JORHOLT-OBJ-1".toList.map (fun c => byte c.toNat))

/-- A free value, by how many were drawn before it (log 8). -/
opaque freeNat : Nat → Nat

/-- Which addresses of the control complex its MPU admits and a device populates, by access kind of Table 18-7
(0 fetch, 1 load, 2 store). The manual gives no map of the control complex (log 9): free. -/
opaque ccAdmits : Nat → Nat → Bool

/-- The firmware trap vector (R411), whose address the manual does not give (log 9): free. -/
opaque trapVector : Nat → Word

/-- Which admitted addresses of the control complex are device registers, which the manual does not place (log 9): free. -/
opaque ccDevice : Nat → Bool

/-- The PA stage of each entry of the default power table, trimmed at manufacture (R306): free (log 8). -/
opaque paStage : Nat → Nat

/-- The drive code of each entry of the default power table, trimmed at manufacture (R306): free (log 8). -/
opaque paDrive : Nat → Nat

/-- The mid-scale code of each of the tuner's three banks (R307), whose widths the manual does not give: free (log 8). -/
opaque tunerMid : Nat → Nat

/-- The factory-trimmed internal delay of each UWB port, in ps (R235, R244): free (log 8). -/
opaque uwbInternal : Nat → Nat

/-- The area and copy of each page (Table 16-1). -/
def pageAreas : List (Nat × Bool) :=
  List.replicate 8 (1, false) ++ List.replicate 8 (1, true) ++ List.replicate 8 (2, false) ++
  List.replicate 8 (2, true) ++ List.replicate 14 (3, false) ++ List.replicate 14 (3, true) ++
  List.replicate 4 (0, false)

/-- The key vault of a shipped part (R513): slots 0, 1 and 5. -/
def shippedSlots : List (Option Bytes) :=
  [some identityKey, some hostKey, none, none, none, some tkek] ++ List.replicate 58 none

/-- The stored records of a shipped part (R513, log 2): (is a counter, type or counter ID, key, body). Lifecycle PROVISIONED;
firmware counter, grant sequence, start-ups, Breach count and freshness block at 0; every family counter at 0. -/
def shippedStore : List (Bool × Nat × Nat × Bytes) :=
  [(false, 0x0001, 0, [2, 0]), (true, 0x0200, 0, [0, 0, 0, 0]), (true, 0x0201, 0, [0, 0, 0, 0]),
   (true, 0x0202, 0, [0, 0, 0, 0]), (true, 0x0203, 0, [0, 0, 0, 0]), (true, 0x0204, 0, [0, 0, 0, 0])] ++
  (List.range 16).map (fun f => (true, 0x0210 + f, 0, [0, 0, 0, 0]))

end Sys2Proof.Config
end

