-- ==== Sys2Proof/Syntax.lean ====
section
/-! DEFINITION. The commands of the ITF48: one constructor of `Instr` for each row of spec/opcode_table.json.
A row's operands are what reaches the block from outside with that happening: a frame's bytes, a
measurement, a channel, a pin's level. -/

namespace Sys2Proof

/-- The two Auham cores (R403): the control complex, whose two lockstep cores act as one, and the extension core. -/
inductive CoreId where
  | cc
  | ext
deriving DecidableEq, Repr

/-- A general register number, g0 to g31 (R403). -/
abbrev Reg := Fin 32

/-- A command frame's part that reaches a mailbox command: which mailbox received it (R439), its lane, its
`TAG` and its payload (Table 5-5). The opcode is the row's own. -/
structure MbxCmd where
  member : Bool
  lane : Nat
  tag : Nat
  payload : Bytes
deriving DecidableEq, Repr

/-- The supply monitors of Table 3-2 that report a crossing. -/
inductive Monitor where
  | vbatFull
  | vbatOv
  | vlfValid (group : Nat)
  | vlfOv (group : Nat)
  | vrelValid
  | vddioValid
deriving DecidableEq, Repr

/-- One channel's record of one measurement window (Table 7-4): which window of the burst, the channel, whether it
drove, its current in mA peak, terminal or induced voltage phasor in mV, its conduction factor in thousandths (Table 7-5),
whether it was off target (R146). -/
structure WinRec where
  window : Nat
  chan : Nat
  driven : Bool
  curRe : Int
  curIm : Int
  volRe : Int
  volIm : Int
  conduction : Nat
  offTarget : Bool
  temp : Int := 250
deriving DecidableEq, Repr

/-- A ring-down fit (R165, Coil soundings): angular frequency in rad/s, first peak A in µA, decay α in 1/s. -/
structure RingFit where
  omega : Nat
  ampUa : Nat
  alpha : Nat
deriving DecidableEq, Repr

/-- One capacitive conversion: a channel and its value in counts, or `none` when it failed to charge (R323). -/
structure Conv where
  chan : Nat
  counts : Option Nat
deriving DecidableEq, Repr

/-- One end-of-line sample of a contact input, in mV (R325). -/
structure EolSample where
  input : Nat
  mv : Nat
deriving DecidableEq, Repr

/-- A classical CAN frame seen by a selective-wake decoder (R483). -/
structure WakeFrame where
  ident : Nat
  data : Bytes
deriving DecidableEq, Repr

/-- The random-number consumers of Table 15-2, in order. -/
inductive RngUser where
  | challenge
  | sts
  | nonce
  | vault
  | fwPort
  | extPort
deriving DecidableEq, Repr

/-- A register of the register maps: a Tidemark timer's block (Table 17-1), a core's RNG port (Tables 15-4 to 15-7),
the frame exchange control, the AES port and core control (Tables 19-6 to 19-8), by offset. -/
inductive RegAddr where
  | timer (n off : Nat)
  | rng (owner : CoreId) (off : Nat)
  | fx (off : Nat)
  | aes (off : Nat)
  | coreCtl (off : Nat)
deriving DecidableEq, Repr

namespace Machine

/-- What a running path, a session or a start can be for (R19, R134, R223, R279). -/
inductive PathKind where
  | access
  | start
  | locate
  | attribution
  | transponder
deriving DecidableEq, Repr

/-- The step a path is in, after Table 1-3 and, for a transponder path, Table 11-6. -/
inductive PathStep where
  | toFlood
  | refresh
  | burst
  | guard
  | window
  | challenge
  | plugin
  | commitRange
  | decision
  | signal
  | tpCharge
  | tpIdent
  | tpChallenge
  | tpResponse
  | ended
deriving DecidableEq, Repr

/-- Which command a later completion belongs to: its mailbox, lane, `TAG` and opcode (R106, R129). -/
structure CmdRef where
  member : Bool := false
  lane : Nat := 0
  tag : Nat := 0
  opcode : Nat := 0
  seq : Nat := 0
deriving DecidableEq, Repr

/-- One drive of a window (R150): channel, amplitude code, phase code. -/
structure Drive where
  chan : Nat := 0
  amp : Nat := 0
  phase : Nat := 0
deriving DecidableEq, Repr

/-- One window of a plan: its drives, the group it belongs to, whether it is silent (R182, R206), and, when the burst has
been sent, whether it is degraded (R162), off target and confined (R187). -/
structure Window where
  drives : List Drive := []
  group : Option Nat := none
  silent : Bool := false
  degraded : Bool := false
  confined : Bool := false
  curMa : Nat := 0
  offTarget : Bool := false
  scale : Nat := 4294967296
  /-- the null targets of the group's definition as the burst was built, with their tolerances in mV (R187, Table 8-6) -/
  nulls : List (Nat × Nat) := []
deriving DecidableEq, Repr

/-- A located token of the zone engine (R194, R197). -/
structure Located where
  idx : Nat := 0
  mask : Nat := 0
  /-- 128-bit session key, and the retained K_s of R227 -/
  kS : Bytes := []
  /-- last LF report by tone plan: plan, base tick, the eight strengths, the preamble code, each window's mark -/
  reports : List (Nat × Nat × List Nat × Nat × List Window) := []
  trigger : Nat := 31
  newest : Nat := 0
deriving DecidableEq, Repr

/-- An ANSWER kept by a path (R213, R216). -/
structure Ans where
  idx : Nat := 0
  id : Nat := 0
  poll : Nat := 0
  slot : Nat := 0
  nDev : Bytes := []
  version : Nat := 0
  nTok : Bytes := []
  counter : Nat := 0
  strengths : List Nat := []
  pre : Nat := 0
  offNs : Int := 0
  lfMet : Bool := false
  plugin : Option Nat := none
  serial : Nat := 0
deriving DecidableEq, Repr

/-- A token authenticated in a path (R219, R225). -/
structure Auth where
  ans : Ans := {}
  kS : Bytes := []
  proofNs : Int := 0
  /-- `none` while the commit is awaited, then whether it committed -/
  committed : Option Bool := none
  resync : Bool := false
  /-- the burst of R240 is over -/
  ranged : Bool := false
  noRange : Bool := false
  revoked : Bool := false
  authSeq : Nat := 0
  commitSeq : Nat := 0
deriving DecidableEq, Repr

/-- A request for a path (R19): kind, trigger, doors, the command, the confirmation instant and the merged wake set. -/
structure PathReq where
  kind : PathKind := .access
  trigger : Nat := 31
  doors : Nat := 0
  ref : Option CmdRef := none
  at_ : Nat := 0
  coils : List Nat := []
  fromHost : Bool := false
  port : Nat := 0
  identOnly : Bool := false
  auto : Bool := false
  /-- commands whose triggers were merged into this one (R19) -/
  also : List CmdRef := []
  /-- the trigger woke the ITF48 from Neap, whose way to Flood counts (Table 1-3) -/
  neap : Bool := false
deriving DecidableEq, Repr

/-- The path in progress (01_architecture, 09_tideway_protocol). -/
structure Path where
  req : PathReq := {}
  deadline : Nat := 0
  step : PathStep := .toFlood
  plan : Nat := 0
  zones : Nat := 0
  group : Option Nat := none
  refreshed : Bool := false
  nDev : Bytes := []
  poll : Nat := 0
  retries : Nat := 0
  freq : Nat := 0
  version : Nat := 3
  slots : Nat := 4
  windowAt : Nat := 0
  slot : Nat := 0
  slotAns : Bool := false
  collided : Bool := false
  early : Bool := false
  foreign : Bool := false
  answers : List Ans := []
  todo : List Ans := []
  cur : Option Ans := none
  cDev : Bytes := []
  pDev : Bytes := []
  repeated : Bool := false
  stepEnd : Nat := 0
  auths : List Auth := []
  authTried : Bool := false
  windows : List Window := []
  /-- time the last step began, for R16 -/
  since : Nat := 0
  noUwb : Bool := false
  cReq : Bytes := []
  tpId : Nat := 0
  tpCounter : Nat := 0
  tpIdx : Option Nat := none
  denied : Option Nat := none
  outcome : Option Nat := none
  session : Option Nat := none
  ended : Bool := false
  /-- the door records as the path began (R285): those of doors 0 to 15 -/
  doorMap : List (Option Bytes) := []
  /-- the transponder CHALLENGE formed and sent (Table 11-5) -/
  tpFrame : Bytes := []
  /-- a token was revoked between its answer and its CHALLENGE (R135) -/
  tokenGone : Bool := false
deriving DecidableEq, Repr

/-- A port's outcome of a burst (R246). -/
structure RResult where
  token : Nat := 0
  port : Nat := 0
  dist : Option Nat := none
  angle : Option Int := none
  quality : Nat := 0
  rounds : Nat := 0
  at_ : Nat := 0
  unusable : Bool := false
  fpPs : Nat := 0
deriving DecidableEq, Repr

end Machine

/-- What a Causeway mirror transaction carries (Table 20-5). `at_` is the sender's base tick, which its ticks refer to. -/
inductive MirrorItem where
  | record (type key : Nat) (body : Bytes)
  | param (id value : Nat)
  | pathState (point at_ : Nat) (path : Machine.Path)
  | session (id : Nat) (start transponder : Bool) (doors token : Nat) (remaining : List Nat) (open_ : Bool)
  | located (at_ : Nat) (l : Machine.Located) (results : List Machine.RResult)
  | coupling (row col : Nat) (re im : Int) (age : Nat) (temp : Int)
  | command (lane tag opcode : Nat) (payload : Bytes) (seq : Nat)
  | response (lane tag opcode : Nat) (payload : Bytes)
  | power (code : Nat)
  | freshness (block : Nat)
  | link (ifv : Nat) (kGcm salt : Bytes) (rx tx : List Nat)
  | event (record : Bytes)
deriving DecidableEq, Repr

/-- A negotiate block's contents (R434). -/
structure NegoBlock where
  verMin : Nat
  verMax : Nat
  serial : Bytes
  nonce : Bytes
  role : Nat
  headMs : Nat
  cmacOk : Bool
deriving DecidableEq, Repr

/-- What a joiner's attestation report shows (R454 step 4), with its signature and certificate bytes. -/
structure JoinReport where
  envelope : Bytes
  certificate : Bytes
deriving DecidableEq, Repr

/-- The commands: one constructor for each row of the opcode table, in its order. -/
inductive Instr where
  | powerOn (vbat vddio : Nat)
  | resetRelease (xtalStable cwPair cwRole testEn : Bool) (pufFails : Nat)
  | firmwareStart
  | mailboxReady
  | vholdCharged
  | holdMeasureEnd (stepUv fallUv : Nat)
  | supplyMonitorCrossing (m : Monitor) (mv : Nat)
  | overvoltageTrip (group mv : Nat)
  | railFault (rail mv : Nat)
  | vbatLoss (mv : Nat)
  | vbatReturn (mv : Nat)
  | rideThroughExpiry
  | vholdFloor
  | resetNAssert (lowUs : Nat)
  | watchdogExpiry
  | hostReset
  | isthmusTransferFail (repeats direction kind : Nat)
  | isthmusWatchdogExpiry
  | xtal26Fail
  | xtal26Recovered
  | xtal32Qualified
  | xtal32Absent
  | xtal32Fail
  | slowPeriodMeasure (period : Nat)
  | tideCorrection (pAfter : Nat)
  | tideSlewStep
  | tideWrap
  | floodIdleExpiry
  | slackIdleExpiry
  | neapEntryDone
  | spiCsAssert (low : Bool)
  | spiWriteFrame (member : Bool) (bytes : Bytes)
  | spiReadFrame (member : Bool) (clocked : Nat)
  | spiStatusOnly (member : Bool) (type clocked : Nat)
  | seqGapHoldoffEnd (member : Bool) (lane : Nat)
  | ctlResend (member : Bool) (ctlSeq lane first : Nat)
  | ctlEvtAck (member : Bool) (ctlSeq upTo : Nat)
  | isotpSingleFrame (member : Bool) (bytes : Bytes)
  | isotpFirstFrame (member : Bool) (len : Nat) (bytes : Bytes)
  | isotpConsecutiveFrame (member : Bool) (sn : Nat) (bytes : Bytes)
  | isotpFlowControl (member : Bool) (status blockSize stMin : Nat)
  | isotpWaitTimer (member : Bool)
  | isotpNCrTimeout (member : Bool)
  | isotpNBsTimeout (member : Bool)
  | transportTrialExpiry
  | secureOpenExpiry (member : Bool)
  | authStormHoldEnd (member : Bool)
  | hello (m : MbxCmd)
  | caps (m : MbxCmd)
  | ping (m : MbxCmd)
  | secureOpen (m : MbxCmd)
  | secureConfirm (m : MbxCmd)
  | sysStatus (m : MbxCmd)
  | powerRequest (m : MbxCmd)
  | resetCause (m : MbxCmd)
  | sysReset (m : MbxCmd)
  | paramGet (m : MbxCmd)
  | paramSet (m : MbxCmd)
  | strandedExit (m : MbxCmd)
  | faultList (m : MbxCmd)
  | lfBurst (m : MbxCmd) (temp : Int)
  | lfChannelStatus (m : MbxCmd)
  | lfChannelEnable (m : MbxCmd) (found : Nat)
  | lfSounding (m : MbxCmd)
  | zoneWrite (m : MbxCmd)
  | zoneRead (m : MbxCmd)
  | synthGroupWrite (m : MbxCmd)
  | couplingRead (m : MbxCmd)
  | zoneState (m : MbxCmd)
  | tokenLearn (m : MbxCmd)
  | tokenRevoke (m : MbxCmd)
  | tokenRead (m : MbxCmd)
  | uwbPortStatus (m : MbxCmd)
  | uwbReflectometry (m : MbxCmd)
  | rangingStatus (m : MbxCmd)
  | pathStart (m : MbxCmd)
  | sessionEnd (m : MbxCmd)
  | sessionStatus (m : MbxCmd)
  | transponderStart (m : MbxCmd)
  | startWithdraw (m : MbxCmd)
  | doorMapWrite (m : MbxCmd)
  | radioStatus (m : MbxCmd)
  | powerTableWrite (m : MbxCmd)
  | regRecordWrite (m : MbxCmd)
  | regRecordRead (m : MbxCmd)
  | radioCalRun (m : MbxCmd)
  | radioTestTx (m : MbxCmd) (temp : Int)
  | senseStatus (m : MbxCmd)
  | wakeMapWrite (m : MbxCmd)
  | contactStatus (m : MbxCmd)
  | senseRebase (m : MbxCmd)
  | evtFetch (m : MbxCmd)
  | logRead (m : MbxCmd)
  | logCheckpoint (m : MbxCmd)
  | storeStatus (m : MbxCmd)
  | stageWrite (m : MbxCmd)
  | fwActivate (m : MbxCmd)
  | grantApply (m : MbxCmd)
  | attest (m : MbxCmd)
  | objectRead (m : MbxCmd)
  | tamperStatus (m : MbxCmd)
  | tamperMapWrite (m : MbxCmd)
  | pairStatus (m : MbxCmd)
  | pairSwitchover (m : MbxCmd)
  | pairAdmit (m : MbxCmd)
  | pluginLoad (m : MbxCmd)
  | pluginUnload (m : MbxCmd)
  | extStatus (m : MbxCmd)
  | soundingRun (m : MbxCmd)
  | erosionRead (m : MbxCmd)
  | busStatus (m : MbxCmd)
  | gpioConfig (m : MbxCmd)
  | gpioWrite (m : MbxCmd)
  | gpioRead (m : MbxCmd)
  | pathBegin
  | pathDeadlineExpiry
  | lfBurstBegin (temp : Int)
  | lfBurstEnd (energyUj : Nat) (overflow : Nat) (recs : List WinRec) (temp : Int)
  | lfValidationDone
  | lfDriveFault (chan bit : Nat)
  | offStateScan (gnd bat cable : Nat)
  | soundingChannelDone (chan : Nat) (fit : RingFit) (gndShort batShort cableShort : Bool)
  | autoSounding (chan : Nat)
  | keepFreshRefresh (group : Nat) (temp : Int)
  | lfDutyBinRoll
  | responseWindowOpen (temp : Int)
  | slotEnd (energy sync : Bool) (overflow : Nat)
  | answerReceived (slot : Nat) (body : Bytes) (offsetNs carrier : Int)
  | proofReceived (body : Bytes) (offsetNs : Int)
  | proofTimeout
  | locatePoll (plan : Nat) (temp : Int)
  | locateReportReceived (slot : Nat) (body : Bytes)
  | pluginFrameReceived (body : Bytes) (syncEnd : Nat) (offsetUs : Option Int)
  | pathZoneDecision
  | zonePeriodDecision
  | renewalBurstDue (token : Nat)
  | rangingBurstBegin (token : Nat)
  | rangingRoundStart (token port : Nat)
  | uwbResponseReceived (token quality fpPs tround1 treply2 : Nat) (phase : Option Int)
  | uwbReportReceived (token : Nat) (payload : Bytes)
  | rangingRoundEnd (token overflow : Nat)
  | reflectometryAuto (port : Nat)
  | reflectometryPortDone (port : Nat) (rhoPermille : Int) (roundTripPs : Nat)
  | uwbSelftestFail
  | pathEnd
  | doorTimeout (door : Nat) (opening : Bool)
  | startTimeout
  | gpioPulseEnd (pin : Nat)
  | releaseRepeat
  | releaseFrameTimeout (bus : Nat)
  | engineStatus (frame : Bytes)
  | runInputConfirmed
  | startOutputCheck (aBat aOpen bGnd bOpen : Bool)
  | startOutputFault (output kind : Nat)
  | tpChargeEnd
  | tpOpenCheck (currentMa : Nat)
  | tpIdentReceived (frame : Bytes)
  | tpResponseReceived (frame : Bytes)
  | tpSyncTimeout
  | radioBgCalStep (temp : Int)
  | radioCalStepDone (value : Nat) (dc : List Nat)
  | radioTxRequest (freq power airUs prec : Nat) (temp : Int)
  | hopLockFail (chan : Nat)
  | radioPacketEnd (vswr : Nat) (fwd : Int)
  | radioTestTxEnd (vswr : Nat) (fwd : Int)
  | tunerAcquire (band : Nat) (temp : Int)
  | coexGrantAssert
  | coexGrantNegate
  | coexWaitExpiry
  | radioDutyBinRoll
  | scan (convs : List Conv) (eol : List EolSample) (guard1Ok guard2Ok : Bool)
  | confirmConversion (chan counts : Nat)
  | baselineDrift (chan : Nat)
  | maxTouchExpiry (chan : Nat)
  | contactChange (input : Nat) (high : Bool)
  | stuckTimeout (input : Nat)
  | wakeNAssert
  | canWake (bus : Nat) (frame : Option WakeFrame)
  | linWake (bus : Nat)
  | tamperTrip (sensor : Nat)
  | tamperHoldEnd (sensor : Nat)
  | strikeExpiry
  | serviceExpiry
  | envelopeVerifyDone
  | signatureDone
  | checkpointBegin
  | counterWriteRetry
  | rngStartupTestPass (source : Nat)
  | rngHealthFail (source test : Nat)
  | rngBlockReady (source : Nat) (samples : Bytes)
  | rngNoBlockTimeout
  | rngFatalRestart
  | rngWaitTimeout (user : RngUser)
  | rngDataRead (owner : CoreId)
  | rngReseedRequest (owner : CoreId)
  | rngFlush (owner : CoreId)
  | rngTestWrite (value : Word)
  | storeWriteBegin
  | storeCopyDone
  | storeWriteCommit
  | storeDeferredRetry
  | reclaim (area : Nat) (copyB : Bool)
  | pageEraseDone (page : Nat) (ok : Bool)
  | scrub (corrected : List Nat)
  | pairCommitTimeout
  | timerArm (n : Nat)
  | timerStop (n : Nat)
  | timerCompareWrite (n : Nat) (value : Word)
  | timerCaptureRead (n : Nat)
  | timerMatch (n : Nat) (w1c : Word) (ctl : Option (Nat × Word))
  | timerEnd (n : Nat) (w1c : Word)
  | timerCapture (n : Nat) (sameClockRead : Bool) (w1c : Word)
  | timerWake
  | registerWrite (addr : RegAddr) (value : Word)
  | addi (c : CoreId) (gd ga : Reg) (imm : BitVec 16)
  | andi (c : CoreId) (gd ga : Reg) (imm : BitVec 16)
  | ori (c : CoreId) (gd ga : Reg) (imm : BitVec 16)
  | xori (c : CoreId) (gd ga : Reg) (imm : BitVec 16)
  | cmplti (c : CoreId) (gd ga : Reg) (imm : BitVec 16)
  | cmpltiu (c : CoreId) (gd ga : Reg) (imm : BitVec 16)
  | slli (c : CoreId) (gd ga : Reg) (imm : BitVec 16)
  | srli (c : CoreId) (gd ga : Reg) (imm : BitVec 16)
  | srai (c : CoreId) (gd ga : Reg) (imm : BitVec 16)
  | movu (c : CoreId) (gd : Reg) (imm : BitVec 21)
  | leapc (c : CoreId) (gd : Reg) (imm : BitVec 21)
  | lb (c : CoreId) (gd ga : Reg) (imm : BitVec 16)
  | lbu (c : CoreId) (gd ga : Reg) (imm : BitVec 16)
  | lh (c : CoreId) (gd ga : Reg) (imm : BitVec 16)
  | lhu (c : CoreId) (gd ga : Reg) (imm : BitVec 16)
  | lw (c : CoreId) (gd ga : Reg) (imm : BitVec 16) (second : Word)
  | sb (c : CoreId) (data base : Reg) (imm : BitVec 16)
  | sh (c : CoreId) (data base : Reg) (imm : BitVec 16)
  | sw (c : CoreId) (data base : Reg) (imm : BitVec 16) (second : Word)
  | beq (c : CoreId) (ga gb : Reg) (offset : BitVec 16)
  | bne (c : CoreId) (ga gb : Reg) (offset : BitVec 16)
  | blt (c : CoreId) (ga gb : Reg) (offset : BitVec 16)
  | bge (c : CoreId) (ga gb : Reg) (offset : BitVec 16)
  | bltu (c : CoreId) (ga gb : Reg) (offset : BitVec 16)
  | bgeu (c : CoreId) (ga gb : Reg) (offset : BitVec 16)
  | jlnk (c : CoreId) (gd : Reg) (offset : BitVec 21)
  | jlnkr (c : CoreId) (gd ga : Reg) (imm : BitVec 16)
  | add (c : CoreId) (gd ga gb : Reg) (second : Word)
  | sub (c : CoreId) (gd ga gb : Reg)
  | and (c : CoreId) (gd ga gb : Reg)
  | or (c : CoreId) (gd ga gb : Reg)
  | xor (c : CoreId) (gd ga gb : Reg)
  | sll (c : CoreId) (gd ga gb : Reg)
  | srl (c : CoreId) (gd ga gb : Reg)
  | sra (c : CoreId) (gd ga gb : Reg)
  | cmplt (c : CoreId) (gd ga gb : Reg)
  | cmpltu (c : CoreId) (gd ga gb : Reg)
  | neg (c : CoreId) (gd ga : Reg)
  | addsat (c : CoreId) (gd ga gb : Reg)
  | subsat (c : CoreId) (gd ga gb : Reg)
  | negsat (c : CoreId) (gd ga : Reg)
  | mul (c : CoreId) (gd ga gb : Reg)
  | mulhs (c : CoreId) (gd ga gb : Reg)
  | mulhu (c : CoreId) (gd ga gb : Reg)
  | divs (c : CoreId) (gd ga gb : Reg)
  | divu (c : CoreId) (gd ga gb : Reg)
  | rems (c : CoreId) (gd ga gb : Reg)
  | remu (c : CoreId) (gd ga gb : Reg)
  | srvc (c : CoreId)
  | brkpt (c : CoreId)
  | tret (c : CoreId)
  | idle (c : CoreId)
  | rdstatus (c : CoreId) (gd : Reg)
  | wrstatus (c : CoreId) (ga : Reg)
  | rdcause (c : CoreId) (gd : Reg)
  | rdtval (c : CoreId) (gd : Reg)
  | rdtpc (c : CoreId) (gd : Reg)
  | wrtpc (c : CoreId) (ga : Reg)
  | rdcycle (c : CoreId) (gd : Reg)
  | rdcycleh (c : CoreId) (gd : Reg)
  | illegalInstruction (c : CoreId) (word : Word)
  | interrupt (line : Nat)
  | ccWatchdogWarning
  | extInvocationBegin
  | extWatchdog
  | answerRequest (serial : Nat) (tokenId : Nat)
  | transmitRequest (buffer preamble start : Nat)
  | verdict (address : Word)
  | pluginStepEnd
  | fxLookup (tokenId : Word)
  | aesEncrypt
  | aesDecrypt
  | aesCmac
  | aesCmacDkey (dkey : Nat)
  | aesBusyRead
  | aesOpDone
  | causewayLock
  | negotiate (b : NegoBlock)
  | partnerAbsentTimeout
  | heartbeatSend
  | heartbeat (seq baseTick : Nat) (temp : Int) (power faultClass lastMirror : Nat) (neapOk : Bool) (overflow : Nat)
  | heartbeatMiss
  | pairAliveToggle (input : Bool)
  | yield (seq : Nat)
  | handover (seq lastMirror : Nat)
  | switchoverTimeout
  | mirror (seq mirrorSeq : Nat) (items : List MirrorItem) (last : Bool)
  | mirrorAcknowledge (seq mirrorSeq : Nat)
  | counterCommitRequest (seq counter value : Nat)
  | counterCommitAcknowledge (seq counter : Nat) (deferred : Bool)
  | resendRequest (first : Nat)
  | triggerForward (seq trigger : Nat)
  | breachBlock (seq : Nat)
  | tamperStrandedBlock (seq : Nat)
  | attestationRequest (seq : Nat) (nonce : Bytes)
  | attestationReport (seq : Nat) (report : JoinReport)
  | stateTransfer (seq : Nat) (items : List MirrorItem) (last : Bool)
  | admitTimeout
  | pairWake
  | faultHandlingDone
  | recordToHostRing (source : Nat)
  | signalLineFault (line kind : Nat) (clear : Bool)
  | erosionSample
  | doorStatusFrame (bus ident : Nat) (data : Bytes) (overflow : Nat)
  | doorStatusTimeout
  | busOff (bus : Nat)
  | busRecovered (bus : Nat)
  | busFault (bus kind : Nat) (clear : Bool)
  | linStatusPoll (bus node : Nat)
  | linStatus (bus node : Nat) (data : Bytes)
  | wakeNNegate
  | tamperSensorClear (sensor : Nat)
  | debugHalt (c : CoreId)
  | debugResume (c : CoreId)
  | zoneDropAgeExpiry (token : Nat)
  | railsWithinLimits
  | noiseSourcesStart
deriving DecidableEq, Repr

end Sys2Proof
end

