-- ==== Sys2Proof/Machine/State.lean ====
section
/-! DEFINITION. The state of the ITF48 as plain data, its faults and refusals, and the state after reset.
Each field's docstring gives, in brackets, the rule that names it, the file of spec/, its width, and where its reset value
comes from: `spec` when the manual states it, `DC <n>` when log entry n chose it, `model` for a field of the model's own. -/

namespace Sys2Proof.Machine
open Sys2Proof

/-- Why a step stops with a fault: no command of this block does, since the spec gives each of them an effect. -/
inductive Fault where
deriving DecidableEq, Repr

/-- Why the machine gives a command no meaning. -/
inductive Refusal where
  /-- Raised by exec for a command of the table that has no meaning yet. Safe. -/
  | notModelled (mnemonic : String)
deriving DecidableEq, Repr

/-- The power states of Table 3-6. -/
inductive Power where
  | off
  | startup
  | neap
  | slack
  | flood
  | stranded
  | breach
deriving DecidableEq, Repr

/-- How far a start-up has come (Table 3-5). -/
inductive Phase where
  | none
  | supplied
  | rails
  | rom
  | firmware
  | ready
deriving DecidableEq, Repr

/-- The lifecycle states, coded as Table 6-2 (R331). -/
inductive Lifecycle where
  | blank
  | factory
  | provisioned
  | field
  | service
  | decommissioned
deriving DecidableEq, Repr

/-- The pair roles of Table 6-2 (R436). -/
inductive Role where
  | single
  | headland
  | lee
deriving DecidableEq, Repr

/-- The 32.768 kHz crystal as R76 sees it. -/
inductive Xtal32 where
  | off
  | qualifying
  | qualified
  | absent
  | failed
deriving DecidableEq, Repr

/-- An event record (Table 6-11). -/
structure EvRec where
  source : Nat := 0
  cls : Nat := 0
  clear : Bool := false
  tag : Option Nat := none
  seq : Nat := 0
  time : Nat := 0
  code : Nat := 0
  refSource : Nat := 0
  refSeq : Nat := 0
  params : Bytes := []
deriving DecidableEq, Repr

/-- A frame on its way to the host, before protection (Table 5-5). -/
structure OutFrame where
  ftype : Nat := 2
  lane : Nat := 0
  flags : Nat := 0
  tag : Nat := 0
  ifv : Nat := 0
  opcode : Nat := 0
  payload : Bytes := []
  seq : Nat := 0
  /-- [R106; 05_host_mailbox; 1 bit; model] the command's tag retires once this frame has been sent -/
  fin : Bool := false
  /-- [R110; 05_host_mailbox; 32 bits; model] the SEQ of the command that this response answers -/
  answers : Option Nat := none
deriving DecidableEq, Repr

/-- An accepted command that waits on its lane (R104). -/
structure QCmd where
  tag : Nat := 0
  opcode : Nat := 0
  payload : Bytes := []
  seq : Nat := 0
deriving DecidableEq, Repr

/-- An open secure channel: key and salt (R118). -/
structure Chan where
  kGcm : Bytes := []
  salt : Bytes := []
deriving DecidableEq, Repr

/-- A pending secure channel open (R118). -/
structure PendingOpen where
  chan : Chan := {}
  hostProof : Bytes := []
  at_ : Nat := 0
  /-- [R118; 05_host_mailbox.md; 1 bit; model] the host proof matched; the new key takes over once that response is sent -/
  confirmed : Bool := false
deriving DecidableEq, Repr

/-- A secure channel open that waits for N_d (R118, R367). -/
structure WaitOpen where
  ref : CmdRef := {}
  nH : Bytes := []
  since : Nat := 0
deriving DecidableEq, Repr

/-- An ISO-TP message under reception (R96). -/
structure IsoRx where
  len : Nat := 0
  got : Bytes := []
  nextSn : Nat := 1
  waits : Nat := 0
  cts : Bool := true
  /-- when the last flow control was sent or the last frame arrived, from which 50 ms and N_Cr count -/
  at_ : Nat := 0
deriving DecidableEq, Repr

/-- An ISO-TP message being sent (R97): the bytes after its first frame, the mailbox frame, the next serial number, the frames the
host's last flow control still admits (`none` while one is awaited), its STmin in us, and when the last frame went. -/
structure IsoTx where
  rest : Bytes := []
  frame : OutFrame := {}
  sn : Nat := 1
  left : Option Nat := none
  stUs : Nat := 0
  at_ : Nat := 0
deriving DecidableEq, Repr

/-- A mailbox (05_host_mailbox): the pair mailbox, or the member mailbox of R439. -/
structure Mbx where
  /-- [Table 5-3 LINKED; 05_host_mailbox; 1 bit; spec 0] a HELLO has completed since reset -/
  linked : Bool := false
  /-- [R113; 05_host_mailbox; 8 bits; DC 3 0] the negotiated interface version -/
  ifv : Nat := 0
  /-- [Table 5-3 LAST_ERR; 05_host_mailbox; 1 bit; spec 0] the previous write transaction was discarded -/
  lastErr : Bool := false
  /-- [Table 5-3 SECURE, R118; 05_host_mailbox; key 256, salt 32 bits; spec closed] the open secure channel -/
  chan : Option Chan := none
  /-- [R118; 05_host_mailbox; pending open; spec none] the pending open and the proof it expects -/
  pending : Option PendingOpen := none
  /-- [R118, R367; 05_host_mailbox; waiting SECURE_OPEN; spec none] a SECURE_OPEN that waits for random numbers -/
  waitOpen : Option WaitOpen := none
  /-- [R109, R110; 05_host_mailbox; 9 x 32 bits; spec 0] expected SEQ of lanes 0-7; entry 8: one above the last control frame accepted -/
  rx : List Nat := List.replicate 9 0
  /-- [R109; 05_host_mailbox; 9 x 32 bits; spec 0] the next SEQ to send, lanes 0-7 and control -/
  tx : List Nat := List.replicate 9 0
  /-- [R104; 05_host_mailbox; 8 lanes; spec empty] accepted commands that have not begun -/
  lanes : List (List QCmd) := List.replicate 8 []
  /-- [R106; 05_host_mailbox; up to 128; spec empty] the tags in flight -/
  inFlight : List Nat := []
  /-- [R122, R129; 05_host_mailbox; tags; spec empty] begun commands whose responses a HELLO or close has cancelled -/
  muted : List Nat := []
  /-- [R108; 05_host_mailbox; frames; spec empty] control frames to send -/
  outCtl : List OutFrame := []
  /-- [R108; 05_host_mailbox; frames; spec empty] lane 6 responses to send -/
  outPri : List OutFrame := []
  /-- [R108; 05_host_mailbox; frames; spec empty] lane 0-5 responses and lane 7 event frames to send -/
  out : List OutFrame := []
  /-- [R111; 05_host_mailbox; 8 frames for each of lanes 0-6; spec empty] the retransmit store: the last responses sent -/
  held : List (List OutFrame) := List.replicate 7 []
  /-- [R112; 05_host_mailbox; 8 frames of up to 32 records; spec empty] unacknowledged lane 7 frames with their records -/
  unacked : List (Nat × List EvRec) := []
  /-- [R110; 05_host_mailbox; 8 base ticks; spec none] when a CTL_SEQ_GAP was sent on the lane, whose hold-off of 10 ms runs from then -/
  gapHold : List (Option Nat) := List.replicate 8 none
  /-- [R102; 05_host_mailbox; list; spec empty] when each CTL_FRAME_ERROR reason was last sent -/
  errSent : List (Nat × Nat) := []
  /-- [R121; 05_host_mailbox; list; spec empty] times of authentication failures of the last 10 s -/
  authFails : List Nat := []
  /-- [R121; 05_host_mailbox; base tick; spec none] when an authentication storm closed the channel; SECURE_OPEN is refused for 1 s from then -/
  storm : Option Nat := none
  /-- [R122, R129; 05_host_mailbox; tags; spec empty] commands begun before a close, whose EV_CMD_DONE waits until the host has linked again -/
  relink : List Nat := []
  /-- [R120; 05_host_mailbox; list; spec empty] sequence spaces for which EV_MBX_REKEY_DUE was raised under the present key: 0 to 8 outbound, 16 to 24 inbound -/
  rekeyRaised : List Nat := []
  /-- [R141; 06_command_reference; count; spec 0] ring records returned by the last EVT_FETCH -/
  fetched : Nat := 0
  /-- [R91, Table 5-4; 05_host_mailbox; 2 buffers; spec both free] when each inbound frame buffer in use frees (base ticks) -/
  rxBusy : List Nat := []
  /-- [R96; 05_host_mailbox; message; spec none] the ISO-TP message under reception -/
  isoRx : Option IsoRx := none
  /-- [R97; 05_host_mailbox; message; spec none] the outbound ISO-TP message of several frames under way -/
  isoTx : Option IsoTx := none
  /-- [R104; 05_host_mailbox; 8 bits; spec 0] a command that has begun on the lane has not been answered yet -/
  busy : List Bool := List.replicate 8 false
  /-- [R92; 05_host_mailbox; bytes; spec empty] what SPI_SDO returned in the last transaction -/
  sdo : Bytes := []
deriving DecidableEq, Repr

/-- An active fault (R457, R458): the record's source, class and code, and the instance it concerns. -/
structure ActiveFault where
  source : Nat := 0
  cls : Nat := 0
  code : Nat := 0
  inst : Bytes := []
  /-- the sequence number of its record, for references (R87) -/
  seq : Nat := 0
deriving DecidableEq, Repr

/-- The clocks of 04_clocks_and_ordering. -/
structure Clk where
  /-- [R80; 04_clocks_and_ordering; 48 bits; spec 0] the tide clock base, in microseconds since the last start-up or reset -/
  base : Nat := 0
  /-- [R80, R82; 04_clocks_and_ordering; signed; spec 0] the tide clock offset -/
  offset : Int := 0
  /-- [R82; 04_clocks_and_ordering; microseconds; spec 0] correction still to be absorbed by slewing -/
  slew : Nat := 0
  /-- [R70, R169, R315; 03_power_and_startup; microseconds; model] powered time, through every reset and start-up, on which retained ages count -/
  mono : Nat := 0
  /-- [R76; 04_clocks_and_ordering; 1 bit; spec 0, the trimmed RC] SLOW runs from the crystal -/
  slowOnXtal : Bool := false
  /-- [R76; 04_clocks_and_ordering; state; spec off] the 32.768 kHz crystal -/
  xtal32 : Xtal32 := .off
  /-- [R75; 04_clocks_and_ordering; 1 bit; spec 0] the 26 MHz oscillator is stable -/
  xtal26 : Bool := false
  /-- [R75; 04_clocks_and_ordering; 1 bit; spec 0] CORE runs from the backup oscillator -/
  backup : Bool := false
  /-- [R77; 04_clocks_and_ordering; units of 2^-16 us; DC 3 2000000, the nominal 32.768 kHz] the last measured SLOW period -/
  slowPeriod : Nat := 2000000
  /-- [R77; 04_clocks_and_ordering; base tick; DC 3 0] when the SLOW period was last measured -/
  slowMeasured : Nat := 0
  /-- [R81; 04_clocks_and_ordering; count; spec 0] SLOW edges counted in the present or last stay in Neap -/
  edges : Nat := 0
  /-- [R81; 04_clocks_and_ordering; 16 bits; spec 0] fractional accumulator, units of 2^-16 us -/
  frac : Nat := 0
  /-- [R81; 04_clocks_and_ordering; units of 2^-16 us; DC 3 2000000] SLOW period measured before the last Neap -/
  pBefore : Nat := 2000000
  /-- [R81; 04_clocks_and_ordering; 1 bit; spec 0] a correction is due after a wake -/
  corrDue : Bool := false
  /-- [R399; 17_tidemark_timers; edges; spec none] the SLOW edge count at which a timer wakes the ITF48 -/
  wakeEdge : Option Nat := none
  /-- [R76; 04_clocks_and_ordering; base tick; model] when the 32.768 kHz oscillator was last started -/
  xtal32From : Nat := 0
  /-- [Table 3-7; 03_power_and_startup; base tick; model] since when nothing of Table 3-7 has kept Flood -/
  floodFrom : Nat := 0
  /-- [Table 3-7, R65; 03_power_and_startup; base tick; model] since when the conditions of R65 have held -/
  neapFrom : Nat := 0
deriving DecidableEq, Repr

/-- Supplies, power states, start-up and resets (03_power_and_startup). -/
structure Pwr where
  /-- [Table 3-6; 03_power_and_startup; state; DC 2 OFF] the power state -/
  state : Power := .off
  /-- [Table 3-5; 03_power_and_startup; state; spec none] how far the start-up has come -/
  phase : Phase := .none
  /-- [R52; 03_power_and_startup; mV; DC 3 0] VBAT as last measured -/
  vbat : Nat := 0
  /-- [R52; 03_power_and_startup; mV; DC 3 0] VDDIO as last measured -/
  vddio : Nat := 0
  /-- [R52; 03_power_and_startup; 4 x mV; DC 3 0] VLF1-VLF4 as last measured -/
  vlf : List Nat := [0, 0, 0, 0]
  /-- [R52; 03_power_and_startup; mV; DC 3 0] VREL as last measured -/
  vrel : Nat := 0
  /-- [R56; 03_power_and_startup; mV; DC 3 0] VHOLD -/
  vhold : Nat := 0
  /-- [Table 3-2; 03_power_and_startup; 1 bit; DC 3 0] VBAT valid monitor -/
  vbatValid : Bool := false
  /-- [Table 3-2; 03_power_and_startup; 1 bit; DC 3 0] VBAT full function monitor -/
  vbatFull : Bool := false
  /-- [Table 3-2; 03_power_and_startup; 1 bit; DC 3 0] VBAT overvoltage monitor tripped -/
  vbatOv : Bool := false
  /-- [Table 3-2; 03_power_and_startup; 4 bits; DC 3 0] VLFn valid monitors -/
  vlfValid : List Bool := [false, false, false, false]
  /-- [Table 3-2; 03_power_and_startup; 4 bits; DC 3 0] VLFn overvoltage monitors tripped -/
  vlfOv : List Bool := [false, false, false, false]
  /-- [Table 3-2; 03_power_and_startup; 1 bit; DC 3 0] VREL valid monitor -/
  vrelValid : Bool := false
  /-- [Table 3-2; 03_power_and_startup; 1 bit; DC 3 0] VDDIO valid monitor -/
  vddioValid : Bool := false
  /-- [R56; 03_power_and_startup; 1 bit; spec 0] the holdup charger runs -/
  charger : Bool := false
  /-- [R56; 03_power_and_startup; retained clock and mV; model] when and from what VHOLD the charger last started -/
  chargeFrom : Nat × Nat := (0, 0)
  /-- [R57; 03_power_and_startup; 1 bit; spec 0] the holdup measurement runs -/
  holdBusy : Bool := false
  /-- [R57, R59; 03_power_and_startup; 0.1 uF and mOhm; spec none until measured] C_hold and ESR measured at this start-up -/
  hold : Option (Nat × Nat) := none
  /-- [R57; 03_power_and_startup; 1 bit; spec 0] the measurement of this start-up was abandoned; the next start-up repeats it -/
  holdSkip : Bool := false
  /-- [R71; 03_power_and_startup; retained clock; spec none] ride-through runs since this instant -/
  ride : Option Nat := none
  /-- [R71; 03_power_and_startup; 1 bit; spec 0] the shutdown of R71 step 4 is done and step 5 holds -/
  shutdown : Bool := false
  /-- [R65, R67; 03_power_and_startup; 1 bit; spec 0] Neap has been decided and its entry runs -/
  neapEntry : Bool := false
  /-- [R65; 03_power_and_startup; frames; spec none] POWER_REQUEST waits for its response to be taken -/
  neapAfter : Bool := false
  /-- [R94; 05_host_mailbox; pin; spec 0] HOST_RDY_N asserted -/
  hostRdy : Bool := false
  /-- [R94; 05_host_mailbox; pin; DC 3 0] SPI_CS_N asserted -/
  csLow : Bool := false
  /-- [R62, R94; 05_host_mailbox; 1 bit; spec 0] the SPI transaction under way began while HOST_RDY_N was negated and is discarded -/
  csDiscard : Bool := false
  /-- [R89; 03_power_and_startup; base tick; model] when the mailbox became ready in this run -/
  readyAt : Nat := 0
  /-- [R63; 03_power_and_startup; 1 bit; spec 0] Stranded was entered through an F3 fault and is to be persisted -/
  persistWanted : Bool := false
  /-- [R461; 21_faults; 16 bits; spec 0] tamper sensors whose trips caused Stranded -/
  strandedBy : Nat := 0
  /-- [R68, R70; 03_power_and_startup; code; DC 3 0 power-on] cause of the last reset, as RESET_CAUSE byte 2 -/
  cause : Nat := 0
  /-- [R70; 03_power_and_startup; times on the retained clock; spec empty at a start-up under R61] watchdog resets of the last 10 minutes -/
  wdt : List Nat := []
  /-- [R68; 03_power_and_startup; 1 bit; spec 0] a SYS_RESET waits for the transport to take its response -/
  resetAfter : Bool := false
  /-- [R70; 03_power_and_startup; 8 bits and 1 bit; spec 0 at a start-up under R61] the count of R70 as taken at the last watchdog reset, and
  whether that reset was the third -/
  wdtSeen : Nat × Bool := (0, false)
  /-- [Table 3-3; 03_power_and_startup; 5 bits; spec 0] internal rails found outside their limits -/
  railBad : Nat := 0
  /-- [R62; 03_power_and_startup; trigger codes; spec empty] triggers latched before mailbox ready -/
  latched : List Nat := []
  /-- [R12; 01_architecture; 1 bit; spec 0] the Cliff die has acted under R12 -/
  cliffActed : Bool := false
  /-- [R462; 21_faults; pin; DC 2 0, unpowered] FAULT_N asserted -/
  faultN : Bool := false
  /-- [R462; 21_faults; pin; DC 2 0, unpowered] ALARM_N asserted -/
  alarmN : Bool := false
  /-- [R40; 02_balls_and_signals; strap; DC 3 0] CW_PAIR as sampled at reset release -/
  cwPair : Bool := false
  /-- [R40; 02_balls_and_signals; strap; DC 3 0] CW_ROLE as sampled at reset release -/
  cwRole : Bool := false
  /-- [R42; 02_balls_and_signals; pin; DC 3 0] TEST_EN -/
  testEn : Bool := false
  /-- [R42; 02_balls_and_signals; 1 bit; spec 0] scan test is enabled: FACTORY with TEST_EN high at reset release -/
  scanTest : Bool := false
  /-- [R43, R348, R84; 02_balls_and_signals; sensors; spec empty] tamper sensors that tripped before firmware ran, each with the tide clock
  at which it did -/
  tripSeen : List (Nat × Nat) := []
  /-- [R342; 14_security_and_tamper; 1 bit; spec 0] the recovery mailbox is served -/
  recovery : Bool := false
  /-- [R342, R84; 14_security_and_tamper; bank; spec none] the pending bank that failed at start-up, to be reported, and the tide clock of
  that verification -/
  fwFailed : Option (Nat × Nat) := none
  /-- [R44, R46; 02_balls_and_signals; 2 x kinds; spec 0] diagnoses of FAULT_N and ALARM_N that stand, bit k for kind k of Table 22-2 -/
  lineKinds : Nat × Nat := (0, 0)
deriving DecidableEq, Repr

/-- A record that waits to be raised (R84, R85): what it says, its tide clock stamp, whether it clears a fault, and the instance. -/
structure Early where
  code : Nat := 0
  cls : Nat := 0
  params : Bytes := []
  clear : Bool := false
  inst : Bytes := []
  at_ : Nat := 0
  ref : Nat × Nat := (0, 0)
deriving DecidableEq, Repr

/-- Event paths (21_faults_events_and_erosion). -/
structure Evt where
  /-- [R61, R84, R85; 04_clocks_and_ordering; records; spec empty] records found before they can be raised, with the tick they were found:
  before firmware runs, and those of POWER before the reset cause is reported -/
  early : List Early := []
  /-- [R85; 04_clocks_and_ordering; 20 x 16 bits; spec 0] next sequence number of each source -/
  seq : List Nat := List.replicate 20 0
  /-- [R84; 04_clocks_and_ordering; 20 x 48 bits; spec 0] last timestamp of each source -/
  stamp : List Nat := List.replicate 20 0
  /-- [Table 21-2; 21_faults; 16 records per source; spec empty] source queues -/
  queues : List (List EvRec) := List.replicate 20 []
  /-- [R464; 21_faults; one slot per source; spec empty] lost-count slots: first number lost, and how many -/
  lost : List (Option (Nat × Nat)) := List.replicate 20 none
  /-- [R465; 21_faults; 128 slots; spec empty] EV_CMD_DONE slots -/
  cmdDone : List EvRec := []
  /-- [R465; 21_faults; 64 records; spec empty] the pinned queue -/
  pinned : List EvRec := []
  /-- [R464; 21_faults; 256 records; spec empty] the host ring -/
  ring : List EvRec := []
  /-- [R466; 21_faults; 512 records; spec empty] the trace buffer, oldest first -/
  trace : List EvRec := []
  /-- [R472; 21_faults; 64 entries; spec empty] the log backlog: pinned flag and the entry from its byte 4 -/
  backlog : List (Bool × Bytes) := []
  /-- [R472; 21_faults; entry; spec none] merged backlog entries: count, first and last stamp -/
  merged : Option (Nat × Nat × Nat) := none
  /-- [R167, R182, R315, R382; 07_lf_field_engine; list; model] when each rate-limited record was last raised: (key, time) -/
  limits : List (Nat × Nat) := []
deriving DecidableEq, Repr

/-- Fault handling (R457 to R460). -/
structure Flt where
  /-- [R458; 21_faults; 32 faults; spec empty] active faults, oldest first -/
  active : List ActiveFault := []
  /-- [R459; 21_faults; fault; spec none] the fault being handled: code and class -/
  handling : Option (Nat × Nat) := none
  /-- [R459; 21_faults; list; spec empty] suspended handlings -/
  suspended : List (Nat × Nat) := []
  /-- [R459; 21_faults; 8 faults; spec empty] the fault queue -/
  queue : List (Nat × Nat) := []
  /-- [R460; 21_faults; 16 bits; spec 0] lost faults counted -/
  lost : Nat := 0
  /-- [R460; 21_faults; 1 bit; spec 0] the re-reading after a loss has ended -/
  reread : Bool := false
deriving DecidableEq, Repr

/-- Parameters: sparse lists of (ID, value) that differ from the default, in rising order of ID (R131). -/
structure Par where
  /-- [R27; 01_architecture; 32 bits each; spec defaults] last written values -/
  written : List (Nat × Nat) := []
  /-- [R24; 01_architecture; 32 bits each; spec defaults] values in effect -/
  active : List (Nat × Nat) := []
  /-- [R89; 05_host_mailbox; parameter values; spec none] the transport setting to restore while a new one is on trial -/
  trial : Option (List (Nat × Nat)) := none
deriving DecidableEq, Repr

/-- One LF channel (07_lf_field_engine). -/
structure LfChan where
  /-- [Table 6-5; 06_command_reference; 1 bit; DC 3 0] disabled by host -/
  disabled : Bool := false
  /-- [Table 7-7; 07_lf_field_engine; 8 bits; DC 3 0] diagnosis bits -/
  diag : Nat := 0
  /-- [R159; 07_lf_field_engine; 8 bits; DC 3 0] consecutive implausible count -/
  implaus : Nat := 0
  /-- [Table 7-7; 07_lf_field_engine; count; DC 3 0] consecutive clean off-state scans -/
  clean : Nat := 0
  /-- [Table 7-5; 07_lf_field_engine; 10 Hz units; DC 3 0] committed resonance estimate -/
  res : Nat := 0
  /-- [Table 7-5; 07_lf_field_engine; Q x 100; DC 3 0] committed Q -/
  q : Nat := 0
  /-- [R165; 07_lf_field_engine; 0.1 uH; DC 3 0] sounded inductance -/
  ind : Nat := 0
  /-- [R165; 07_lf_field_engine; 10 mOhm; DC 3 0] sounded loop resistance -/
  rdc : Nat := 0
  /-- [R165; 07_lf_field_engine; 0.1 m; spec 0xFFFF while LF_COIL_R is 0] cable length -/
  cable : Nat := 65535
  /-- [R145; 07_lf_field_engine; signed 0.01 %; DC 3 0] detuning -/
  det : Int := 0
  /-- [Table 7-5; 07_lf_field_engine; mOhm; DC 3 400, the typical figure of Table 23-5] bridge on-resistance -/
  rbr : Nat := 400
  /-- [Table 7-5; 07_lf_field_engine; Cliff temperature; DC 3 0] temperature of the resonance estimate -/
  temp : Int := 0
  /-- [R164; 07_lf_field_engine; base tick; DC 3 none] last automatic sounding -/
  lastAuto : Option Nat := none
  /-- [Table 7-7 bit 5; 07_lf_field_engine; base ticks; DC 3 empty] automatic soundings with overcurrent latched, last hour -/
  ovcTries : List Nat := []
  /-- [R149; 07_lf_field_engine; 0-6 periods each; DC 3 0] pre-emphasis k_on and k_off -/
  kOnOff : Nat × Nat := (0, 0)
deriving DecidableEq, Repr

/-- A coupling matrix entry (R176, R177): its parts in units of 2^-40 ohm, each a 32-bit floating point number, and the base tick
and Cliff temperature of its window. -/
structure Coup where
  row : Nat := 0
  col : Nat := 0
  re : Int := 0
  im : Int := 0
  at_ : Nat := 0
  temp : Int := 0
deriving DecidableEq, Repr

/-- The kinds of burst of Table 7-1. -/
inductive BurstKind where
  | wake
  | locate
  | refresh
  | carrier
  | sounding
deriving DecidableEq, Repr

/-- A burst plan (R150): kind, the command that asked, the windows in order, predicted energy in uJ and duration in us. -/
structure Burst where
  kind : BurstKind := .carrier
  ref : Option CmdRef := none
  windows : List Window := []
  frame : Bytes := []
  preGroup : Option Nat := none
  plan : Nat := 0
  durUs : Nat := 0
  energyUj : Nat := 0
  /-- the carrier increment of an `LF_BURST` that overrides the configured one, else 0 -/
  inc : Nat := 0
  /-- the carrier increment that it is sent at, from its beginning on -/
  carrier : Nat := 0
  /-- the brake that follows the requested duration of a carrier burst (R151), in us -/
  brakeUs : Nat := 0
  started : Nat := 0
  /-- the channels usable when the burst began (R143): those it does not drive are idle -/
  chans : List Nat := []
  /-- V_LFn as measured at the start of the burst (R147), in mV -/
  vlf : List Nat := []
  /-- channels of the preamble window marked off target for the frame (R149) -/
  frameOff : List Nat := []
  /-- a diagnosis found in a channel while the burst was sent: the channel, the first window whose record it spoils (R160), and when
  the channel stops, in us from the burst's start -/
  faults : List (Nat × Nat × Nat) := []
  /-- supply groups that fell below valid while the burst was sent (Table 7-8) -/
  lostGroups : List Nat := []
deriving DecidableEq, Repr

/-- The LF field engine (07_lf_field_engine). -/
structure Lf where
  /-- [R142; 07_lf_field_engine; 48 channels; see LfChan] the channels, channel 1 first -/
  chans : List LfChan := List.replicate 48 {}
  /-- [R176; 08_field_synthesis; 48 x 48 complex; spec empty] committed coupling entries -/
  model : List Coup := []
  /-- [R156; 07_lf_field_engine; second model buffer; spec empty] validated entries that wait for a burst boundary -/
  pendCoup : List Coup := []
  /-- [R156; 07_lf_field_engine; second model buffer; spec empty] validated channel estimates that wait for a burst boundary: (channel, values) -/
  pendChan : List (Nat × LfChan) := []
  /-- [R156; 07_lf_field_engine; records; spec none] the last burst and its records, under validation -/
  valid : Option (Burst × List WinRec) := none
  /-- [R156; 07_lf_field_engine; 1 bit; spec 0] a commit is due at the next boundary -/
  commitDue : Bool := false
  /-- [R153; 07_lf_field_engine; plan; spec none] the burst being sent -/
  cur : Option Burst := none
  /-- [R153; 07_lf_field_engine; plan; spec none] the burst queued behind it -/
  queued : Option Burst := none
  /-- [R154; 07_lf_field_engine; plan; spec none] an internal burst that waits behind a host burst -/
  held : Option Burst := none
  /-- [R154; 07_lf_field_engine; 48 bits; spec 0] channels still to be sounded -/
  soundMask : Nat := 0
  /-- [Table 6-5, R473; 07_lf_field_engine; command; spec none] the command a sounding belongs to -/
  soundRef : Option CmdRef := none
  /-- [R154; 07_lf_field_engine; 1 bit; spec 0] the sounding has stopped at a channel boundary until the path's last LF step -/
  soundHeld : Bool := false
  /-- [R164; 07_lf_field_engine; 1 bit; spec 0] the sounding under way is an automatic one -/
  soundAuto : Bool := false
  /-- [R154; 07_lf_field_engine; mask and command; spec none] a sounding asked for by the host that waits while an automatic one runs -/
  soundWait : Option (Nat × Option CmdRef) := none
  /-- [R145; 07_lf_field_engine; 1 bit; spec 0] `LF_CARRIER` was written; the channels are retuned once the engine has stopped -/
  retuneDue : Bool := false
  /-- [R291; 12_sub_ghz_radio; 416 bytes; spec absent] the regulatory record in effect for the LF engine -/
  reg : Option Bytes := none
  /-- [R167; 07_lf_field_engine; uJ; spec 0 at a start-up under R61] the thermal account E_th, retained through resets -/
  eth : Nat := 0
  /-- [R167; 07_lf_field_engine; retained clock; spec 0] when E_th was last brought up to date -/
  ethAt : Nat := 0
  /-- [R167; 07_lf_field_engine; 0.01 W; spec 80, the default] the leak that E_th has fallen at since then, retained through resets -/
  ethLeak : Nat := 80
  /-- [R169; 07_lf_field_engine; 60 bins of ms; spec 0 at a start-up under R61] LF duty bins, the present one first -/
  duty : List Nat := List.replicate 60 0
  /-- [R169; 07_lf_field_engine; retained clock; model] when the present bin is over -/
  binAt : Nat := 60000000
  /-- [R169; 07_lf_field_engine; millisecond of the retained clock; model] one above the last millisecond counted as LF duty -/
  dutyLast : Nat := 0
  /-- [R163; 07_lf_field_engine; list; spec empty] enables and disables that wait for the end of the burst: (channel, enable) -/
  pendEnable : List (Nat × Bool) := []
  /-- [R171; 07_lf_field_engine; base tick; model] end of the last burst -/
  lastEnd : Nat := 0
  /-- [R161; 07_lf_field_engine; base tick; model] last off-state scan -/
  lastScan : Nat := 0
  /-- [Table 7-4; 07_lf_field_engine; 0.1 degC; DC 3 250] Cliff die temperature -/
  temp : Int := 250
deriving DecidableEq, Repr

/-- The locate poll under way (R226): N_dev, tone plan, frame version, end of the burst, the marks of its windows, and the slots
that have ended. -/
structure LocPoll where
  nDev : Bytes := []
  plan : Nat := 0
  version : Nat := 3
  at_ : Nat := 0
  windows : List Window := []
  /-- the receiver is open, since 500 us after the burst -/
  opened : Bool := false
  slot : Nat := 0
deriving DecidableEq, Repr

/-- Field synthesis and zones (08_field_synthesis_and_zones). Definitions stand in the record store. -/
structure Zon where
  /-- [R197; 08_field_synthesis; 16 tokens; spec empty] the located set -/
  located : List Located := []
  /-- [R186; 08_field_synthesis; per group; spec empty] cached weights: group, the inputs they rest on, the codes, the scale -/
  cache : List (Nat × Bytes × List Drive × Nat) := []
  /-- [R189; 08_field_synthesis; per group; spec empty] remaps in use: (group, failed, substitute or 0) -/
  remaps : List (Nat × Nat × Nat) := []
  /-- [R226; 09_tideway_protocol; poll; spec none] the locate poll whose response window runs -/
  poll : Option LocPoll := none
  /-- [R196; 08_field_synthesis; base tick per plan; spec empty] the last locate poll on each tone plan -/
  polled : List (Nat × Nat) := []
  /-- [R194; 08_field_synthesis; base tick; spec 0] last decision -/
  lastDecision : Nat := 0
deriving DecidableEq, Repr

/-- A UWB port (R235). -/
structure UwbPort where
  state : Nat := 4
  /-- a delay whose write was deferred: in use until the next reset (R236) -/
  delay : Option Nat := none
  /-- the delay of the last reflectometry in this run, and when it ended (R235) -/
  shown : Option (Nat × Nat) := none
  prevGood : Option Nat := none
  internal : Nat := 0
  at_ : Nat := 0
deriving DecidableEq, Repr

/-- A DS-TWR round (R242 to R245). -/
structure Round where
  num : Nat := 0
  port : Nat := 1
  quality : Nat := 0
  fpPs : Nat := 0
  tround1 : Nat := 0
  treply2 : Nat := 0
  phase : Option Int := none
  resp : Bool := false
  report : Option (Nat × Nat) := none
  /-- when the round began -/
  since : Nat := 0
  /-- `RD_STS_MIN` and `RD_FP_AGREE` as they stood when it began (R257) -/
  stsMin : Nat := 160
  fpMax : Nat := 50
  /-- the cable delay in use as the round began, in ps (Table 10-10) -/
  delayPs : Nat := 0
  /-- distance in thousandths of a centimetre -/
  dist : Option Nat := none
  valid : Bool := false
  angle : Option Int := none
deriving DecidableEq, Repr

/-- A ranging session (R238). -/
structure RSess where
  token : Nat := 0
  renewal : Bool := false
  seed : Bytes := []
  kSts : Bytes := []
  vUpper : Bytes := []
  kRep : Bytes := []
  plan : List Nat := []
  repeated : Bool := false
  cur : Option Round := none
  rounds : List Round := []
  count : Nat := 0
  /-- the STS generator's counter (R241) -/
  sts : Nat := 0
  /-- its number among the sessions opened, which orders them (R239) and tells two of one token apart (R256) -/
  num : Nat := 0
deriving DecidableEq, Repr

/-- UWB ranging (10_ranging_and_relay_defence). -/
structure Uwb where
  /-- [R235; 10_ranging; 4 ports; spec not measured] the ports -/
  ports : List UwbPort := [1, 2, 3, 4].map (fun p => { internal := Config.uwbInternal p })
  /-- [R238; 10_ranging; 4 sessions; spec empty] ranging sessions, in the order their bursts began -/
  sessions : List RSess := []
  /-- [R239; 10_ranging; list; spec empty] bursts due that wait for a session or a seed: token, renewal -/
  due : List (Nat × Bool) := []
  /-- [R246; 10_ranging; list; spec empty] each token's newest outcome per port -/
  results : List RResult := []
  /-- [R237; 10_ranging; 4 bits; spec 0] ports still to be measured by reflectometry, and the command -/
  refl : Nat := 0
  /-- [R237; 10_ranging; command; spec none] the command the reflectometry belongs to -/
  reflRef : Option CmdRef := none
  /-- [R237; 10_ranging; 1 bit; spec 0] reflectometry has stopped at a port until the bursts that wait have ended -/
  reflHeld : Bool := false
  /-- [R239; 10_ranging; count; model] sessions opened since start-up -/
  opened : Nat := 0
  /-- [R239, R242; 10_ranging; session numbers; spec empty] the open sessions in the order their next rounds fall -/
  turn : List Nat := []
  /-- [R243; 10_ranging; token, base tick, ms; spec empty] the instant of the next burst that a token's last RANGE_START announced, and the interval -/
  announced : List (Nat × Nat × Nat) := []
  /-- [Table 10-8; 10_ranging; 4 bits; spec 0] reasons for unavailability reported -/
  unavail : Nat := 0
  /-- [Table 10-8 reason 2; 10_ranging; 1 bit; spec 0] the transceiver failed its self-test or PLL lock -/
  failed : Bool := false
  /-- [Table 10-3, Table 10-1; 10_ranging; 34 bytes and FCS; spec none] the last RANGE_START handed to the transmitter -/
  lastStart : Bytes := []
deriving DecidableEq, Repr

/-- A door held by an access session: its number, its record and the tick its timeout ends (R262). -/
structure DoorHold where
  door : Nat := 0
  record : Bytes := []
  due : Nat := 0
  /-- its timeout in base ticks, as its session began with it (R262, R286) -/
  span : Nat := 0
deriving DecidableEq, Repr

/-- An access session (R260). -/
structure Access where
  id : Nat := 0
  token : Nat := 0
  doors : List DoorHold := []
deriving DecidableEq, Repr

/-- The start session (R264), with the parameter values and keys it began with (R286, R344). -/
structure Start where
  id : Nat := 0
  driver : Nat := 0
  due : Nat := 0
  transponder : Bool := false
  openFresh : Nat := 0
  ignSeen : Bool := false
  ignOff : Bool := false
  repeatMs : Nat := 100
  nextRepeat : Nat := 0
  bus : Nat := 1
  ident : Nat := 0x1A0
  /-- `REL_ENGINE_RX_ID`, `REL_FRAME_VERSION`, `REL_RUN_INPUT` and `REL_IGN_INPUT` as the session began with them (R286) -/
  rxIdent : Nat := 0x1A8
  version : Nat := 2
  runInput : Nat := 0
  ignInput : Nat := 0
  /-- `REL_START_TIMEOUT` in base ticks as the session began with it (R286) -/
  span : Nat := 120000000
  key : Option Bytes := none
  cands : List (Nat × Nat × Nat) := []
  aKilled : Bool := false
  bKilled : Bool := false
deriving DecidableEq, Repr

/-- A frame handed to a CAN controller (Table 4-2): bus, identifier, 29-bit format, bytes, and when it was handed over. -/
structure CanFrame where
  bus : Nat := 1
  ident : Nat := 0
  ext : Bool := false
  bytes : Bytes := []
  at_ : Nat := 0
  /-- a release frame (R274) -/
  rel : Bool := false
deriving DecidableEq, Repr

/-- Release sessions and outputs (11_release_and_immobiliser). -/
structure Rel where
  /-- [R260; 11_release; 16 doors; spec empty] open access sessions -/
  access : List Access := []
  /-- [R264; 11_release; one; spec none] the open start session -/
  start : Option Start := none
  /-- [R260; 11_release; 16 bits; spec 1] next session ID -/
  nextId : Nat := 1
  /-- [R270; 11_release; output; spec off] START_A energised -/
  startA : Bool := false
  /-- [R270; 11_release; output; spec off] START_B enabled -/
  startB : Bool := false
  /-- [Table 11-2; 11_release; codes; spec none] START_A's diagnoses, bit k for code k, and whether an open was found only while on -/
  diagA : Nat × Bool := (0, false)
  /-- [Table 11-2; 11_release; codes; spec none] START_B's diagnoses -/
  diagB : Nat × Bool := (0, false)
  /-- [R268; 11_release; count; spec 0] consecutive clean off-state checks of START_A and START_B -/
  clean : Nat × Nat := (0, 0)
  /-- [R273; 11_release; 32 bits; spec none until a block is committed] next freshness value -/
  fresh : Option Nat := none
  /-- [R273; 11_release; block; spec none] the last block committed, and whether the next one is queued -/
  block : Option Nat := none
  /-- [R273; 11_release; block; spec none] the freshness block whose commit is awaited -/
  blockWait : Option Nat := none
  /-- [R276; 11_release; 32 bits; spec none] freshness of the first start-state frame since start-up, and of the last value sent -/
  firstSent : Option Nat := none
  /-- [R276; 11_release; 32 bits; spec none] last freshness value sent -/
  lastSent : Option Nat := none
  /-- [R275; 11_release; 8 bits; spec none] version announced in the last ENGINE_STATUS accepted -/
  engVer : Option Nat := none
  /-- [R266; 11_release; 2 bits; DC 3 0] engine running as last read, and the ignition bit of the last ENGINE_STATUS accepted -/
  engine : Bool × Bool := (false, false)
  /-- [R261; 11_release; 2 x 16 bits; spec 0] door masks last signalled on CAN1 and CAN2 -/
  masks : Nat × Nat := (0, 0)
  /-- [R261; 11_release; pins; spec none] GPIO pulses that run: pin and end tick -/
  pulses : List (Nat × Nat) := []
  /-- [R268; 11_release; base tick; model] when the next off-state check is due -/
  checkAt : Nat := 0
  /-- [R283; 11_release; 2 ports; spec 0] transponder port diagnoses, bit k for code k -/
  tpDiag : Nat × Nat := (0, 0)
  /-- [R344; 14_security_and_tamper; keys; spec none] door release key the open access sessions sign with -/
  doorKey : Option Bytes := none
  /-- [R344; 14_security_and_tamper; 2 keys; spec none] the engine and door release keys that the running path began with -/
  pathKeys : Option Bytes × Option Bytes := (none, none)
  /-- [R286; 11_release; version and identifier; spec none] `REL_FRAME_VERSION` and `REL_DOOR_TX_ID` that the open access sessions began with -/
  doorFmt : Option (Nat × Nat) := none
deriving DecidableEq, Repr

/-- A calibration entry (Table 12-4). -/
structure CalEntry where
  chan : Nat := 0
  /-- the fields of Table 12-4: VCO band, KVCO trim, two-point gain, IQ gain and phase, DC-offset codes per gain step, PA trim -/
  vco : Nat := 0
  kvco : Nat := 0
  gain : Nat := 0
  iq : Nat := 0
  dc : List Nat := []
  pa : Nat := 0
  at_ : Nat := 0
  temp : Int := 0
deriving DecidableEq, Repr

/-- A calibration under way (R293): channel, step done so far, whether it is mandatory, the shadow entry. -/
structure CalRun where
  chan : Nat := 0
  step : Nat := 0
  mandatory : Bool := false
  shadow : CalEntry := {}
  /-- a step runs since this base tick -/
  stepFrom : Option Nat := none
deriving DecidableEq, Repr

/-- The receiver (R305): the AGC gain step of 8, the DC-offset DAC code loaded, the frequency offset estimated, whether gain and
offset are frozen, and the bandwidth of the digital offset tracking, in Hz. -/
structure Receiver where
  gainStep : Nat := 0
  dac : Option Nat := none
  freqOff : Int := 0
  frozen : Bool := false
  loopHz : Nat := 2000
deriving DecidableEq, Repr

/-- A transmission of the sub-GHz radio (R301). -/
structure Tx where
  chan : Nat := 0
  freq : Nat := 0
  entry : Nat := 0
  asked : Nat := 0
  airUs : Nat := 0
  prec : Nat := 1
  ref : Option CmdRef := none
  frame : Bytes := []
  waiting : Bool := false
  radiating : Bool := false
  since : Nat := 0
  plugin : Option Nat := none
  /-- modulated, or a bare carrier (`RADIO_TEST_TX`) -/
  modulated : Bool := true
  /-- the band of a tuner acquisition probe (R307) -/
  probe : Option Nat := none
  /-- the PA stage and drive code of its entry (Table 12-7), and the tuner's codes, as it went on air -/
  stage : Nat := 0
  drive : Nat := 0
  tuner : List Nat := []
deriving DecidableEq, Repr

/-- A tuner setting of one band (R307): the codes of the two capacitor banks and the inductor bank, none before its acquisition. -/
structure Tuner where
  band : Nat := 0
  codes : List Nat := []
  state : Nat := 0
  high : Nat := 0
  over_ : Nat := 0
  last : Nat := 0
deriving DecidableEq, Repr

/-- The sub-GHz radio (12_sub_ghz_radio). -/
structure Rad where
  /-- [R293; 12_sub_ghz_radio; 256 entries; spec invalid] valid calibration entries, in retained SRAM -/
  cal : List CalEntry := []
  /-- [R293; 12_sub_ghz_radio; shadow entry; spec none] the calibration under way -/
  run : Option CalRun := none
  /-- [R298; 12_sub_ghz_radio; entries; spec empty] entries RADIO_CAL_RUN still asks for, and its command -/
  calReq : List Nat := []
  /-- [R298; 12_sub_ghz_radio; command; spec none] the RADIO_CAL_RUN under way -/
  calRef : Option CmdRef := none
  /-- [R301; 12_sub_ghz_radio; transmission; spec none] the transmission in progress or waiting -/
  tx : Option Tx := none
  /-- [R302, Table 12-5; 12_sub_ghz_radio; requests; spec empty] internal requests that wait for a packet or window of equal or higher precedence -/
  waits : List Tx := []
  /-- [R301; 12_sub_ghz_radio; code; spec ST_OK] outcome of the last transmission request, a status of Table 6-10 -/
  lastTx : Nat := 0
  /-- [R297; 12_sub_ghz_radio; channel; spec none] channel the synthesiser is locked to -/
  locked : Option Nat := none
  /-- [R307; 12_sub_ghz_radio; 8 bands; spec not run] tuner settings, in retained SRAM -/
  tuners : List Tuner := []
  /-- [R310; 12_sub_ghz_radio; band; spec none] the band used last -/
  band : Option Nat := none
  /-- [R309; 12_sub_ghz_radio; VSWR x 10; DC 3 0] last VSWR measured -/
  vswr : Nat := 0
  /-- [R311; 12_sub_ghz_radio; 1 bit; spec 0] the mismatch state -/
  mismatch : Bool := false
  /-- [R315; 12_sub_ghz_radio; 60 bins of ms; spec 0 at a start-up under R61] duty bins, the present one first -/
  duty : List Nat := List.replicate 60 0
  /-- [R315; 12_sub_ghz_radio; retained clock; model] when the present bin is over -/
  binAt : Nat := 60000000
  /-- [R315; 12_sub_ghz_radio; millisecond of the retained clock; model] one above the last millisecond counted as sub-GHz duty -/
  dutyLast : Nat := 0
  /-- [R305; 12_sub_ghz_radio; see Receiver; DC 3 gain step 0, nothing loaded] the receiver -/
  rx : Receiver := {}
  /-- [R313; 12_sub_ghz_radio; pins; spec low] COEX_REQ, COEX_PRI -/
  coex : Bool × Bool := (false, false)
  /-- [R313; 12_sub_ghz_radio; base tick; model] when COEX_REQ was last negated -/
  coexOff : Option Nat := none
  /-- [R313; 12_sub_ghz_radio; pin; DC 3 low] COEX_GRANT -/
  grant : Bool := false
  /-- [R295; 12_sub_ghz_radio; 0.1 degC; DC 3 250] Strand die temperature -/
  temp : Int := 250
  /-- [R291; 12_sub_ghz_radio; 1 bit; spec 0] a committed power table or regulatory record takes effect at the packet's end -/
  newTable : Bool := false
  /-- [R296, R306; 12_sub_ghz_radio; 1 bit; spec 0] a power table write has committed, which invalidates every calibration entry -/
  newPower : Bool := false
  /-- [R291; 12_sub_ghz_radio; record; spec none] the regulatory record in effect -/
  reg : Option Bytes := none
  /-- [R306; 12_sub_ghz_radio; power table; spec default table] the power table in effect, `none` the default -/
  table : Option Bytes := none
  /-- [R315; 12_sub_ghz_radio; frames; model] the last frame handed to the transmitter -/
  lastFrame : Bytes := []
deriving DecidableEq, Repr

/-- A capacitive channel (13_capacitive_sensing_and_wake). -/
structure CapChan where
  /-- baseline in counts, once taken -/
  base : Option Nat := none
  /-- the conversions gathered for a baseline -/
  gather : List Nat := []
  last : Nat := 0
  touched : Bool := false
  touchedAt : Nat := 0
  low : Nat := 0
  neg : List Nat := []
  /-- conversions of a confirmation in progress that have passed, and when the last of them ended -/
  confirm : Nat := 0
  confAt : Nat := 0
  /-- when the baseline last drifted -/
  drifted : Nat := 0
  diag : Nat := 0
  clean : Nat := 0
deriving DecidableEq, Repr

/-- A contact input (R324). -/
structure Contact where
  high : Bool := false
  asserted : Bool := false
  stuck : Bool := false
  openWire : Bool := false
  eolLast : Option Nat := none
  eolClean : Nat := 0
  since : Nat := 0
deriving DecidableEq, Repr

/-- Handle sensing, contact inputs and WAKE_N (13_capacitive_sensing_and_wake). -/
structure Sen where
  /-- [R319; 13_capacitive_sensing; 16 channels; spec disabled] the capacitive channels -/
  cap : List CapChan := List.replicate 16 {}
  /-- [R323; 13_capacitive_sensing; 2 bits; spec 0] a guard is shorted, with its clean-scan counts -/
  guards : List (Bool × Nat) := [(false, 0), (false, 0)]
  /-- [R324; 13_capacitive_sensing; 8 inputs; DC 3 negated] the contact inputs -/
  cin : List Contact := List.replicate 8 {}
  /-- [R326; 13_capacitive_sensing; 1 bit; DC 3 0] WAKE_N asserted -/
  wakeN : Bool := false
  /-- [R326; 13_capacitive_sensing; 1 bit; spec 0] WAKE_N flagged stuck -/
  wakeStuck : Bool := false
  /-- [R322; 13_capacitive_sensing; 16 bits; spec 0] channels to rebaseline at the end of the scan -/
  rebase : Nat := 0
  /-- [R319; 13_capacitive_sensing; base tick; model] when the next scan is due in a running state -/
  scanAt : Nat := 0
  /-- [R326; 13_capacitive_sensing; base tick; model] since when WAKE_N is asserted -/
  wakeFrom : Nat := 0
deriving DecidableEq, Repr

/-- A key vault slot in SRAM (Table 14-2): its bytes and its plug-in binding. -/
structure Vault where
  key : Option Bytes := none
  bind : Nat := 0
deriving DecidableEq, Repr

/-- A code-store bank (R341): what its image's envelope says. -/
structure Bank where
  present : Bool := false
  image : Bytes := []
  secVersion : Nat := 0
  major : Nat := 0
  minor : Nat := 0
  digest : Bytes := []
  pending : Bool := false
  protect : Bool := false
  verifies : Bool := false
  programs : Nat := 0
deriving DecidableEq, Repr

/-- What an envelope verification is for (R339). -/
inductive VerifyFor where
  | firmware
  | grant (kind : Nat)
  | plugin (slot : Nat)
deriving DecidableEq, Repr

/-- What the SLH-DSA sequencer signs (R137, R471, R454): each with the header and body fixed at its beginning. -/
inductive SignFor where
  | attest (ref : CmdRef) (object : Bytes)
  | checkpoint (ref : Option CmdRef) (last : Nat) (hash object : Bytes)
  | pairReport (object : Bytes)
deriving DecidableEq, Repr

/-- Lifecycle, keys and tamper (14_security_and_tamper). -/
structure Sec where
  /-- [R345; 14_security; base tick; spec none] the SERVICE grant: end tick and permission bits, in SRAM only -/
  service : Option (Nat × Nat) := none
  /-- [R337; 14_security; 512-bit fuses; spec blank, R513] OEM root public key -/
  oemRoot : Option Bytes := none
  /-- [R353; 14_security; 64 fuses; DC 2 0 as shipped] Breach fuses blown -/
  breachFuses : Nat := 0
  /-- [R331; 14_security; 1 fuse; DC 2 0 as shipped] DECOMMISSIONED fuse -/
  decomFuse : Bool := false
  /-- [R334; 14_security; 1 bit; DC 2 available] the vault is available: the KEK passed its check -/
  vaultOk : Bool := true
  /-- [R335; 14_security; 64 slots; DC 2 identity and host key as shipped, R513] the key vault -/
  vault : List Vault := Config.shippedSlots.map (fun k => { key := k, bind := 0 })
  /-- [R346; 14_security; envelope; DC 2 as shipped, R513] the installed device certificate -/
  certificate : Option Bytes := some Config.shippedCertificate
  /-- [R136; 06_command_reference; 96 KiB and 64 KiB; spec empty] staging areas 2 and 3, with whether the last fill has begun at 0 -/
  stage2 : Bytes := []
  /-- [R136; 06_command_reference; 64 KiB; spec empty] staging area 3 -/
  stage3 : Bytes := []
  /-- [R341; 14_security; 1 MiB; spec empty] staging area 1, the inactive bank being written -/
  stage1 : Bytes := []
  /-- [R341; 14_security; 2 banks; DC 2 firmware 3.2 in bank A, bank B erased, R513] the code store -/
  banks : List Bank := [{ present := true, major := 3, minor := 2, verifies := true }, {}]
  /-- [R341; 14_security; 1 bit; DC 2 bank A] the active bank -/
  active : Nat := 0
  /-- [R342; 14_security; 1 bit; spec 0] the firmware counter write is due for retry -/
  fwRetry : Bool := false
  /-- [R417; 19_extension_core; families; spec empty] plug-in family counter writes due for retry: (family, value) -/
  famRetry : List (Nat × Nat) := []
  /-- [R339; 14_security; verification; spec none] the envelope under verification and its command -/
  verify : Option (VerifyFor × CmdRef) := none
  /-- [R137; 06_command_reference; signature; spec none] the signature being computed -/
  sign : Option SignFor := none
  /-- [Table 14-3 Sequence; 14_security; 32 bits; DC 33 0 at reset] attestation reports signed, the count their headers carry -/
  attests : Nat := 0
  /-- [R346; 14_security; object; spec none] the last attestation report, in SRAM -/
  report : Option Bytes := none
  /-- [R471; 21_faults; object; spec none] the newest signed checkpoint: number and envelope -/
  checkpoint : Option (Nat × Bytes) := none
  /-- [R468; 21_faults; 32 bits; spec 0 at manufacture] number of the next security log entry -/
  logNext : Nat := 0
  /-- [R469; 21_faults; 256 bits; spec 32 zero bytes] head hash of the security log -/
  logHead : Bytes := List.replicate 32 0
  /-- [R471; 21_faults; count; DC 2 0 at manufacture] next checkpoint number, the first uncovered entry and the chain value before it -/
  ckptNext : Nat := 0
  /-- [R471; 21_faults; entry; DC 2 0] first log entry not covered by a checkpoint -/
  ckptFrom : Nat := 0
  /-- [R471; 21_faults; 256 bits; spec 32 zero bytes] chain value before that entry -/
  ckptHash : Bytes := List.replicate 32 0
  /-- [R471; 21_faults; 1 bit; spec 0] a checkpoint is due and waits for the sequencer -/
  ckptDue : Option (Option CmdRef) := none
  /-- [R347; 14_security; 16 bits; spec 0] sensors tripped since start-up -/
  tripped : Nat := 0
  /-- [R461; 21_faults; 16 bits; DC 3 0] sensors that read tripped now -/
  reads : Nat := 0
  /-- [R347; 14_security; code; DC 3 0] last response -/
  lastResp : Nat := 0
  /-- [R465; 21_faults; list; spec empty] recent trip-and-clear times per sensor: (sensor, time) -/
  chatter : List (Nat × Nat) := []
  /-- [R465; 21_faults; sensors; spec 0] sensors held tripped for chattering -/
  heldTripped : Nat := 0
  /-- [R352; 14_security; times; spec empty] tamper strikes, on the retained clock, also persisted -/
  strikes : List Nat := []
  /-- [R353; 14_security; 1 bit; spec 0] the Breach record is not yet in the store -/
  breachDue : Bool := false
  /-- [R355, R401; 17_tidemark_timers; 2 bits; spec 0] cores halted by the debug port -/
  halted : Bool × Bool := (false, false)
  /-- [R333, R353; 14_security; 1 bit; model] stored token records are being erased in the background -/
  wiping : Bool := false
deriving DecidableEq, Repr

/-- A noise source (R358 to R361). -/
structure Noise where
  running : Bool := false
  passed : Bool := false
  block : Option Bytes := none
  fails : List Nat := []
deriving DecidableEq, Repr

/-- The DRBG (R362): CTR_DRBG key, value and reseed counter. -/
structure Drbg where
  key : Bytes := []
  v : Nat := 0
  counter : Nat := 0
deriving DecidableEq, Repr

/-- A software port (R371). -/
structure RngPort where
  fifo : List Word := []
  err : Bool := false
  reseed : Bool := false
deriving DecidableEq, Repr

/-- Random numbers (15_random_numbers). -/
structure Rng where
  /-- [R358; 15_random_numbers; 2 sources; spec stopped] the noise sources -/
  src : List Noise := [{}, {}]
  /-- [R361; 15_random_numbers; order; spec none] which source's slot filled first -/
  first : Nat := 0
  /-- [R362; 15_random_numbers; key 256, V 128 bits; spec not instantiated] the DRBG -/
  drbg : Option Drbg := none
  /-- [R367; 15_random_numbers; list; spec empty] consumers that wait, with when -/
  waiting : List (RngUser × Nat) := []
  /-- [R369; 15_random_numbers; base tick; spec none] since when a reseed waits -/
  reseedFrom : Option Nat := none
  /-- [R370; 15_random_numbers; base tick; spec none] the fatal alarm's time -/
  fatal : Option Nat := none
  /-- [R370; 15_random_numbers; times; spec empty] fatal alarms of the last hour, and whether one is latched -/
  fatals : List Nat := []
  /-- [R370; 15_random_numbers; 1 bit; spec 0] the fatal alarm is latched until reset -/
  latchedFatal : Bool := false
  /-- [R369; 15_random_numbers; Table 6-12 reason; spec none] why the last fatal alarm was raised -/
  fatalWhy : Nat := 0
  /-- [Tables 15-4 to 15-6; 15_random_numbers; port; spec 0] firmware's port -/
  fw : RngPort := {}
  /-- [Tables 15-4 to 15-6; 15_random_numbers; port; spec 0] the extension core's port -/
  ext : RngPort := {}
  /-- [Table 15-7; 15_random_numbers; 32 bits; spec 0] RNG_TEST -/
  test : Word := 0
  /-- [R373; 15_random_numbers; 31 bits; spec 1 for seed 0] the test-pattern register -/
  lfsr : Nat := 1
deriving DecidableEq, Repr

/-- A version of a record or counter in one copy: sequence, page, body or value bytes (R377, R378). -/
structure Ver where
  seq : Nat := 0
  page : Nat := 0
  body : Bytes := []
deriving DecidableEq, Repr

/-- A stored record's two copies (R377). A deleted record's newest version has an empty body. -/
structure StRec where
  type : Nat := 0
  key : Nat := 0
  a : Option Ver := none
  b : Option Ver := none
deriving DecidableEq, Repr

/-- A page of the store (R375, R376): area, copy, erase count, opening sequence, cells used, torn and corrected marks. -/
structure Page where
  area : Nat := 0
  copyB : Bool := false
  erases : Nat := 0
  opened : Option Nat := none
  used : Nat := 0
  torn : Bool := false
  bad : Bool := false
  retired : Bool := false
deriving DecidableEq, Repr

/-- One thing a write puts into the store: a counter value, a record body, or an emptied record. -/
inductive Item where
  | ctr (id value : Nat)
  | record (type key : Nat) (body : Bytes)
deriving DecidableEq, Repr

/-- What follows when a write commits or is deferred: who asked for it (R382). -/
inductive After where
  | nothing
  | reply (ref : CmdRef)
  | params (ref : CmdRef) (entries : List (Nat × Nat))
  | learned (ref : CmdRef) (idx id : Nat)
  | revoked (ref : CmdRef) (idx id : Nat)
  | powerTable (ref : CmdRef)
  | regRecord (ref : CmdRef)
  | pathCounter (idx value : Nat)
  | freshness (block : Nat)
  | lifecycle (ref : CmdRef) (from_ to_ : Nat) (service : Option (Nat × Nat)) (tkek cert : Option Bytes)
  | reprovision (ref : CmdRef) (from_ : Nat) (tkek : Bytes)
  | keys (ref : CmdRef) (entries : List (Nat × Nat × Bytes)) (root : Option Bytes)
  | cable (port delay : Nat)
  | logEntry
  | powerState
  | breach
  | leeCommit (id : Nat)
  | fwCounter
  | family (family : Nat)
  | repair
  | joined
  /-- the former transport setting (R89) -/
  | trial
deriving DecidableEq, Repr

/-- A queued write (R379). -/
structure Job where
  cls : Nat := 3
  items : List Item := []
  after : After := .nothing
  logOnly : Bool := false
  noVbat : Bool := false
  deferred : Bool := false
  /-- only this copy is written, as a repair does (R387): `some true` copy B -/
  copies : Option Bool := none
deriving DecidableEq, Repr

/-- A write in progress (R379): the job, whether copy A is done, and when the first cell of the present copy was begun (retained clock). -/
structure Writing where
  job : Job := {}
  aDone : Bool := false
  from_ : Nat := 0
deriving DecidableEq, Repr

/-- The record store (16_record_store). -/
structure Store where
  /-- [R375, R376; 16_record_store; 64 pages of 256 cells; DC 2 as shipped] the pages -/
  pages : List Page := Config.pageAreas.map (fun p => { area := p.1, copyB := p.2 })
  /-- [R377; 16_record_store; records; DC 2 as shipped] the records and their copies -/
  recs : List StRec := []
  /-- [R378; 16_record_store; counter slots; DC 2 as shipped] the counters and their copies; the key is the counter ID -/
  ctrs : List StRec := []
  /-- [R379; 16_record_store; 192 writes; spec empty] the write queue -/
  queue : List Job := []
  /-- [R379, R380; 16_record_store; write; spec none] the write in progress -/
  cur : Option Writing := none
  /-- [R379; 16_record_store; writes; spec none] class 3 writes paused between their copies -/
  paused : List Writing := []
  /-- [Table 6-8; 06_command_reference; 16 bits; spec 0] writes deferred since start-up -/
  deferrals : Nat := 0
  /-- [R384; 16_record_store; page; spec none] the page being erased -/
  erasing : Option Nat := none
  /-- [R386; 16_record_store; pages; spec empty] pages queued for reclaim by a scrub -/
  toReclaim : List Nat := []
  /-- [R382; 16_record_store; retained clock; model] when the deferred writes are checked again -/
  retryAt : Nat := 0
deriving DecidableEq, Repr

/-- A Tidemark timer's registers (Tables 17-2 to 17-5). -/
structure Timer where
  /-- [Table 17-2; 17_tidemark_timers; 14 bits; spec 0] CTRL but ARM and STOP -/
  ctrl : Word := 0
  /-- [Table 17-3; 17_tidemark_timers; 32 bits; spec 0] COUNT -/
  count : Word := 0
  /-- [Table 17-3; 17_tidemark_timers; 32 bits; spec 0xFFFF_FFFF] COMPARE -/
  compare : Word := 0xFFFFFFFF
  /-- [Table 17-3; 17_tidemark_timers; 32 bits; spec 0] CAPTURE -/
  capture : Word := 0
  /-- [Table 17-3; 17_tidemark_timers; 32 bits; spec 0] LOAD -/
  load : Word := 0
  /-- [Table 17-5; 17_tidemark_timers; 6 bits; spec 0] LINK -/
  link : Word := 0
  /-- [Table 17-4 RUN; 17_tidemark_timers; 1 bit; spec 0] counting -/
  run : Bool := false
  /-- [Table 17-4 MATCH; 17_tidemark_timers; 1 bit; spec 0] a match fired -/
  matched : Bool := false
  /-- [Table 17-4 END; 17_tidemark_timers; 1 bit; spec 0] the count ended -/
  ended : Bool := false
  /-- [Table 17-4 CAP; 17_tidemark_timers; 1 bit; spec 0] CAPTURE holds an unread value -/
  cap : Bool := false
  /-- [Table 17-4 OVR; 17_tidemark_timers; 1 bit; spec 0] a capture overwrote an unread value -/
  ovr : Bool := false
  /-- [Table 17-4 LATE; 17_tidemark_timers; 1 bit; spec 0] the last match fired at wake -/
  late : Bool := false
  /-- [Table 17-4 WERR; 17_tidemark_timers; 1 bit; spec 0] a write was refused -/
  werr : Bool := false
deriving DecidableEq, Repr

/-- An Auham core (18_auham_instruction_set). -/
structure Core where
  /-- [R403; 18_auham_instruction_set; 32 x 32 bits; spec 0] g0 to g31; g0 reads 0 -/
  regs : Vector Word 32 := Vector.replicate 32 0
  /-- [R404; 18_auham_instruction_set; 32 bits; DC 3 0] the address of the next instruction -/
  pc : Word := 0
  /-- [Table 18-6 OV; 18_auham_instruction_set; 1 bit; spec 0] -/
  ov : Bool := false
  /-- [Table 18-6 DZ; 18_auham_instruction_set; 1 bit; spec 0] -/
  dz : Bool := false
  /-- [Table 18-6 SAT; 18_auham_instruction_set; 1 bit; spec 0] -/
  sat : Bool := false
  /-- [Table 18-6 IE; 18_auham_instruction_set; 1 bit; spec 0] -/
  ie : Bool := false
  /-- [Table 18-6 PIE; 18_auham_instruction_set; 1 bit; spec 0] -/
  pie : Bool := false
  /-- [Table 18-6 TRAP; 18_auham_instruction_set; 1 bit; spec 0] -/
  trap : Bool := false
  /-- [Table 18-7; 18_auham_instruction_set; 32 bits; spec 0] TCAUSE -/
  tcause : Word := 0
  /-- [Table 18-9; 18_auham_instruction_set; 32 bits; spec 0] TVAL -/
  tval : Word := 0
  /-- [Table 18-9; 18_auham_instruction_set; 32 bits; spec 0] TPC -/
  tpc : Word := 0
  /-- [Table 18-9; 18_auham_instruction_set; 64 bits; spec 0] CYCLE -/
  cycle : BitVec 64 := 0
  /-- [Table 18-5 RDCYCLE; 18_auham_instruction_set; 32 bits; DC 3 0] the latched high word of CYCLE -/
  cycleHigh : Word := 0
  /-- [R411, R413; 18_auham_instruction_set; 1 bit; spec 0 for the control complex, stopped for the extension core] the core is stopped -/
  stopped : Bool := false
  /-- [Table 18-5 IDLE; 18_auham_instruction_set; 1 bit; spec 0] stalled until an interrupt is pending -/
  idle : Bool := false
  /-- [R410; 18_auham_instruction_set; interrupt lines; spec none] lines pending -/
  irq : List Nat := []
  /-- [R408; 18_auham_instruction_set; bytes by address; DC 3 an unlisted byte reads 0] the core's SRAM, rising addresses, no zero byte listed -/
  mem : List Host.Cell := []
deriving DecidableEq, Repr

/-- A plug-in slot (19_extension_core). -/
structure Slot where
  /-- [Table 6-9; 06_command_reference; code; spec empty] 0 empty, 1 loaded, 2 suspended -/
  state : Nat := 0
  traps : Nat := 0
  overruns : Nat := 0
  lastCause : Nat := 0
  times : List Nat := []
  family : Nat := 0
  version : Nat := 0
  seq : Nat := 0
  codeBase : Nat := 0
  codeSize : Nat := 0
  dataBase : Nat := 0
  dataSize : Nat := 0
  entry : Nat := 0
  events : Nat := 0
  timers : Nat := 0
  allowance : Nat := 0
  claims : List Nat := []
  image : Bytes := []
  vol : List (Option Bytes) := [none, none, none, none]
deriving DecidableEq, Repr

/-- A queued invocation (R419): slot, event code, record bytes from byte 16, tide clock at the event, receive buffer. -/
structure Invoc where
  slot : Nat := 0
  event : Nat := 0
  body : Bytes := []
  time : Nat := 0
  buffer : Option Nat := none
deriving DecidableEq, Repr

/-- The extension core's firmware side and device registers (19_extension_core). -/
structure Ext where
  /-- [R418; 19_extension_core; 4 slots; spec empty] the plug-in slots -/
  slots : List Slot := List.replicate 4 {}
  /-- [R419; 19_extension_core; 16 invocations; spec empty] the invocation queue -/
  queue : List Invoc := []
  /-- [R419; 19_extension_core; invocation; spec none] the running invocation -/
  cur : Option Invoc := none
  /-- [R419; 19_extension_core; 2 bits; spec none] slot of the previous invocation -/
  prevSlot : Option Nat := none
  /-- [Table 19-8 EXT_LEFT; 19_extension_core; 32 bits; spec 0x0006_1A80] CORE clocks left in the budget -/
  left : Nat := 400000
  /-- [R422; 19_extension_core; list; spec empty] service requests handed over by SRVC, not yet served -/
  requests : List Bytes := []
  /-- [R424; 19_extension_core; step; spec none] the slot holding a step, its answer frame serial, token and end -/
  step : Option (Nat × Nat × Nat × Nat) := none
  /-- [R426; 19_extension_core; 16 bits; spec 0] next frame serial -/
  serial : Nat := 0
  /-- [R426; 19_extension_core; 16 buffers; spec free] receive buffers in use -/
  rxUsed : List Nat := []
  /-- [R426; 19_extension_core; 16 buffers; spec free] transmit buffers reserved, by slot -/
  txUsed : List (Nat × Nat) := []
  /-- [R423; 19_extension_core; list; spec empty] plug-in frames of the path: serial, slot of arrival, poll, offset us; 255, 255 and the sync-word end for one outside a window -/
  frames : List (Nat × Nat × Nat × Int) := []
  /-- [Table 19-6; 19_extension_core; 32 bits; spec 0] FX_LOOKUP_ID -/
  fxId : Word := 0
  /-- [Table 19-7; 19_extension_core; 16 bits; spec 0] AES_HANDLE -/
  aesHandle : Nat := 0
  /-- [Table 19-7; 19_extension_core; 32 bits; spec 0] AES_SRC -/
  aesSrc : Word := 0
  /-- [Table 19-7; 19_extension_core; 12 bits; spec 0] AES_LEN -/
  aesLen : Nat := 0
  /-- [Table 19-7; 19_extension_core; 32 bits; spec 0] AES_DST -/
  aesDst : Word := 0
  /-- [Table 19-7; 19_extension_core; 1 bit; spec 0] BUSY -/
  aesBusy : Bool := false
  /-- [R427; 19_extension_core; result; model] the result of the operation in progress, the volatile key it is for or none for
  memory, the address and the slot -/
  aesOut : Option (Bytes × Option Nat × Nat × Nat) := none
  /-- [Table 19-7; 19_extension_core; 3 bits; spec 0] ERR -/
  aesErr : Nat := 0
  /-- [R428; 19_extension_core; slots; spec empty] loads and unloads applied after the running invocation ends: slot, new contents, command -/
  pendLoad : List (Nat × Slot × Option CmdRef) := []
deriving DecidableEq, Repr

/-- A session as Headland mirrors it (Table 20-5): `ends` are its doors' end ticks in rising order of door, or the start session's one. -/
structure MirSession where
  id : Nat := 0
  start : Bool := false
  transponder : Bool := false
  doors : Nat := 0
  token : Nat := 0
  ends : List Nat := []
deriving DecidableEq, Repr

/-- The pair (20_redundant_pair). -/
structure Pair where
  /-- [Table 6-2; 06_command_reference; code; spec single until the strap is sampled] the role -/
  role : Role := .single
  /-- [Table 6-8; 06_command_reference; code; spec 0 absent] partner 0 absent, 1 linked, 2 joining -/
  partner : Nat := 0
  /-- [R434; 20_redundant_pair; 1 bit; spec 0] the lanes are locked -/
  locked : Bool := false
  /-- [R434; 20_redundant_pair; 1 bit; spec 0] the link is up with keys -/
  up : Bool := false
  /-- [R435; 20_redundant_pair; version; spec 0] Causeway version selected -/
  version : Nat := 0
  /-- [R434; 20_redundant_pair; 128 bits; spec none] nonce of the negotiate block sent -/
  nonce : Option Bytes := none
  /-- [R434; 20_redundant_pair; 256 and 32 bits; spec none] K_link and salt -/
  link : Option Chan := none
  /-- [R433; 20_redundant_pair; 32 bits; spec 0] next sequence to send, and next expected -/
  tx : Nat := 0
  /-- [R433; 20_redundant_pair; 32 bits; spec 0] next sequence expected -/
  rx : Nat := 0
  /-- [R433; 20_redundant_pair; 256 blocks of 64 bytes; spec empty] the last blocks sent, as they stand on the lanes: sequence, block -/
  sent : List (Nat × Bytes) := []
  /-- [R434; 20_redundant_pair; 128 bits; spec none] partner's serial -/
  serial : Option Bytes := none
  /-- [R436; 20_redundant_pair; base tick; spec none] since when this member is Headland -/
  headFrom : Option Nat := none
  /-- [R445; 20_redundant_pair; count; spec 0] heartbeats missed in a row -/
  missed : Nat := 0
  /-- [R445; 20_redundant_pair; count; spec 0] heartbeats missed since the last one arrived -/
  misses : Nat := 0
  /-- [R445; 20_redundant_pair; base tick; model] last heartbeat arrival -/
  lastBeat : Nat := 0
  /-- [R445; 20_redundant_pair; base tick; model] last heartbeat sent -/
  lastSent : Nat := 0
  /-- [R445; 20_redundant_pair; values; spec none] partner's temperature, power state and fault class from its last heartbeat -/
  beat : Int × Nat × Nat := (0, 2, 255)
  /-- [R445; 20_redundant_pair; base tick; model] the partner's base tick as its last heartbeat carried it -/
  beatTick : Nat := 0
  /-- [R452; 20_redundant_pair; 1 bit; spec 0] the partner meets R65 -/
  neapOk : Bool := false
  /-- [R442; 20_redundant_pair; sequence; spec 0] last mirror transaction sent and last acknowledged -/
  mirrorTx : Nat := 0
  /-- [R442; 20_redundant_pair; sequence; spec 0] last mirror transaction acknowledged by the partner -/
  mirrorAck : Nat := 0
  /-- [R442; 20_redundant_pair; sequence; spec 0] last mirror transaction applied here -/
  mirrorRx : Nat := 0
  /-- [R442; 20_redundant_pair; items; spec empty] items of a transaction not wholly received -/
  partial_ : List MirrorItem := []
  /-- [Table 6-8; 06_command_reference; bytes; spec 0] mirror backlog: (sequence, bytes) -/
  backlog : List (Nat × Nat) := []
  /-- [R389; 16_record_store; requests; spec empty] commits of a path not yet committed on both members: counter, value, time, and 0 asked, 1 own copy done,
  2 acknowledged, 3 failed -/
  commits : List (Nat × Nat × Nat × Nat) := []
  /-- [R448; 20_redundant_pair; commands; spec empty] mirrored commands without a response -/
  mirrored : List (Nat × QCmd) := []
  /-- [R441, R448; 20_redundant_pair; commands; spec empty] pair mailbox commands that Lee has decoded and that are not mirrored yet -/
  heard : List (Nat × QCmd) := []
  /-- [R448; 20_redundant_pair; responses; spec empty] mirrored responses -/
  responses : List OutFrame := []
  /-- [R28, R442; 20_redundant_pair; path; spec none] mirrored path state: its point, and the path in this member's ticks -/
  path : Option (Nat × Path) := none
  /-- [R442; 20_redundant_pair; sessions; spec empty] mirrored sessions -/
  sessions : List MirSession := []
  /-- [R442, R444; 20_redundant_pair; records; spec empty] mirrored host ring records not acknowledged -/
  ring : List EvRec := []
  /-- [R448; 20_redundant_pair; commands; spec empty] mirrored commands answered `ST_ACCEPTED` whose completion is not mirrored -/
  accepted : List (Nat × QCmd) := []
  /-- [R123, R448; 20_redundant_pair; tags; spec empty] taken-over commands, whose responses carry `TAKEOVER` -/
  taken : List Nat := []
  /-- [R438, R454; 20_redundant_pair; mirror sequence and base tick; spec none] a state transfer under way: its sequence, its start -/
  transfer : Option (Nat × Nat) := none
  /-- [R454 step 3; 20_redundant_pair; nonce; spec none] an attestation request that waits for the SLH-DSA sequencer -/
  reportDue : Option Bytes := none
  /-- [R273, R442; 20_redundant_pair; block; spec none] mirrored freshness block -/
  freshness : Option Nat := none
  /-- [R438; 20_redundant_pair; 1 bit; spec 0] the join has completed -/
  joined : Bool := false
  /-- [R454; 20_redundant_pair; command; spec none] PAIR_ADMIT under way: command, start tick, nonce, stage -/
  admission : Option (CmdRef × Nat × Bytes × Nat) := none
  /-- [R451; 20_redundant_pair; command; spec none] PAIR_SWITCHOVER under way: command and start tick -/
  switch_ : Option (CmdRef × Nat) := none
  /-- [Table 6-8; 06_command_reference; 16 bits; spec 0] takeovers since start-up -/
  takeovers : Nat := 0
  /-- [R446, R456; 20_redundant_pair; level and base tick; spec 0] pair-alive output level and the last toggle seen on the input -/
  alive : Bool × Nat := (false, 0)
  /-- [R64; 20_redundant_pair; base tick; model] last toggle of the pair-alive output -/
  aliveOut : Nat := 0
deriving DecidableEq, Repr

/-- A CAN controller or LIN channel (22_vehicle_buses). -/
structure Bus where
  /-- [Table 6-9; 06_command_reference; code; spec off] state 0 off, 1 active, 2 error passive, 3 bus off -/
  state : Nat := 0
  /-- [Table 22-2; 22_vehicle_buses; kinds; spec 0] the fault kinds that stand, bit k for kind k -/
  kinds : Nat := 0
  tec : Nat := 0
  rec_ : Nat := 0
  offs : List Nat := []
  clean : Nat := 0
  delayed : Bool := false
deriving DecidableEq, Repr

/-- A LIN node's last STATUS (R487, R488). -/
structure LinNode where
  bus : Nat := 1
  node : Nat := 1
  version : Option Nat := none
  doorOpen : Bool := false
  pulled : Bool := false
  missed : Nat := 0
  silent : Bool := false
  /-- answered polls in a row while silent (R484) -/
  heard : Nat := 0
  /-- base tick of its last poll (R485) -/
  polledAt : Option Nat := none
deriving DecidableEq, Repr

/-- A general-purpose pin (R490, Table 2-5). -/
structure Pin where
  function : Nat := 0
  dir : Nat := 0
  pull : Nat := 1
  out : Bool := false
  level : Bool := false
deriving DecidableEq, Repr

/-- Buses and pins (22_vehicle_buses). -/
structure Buses where
  /-- [R479; 22_vehicle_buses; 2 controllers and 4 channels; spec off] CAN1, CAN2, LIN1-LIN4 -/
  bus : List Bus := List.replicate 6 {}
  /-- [R482; 22_vehicle_buses; 16 bits; DC 3 0] door status bits -/
  doorBits : Nat := 0
  /-- [R482; 22_vehicle_buses; base tick; model] last door status frame -/
  doorAt : Nat := 0
  /-- [R262, R482; 11_release; 1 bit; spec 0] a door status frame has been read, so that the bits are known -/
  doorSeen : Bool := false
  /-- [R487; 22_vehicle_buses; nodes; spec none] LIN nodes heard or polled -/
  nodes : List LinNode := []
  /-- [R490; 22_vehicle_buses; 8 pins; spec input with pull-down] the general-purpose pins -/
  pins : List Pin := List.replicate 8 {}
  /-- [Table 4-2; 04_clocks_and_ordering; 8 frames per controller; spec empty] the transmit queues of the CAN controllers -/
  canTx : List CanFrame := []
  /-- [R79; 04_clocks_and_ordering; frames; model] frames that wait for room in those queues, in their order -/
  canWait : List CanFrame := []
  /-- [R486; 22_vehicle_buses; frames; spec empty] the newest LIN commands sent: bus and data -/
  linTx : List (Nat × Bytes) := []
  /-- [R485; 22_vehicle_buses; base tick; spec none] until when a LIN status poll is on its bus -/
  pollEnd : Option Nat := none
  /-- [R276; 11_release; 2 counts; spec 0] ENGINE_STATUS frames rejected on CAN1 and CAN2 -/
  rejected : Nat × Nat := (0, 0)
deriving DecidableEq, Repr

/-- An erosion instance (R475). -/
structure Erode where
  /-- [Table 21-7; 21_faults; 1-8; model] item -/
  item : Nat := 0
  /-- [Table 21-7; 21_faults; instance; model] instance -/
  inst : Nat := 0
  /-- [R475; 21_faults; value; spec none] first value -/
  first : Int := 0
  /-- [R475; 21_faults; count; spec 0] samples -/
  n : Nat := 0
  /-- [R475; 21_faults; sum; spec 0] sum of t in hours -/
  sumT : Int := 0
  /-- [R475; 21_faults; sum; spec 0] sum of x -/
  sumX : Int := 0
  /-- [R475; 21_faults; sum; spec 0] sum of t squared -/
  sumTT : Int := 0
  /-- [R475; 21_faults; sum; spec 0] sum of t x -/
  sumTX : Int := 0
  /-- [R475; 21_faults; sum; spec 0] sum of x squared -/
  sumXX : Int := 0
  /-- [R475; 21_faults; hours; spec none] time of the last sample -/
  lastT : Nat := 0
  /-- [R475; 21_faults; hours; spec none] time of the first sample -/
  firstT : Nat := 0
  /-- [R474; 21_faults; value; spec none] present value reported -/
  present : Int := 0
  /-- [R475; 21_faults; months; spec 0xFFFF] months remaining -/
  months : Nat := 0xFFFF
  /-- [R475; 21_faults; months; spec 0xFFFF] lower band -/
  low : Nat := 0xFFFF
  /-- [R475; 21_faults; months; spec 0xFFFF] upper band -/
  high : Nat := 0xFFFF
  /-- [R475; 21_faults; percent; spec 0] confidence -/
  conf : Nat := 0
  /-- [R476; 21_faults; 1 bit; spec 0] the warning stands -/
  warned : Bool := false
  /-- [R475; 21_faults; sum; spec 0] sum of the day's measurements; for start outputs the energisations counted -/
  acc : Int := 0
  /-- [R475; 21_faults; count; spec 0] the day's measurements -/
  accN : Nat := 0
  /-- [Table 21-7; 21_faults; list; spec empty] the tokens that the period's crystal offset was measured with -/
  toks : List Nat := []
deriving DecidableEq, Repr

/-- A SOUNDING_RUN under way (R473): its command, the parts asked for, those still running, those that failed, the feeder's length. -/
structure SoundRun where
  ref : CmdRef := {}
  mask : Nat := 0
  left : Nat := 0
  failed : Nat := 0
  feederCm : Nat := 0xFFFF
deriving DecidableEq, Repr

/-- The state of the ITF48. -/
structure State where
  /-- [model; INVENTORY Instructions; commands; spec empty] the commands that wait, first in, first out -/
  pending : List Instr := []
  /-- [04_clocks_and_ordering; R73-R83; group; see Clk] clocks -/
  clk : Clk := {}
  /-- [03_power_and_startup; R48-R72; group; see Pwr] supplies, power states, resets -/
  pwr : Pwr := {}
  /-- [21_faults; R463-R472; group; see Evt] event paths -/
  evt : Evt := {}
  /-- [21_faults; R457-R460; group; see Flt] fault handling -/
  flt : Flt := {}
  /-- [06_command_reference; R131-R133; group; see Par] parameters -/
  par : Par := {}
  /-- [05_host_mailbox; R88-R123; group; see Mbx] the pair mailbox, the only one in single operation -/
  mbx : Mbx := {}
  /-- [R439; 20_redundant_pair; group; see Mbx] the member mailbox -/
  mmb : Mbx := {}
  /-- [R122; 05_host_mailbox; 1 bit; spec 0] the retained SRAM's note that the channel was open, for the pair and the member mailbox -/
  wasOpen : Bool × Bool := (false, false)
  /-- [07_lf_field_engine; R142-R175; group; see Lf] LF field engine -/
  lf : Lf := {}
  /-- [08_field_synthesis; R176-R199; group; see Zon] synthesis and zones -/
  zon : Zon := {}
  /-- [R19, R130; 01_architecture; 8 paths; spec empty] queued paths -/
  paths : List PathReq := []
  /-- [R19; 01_architecture; path; spec none] the path in progress -/
  path : Option Path := none
  /-- [Table 6-6; 06_command_reference; index and tide clock; spec none since start-up] last authentication of each token -/
  lastAuth : List (Nat × Nat) := []
  /-- [R201; 09_tideway_protocol; index and version; spec none] raised Tideway versions whose write has not committed -/
  raised : List (Nat × Nat) := []
  /-- [R224, R225; 09_tideway_protocol; index, counter, sequence of EV_TOKEN_AUTH, far ahead; spec none] path counters whose commit is awaited -/
  awaited : List (Nat × Nat × Nat × Bool) := []
  /-- [10_ranging; R233-R257; group; see Uwb] UWB -/
  uwb : Uwb := {}
  /-- [11_release; R258-R286; group; see Rel] release -/
  rel : Rel := {}
  /-- [12_sub_ghz_radio; R287-R317; group; see Rad] sub-GHz radio -/
  rad : Rad := {}
  /-- [13_capacitive_sensing; R318-R330; group; see Sen] sensing -/
  sen : Sen := {}
  /-- [14_security; R331-R357; group; see Sec] security -/
  sec : Sec := {}
  /-- [15_random_numbers; R358-R374; group; see Rng] random numbers -/
  rng : Rng := {}
  /-- [16_record_store; R375-R390; group; see Store] record store -/
  store : Store := Config.shippedStore.foldl (fun t r =>
    if r.1 then { t with ctrs := t.ctrs ++ [{ type := 0x8000, key := r.2.1, a := some ⟨1, 16, r.2.2.2⟩, b := some ⟨1, 24, r.2.2.2⟩ }] }
    else { t with recs := t.recs ++ [{ type := r.2.1, key := r.2.2.1, a := some ⟨1, 32, r.2.2.2⟩, b := some ⟨1, 46, r.2.2.2⟩ }] }) {}
  /-- [17_tidemark_timers; R391-R402; 24 timers; see Timer] timers T0-T23 -/
  timers : List Timer := List.replicate 24 {}
  /-- [18_auham_instruction_set; R403-R415; core; see Core] the control complex -/
  cc : Core := {}
  /-- [18_auham_instruction_set; R403-R415; core; see Core] the extension core -/
  xc : Core := { stopped := true }
  /-- [19_extension_core; R416-R428; group; see Ext] plug-ins -/
  ext : Ext := {}
  /-- [20_redundant_pair; R429-R456; group; see Pair] the pair -/
  pair : Pair := {}
  /-- [22_vehicle_buses; R479-R493; group; see Buses] buses and pins -/
  bus : Buses := {}
  /-- [R474, R475; 21_faults; instances; spec none sampled] erosion history, also in the record store -/
  ero : List Erode := []
  /-- [R475; 21_faults; time without OFF in us; DC 3 0] the last daily sample -/
  eroAt : Nat := 0
  /-- [R473; 21_faults_events_and_erosion; run; spec none] the SOUNDING_RUN under way -/
  soundRun : Option SoundRun := none
  /-- [model; free values; counter; DC 8 0] how many free values the model has drawn -/
  free : Nat := 0
deriving DecidableEq, Repr

/-- The machine right after reset: unpowered, as shipped (log entry 2), with every field at the value its docstring names. -/
def State.reset : State := {}

end Sys2Proof.Machine
end

