-- ==== Sys2Proof/Machine/Flags.lean ====
section
/-! DEFINITION. Results and sticky bits of the Auham operations (R406, R407, Table 18-8). -/

namespace Sys2Proof.Machine
open Sys2Proof

/-- The sticky bits that an operation sets. -/
structure Sticky where
  ov : Bool := false
  dz : Bool := false
  sat : Bool := false
deriving DecidableEq, Repr

/-- Sets sticky bits; none is cleared (R406). -/
def Core.stick (k : Core) (x : Sticky) : Core := { k with ov := k.ov || x.ov, dz := k.dz || x.dz, sat := k.sat || x.sat }

/-- An exact result narrowed to 32 bits with saturation (Table 18-8). -/
def saturate (z : Int) : Word × Sticky :=
  if z > 2147483647 then (0x7FFFFFFF, { sat := true })
  else if z < -2147483648 then (0x80000000, { sat := true })
  else (BitVec.ofInt 32 z, {})
/-- A truth value as a register holds it. -/
def flag (b : Bool) : Word := if b then 1 else 0
/-- Left shift by a whole register (R407). -/
def shl (a b : Word) : Word := if b.toNat ≥ 32 then 0 else a <<< b.toNat
/-- Right shift with zero fill. -/
def shr (a b : Word) : Word := if b.toNat ≥ 32 then 0 else a >>> b.toNat
/-- Right shift with sign fill. -/
def sar (a b : Word) : Word := a.sshiftRight (min 31 b.toNat)
/-- DIVS: rounded towards zero. -/
def divS (a b : Word) : Word × Sticky :=
  if b = 0 then (0xFFFFFFFF, { dz := true })
  else if a = 0x80000000 ∧ b = 0xFFFFFFFF then (0x80000000, { ov := true })
  else (BitVec.ofInt 32 (a.toInt.tdiv b.toInt), {})
/-- DIVU. -/
def divU (a b : Word) : Word × Sticky := if b = 0 then (0xFFFFFFFF, { dz := true }) else (BitVec.ofNat 32 (a.toNat / b.toNat), {})
/-- REMS: the sign of the dividend. -/
def remS (a b : Word) : Word × Sticky :=
  if b = 0 then (a, { dz := true })
  else if a = 0x80000000 ∧ b = 0xFFFFFFFF then (0, { ov := true })
  else (BitVec.ofInt 32 (a.toInt.tmod b.toInt), {})
/-- REMU. -/
def remU (a b : Word) : Word × Sticky := if b = 0 then (a, { dz := true }) else (BitVec.ofNat 32 (a.toNat % b.toNat), {})
/-- MULHS: the high word of the signed product. -/
def mulHS (a b : Word) : Word := BitVec.ofInt 32 (a.toInt * b.toInt / 4294967296)
/-- MULHU: the high word of the unsigned product. -/
def mulHU (a b : Word) : Word := BitVec.ofNat 32 (a.toNat * b.toNat / 4294967296)

end Sys2Proof.Machine
end

