-- ==== Sys2Proof/WellFormed.lean ====
section
/-! DEFINITION. Which commands are well formed: their operands lie in the ranges that the manual gives what they name. A command
whose operands lie outside changes nothing when it is carried out. -/

namespace Sys2Proof

/-- A mailbox command arrives on one of lanes 0 to 6, with a `TAG` of one byte and at most 1024 bytes (Tables 5-5 and 5-10). -/
def MbxCmd.wf (m : MbxCmd) : Bool := m.lane ≤ 6 && m.tag < 256 && m.payload.length ≤ 1024
/-- A supply group is 0 to 3 (R33). -/
def Monitor.wf : Monitor → Bool
  | .vlfValid g | .vlfOv g => g < 4
  | .vbatFull | .vbatOv | .vrelValid | .vddioValid => true
/-- A register of the register maps: T0 to T23 (R391), a word offset within its block. -/
def RegAddr.wf : RegAddr → Bool
  | .timer n off => n < 24 && off < 0x20 && off % 4 == 0
  | .rng _ off => off < 0x100 && off % 4 == 0
  | .fx off | .coreCtl off => off < 0x0C && off % 4 == 0
  | .aes off => off < 0x18 && off % 4 == 0
/-- An LF channel, 1 to 48 (R142). -/
def chanOk (c : Nat) : Bool := 1 ≤ c && c ≤ 48

/-- The check. -/
def Instr.wf : Instr → Bool
  | .supplyMonitorCrossing m _ => m.wf
  | .overvoltageTrip g _ => g ≤ 4
  | .railFault r _ => r < 5
  | .seqGapHoldoffEnd _ l => l ≤ 7
  | .ctlResend _ _ l _ => l < 256
  | .isotpConsecutiveFrame _ sn _ => sn < 16
  | .hello m | .caps m | .ping m | .secureOpen m | .secureConfirm m | .sysStatus m | .powerRequest m | .resetCause m | .sysReset m
  | .paramGet m | .paramSet m | .strandedExit m | .faultList m | .lfBurst m _ | .lfChannelStatus m | .lfChannelEnable m _
  | .lfSounding m | .zoneWrite m | .zoneRead m | .synthGroupWrite m | .couplingRead m | .zoneState m | .tokenLearn m
  | .tokenRevoke m | .tokenRead m | .uwbPortStatus m | .uwbReflectometry m | .rangingStatus m | .pathStart m | .sessionEnd m
  | .sessionStatus m | .transponderStart m | .startWithdraw m | .doorMapWrite m | .radioStatus m | .powerTableWrite m
  | .regRecordWrite m | .regRecordRead m | .radioCalRun m | .radioTestTx m _ | .senseStatus m | .wakeMapWrite m | .contactStatus m
  | .senseRebase m | .evtFetch m | .logRead m | .logCheckpoint m | .storeStatus m | .stageWrite m | .fwActivate m | .grantApply m
  | .attest m | .objectRead m | .tamperStatus m | .tamperMapWrite m | .pairStatus m | .pairSwitchover m | .pairAdmit m
  | .pluginLoad m | .pluginUnload m | .extStatus m | .soundingRun m | .erosionRead m | .busStatus m | .gpioConfig m
  | .gpioWrite m | .gpioRead m => m.wf
  | .lfDriveFault c b => chanOk c && b < 8
  | .soundingChannelDone c _ _ _ _ | .autoSounding c => chanOk c
  | .keepFreshRefresh g _ => g < 16
  | .locatePoll p _ => p < 32
  | .rangingRoundStart _ p | .reflectometryAuto p | .reflectometryPortDone p _ _ => 1 ≤ p && p ≤ 4
  | .doorTimeout d _ => d < 16
  | .gpioPulseEnd p => p < 8
  | .releaseFrameTimeout b => 1 ≤ b && b ≤ 2
  | .confirmConversion c v => c < 16 && v ≤ 65535
  | .scan convs eol _ _ => convs.all (fun k => k.chan < 16 && k.counts.all (· ≤ 65535)) && eol.all (fun e => 1 ≤ e.input && e.input ≤ 8)
  | .baselineDrift c | .maxTouchExpiry c => c < 16
  | .contactChange i _ => 1 ≤ i && i ≤ 8
  | .stuckTimeout i => 1 ≤ i && i ≤ 9
  | .canWake b _ => 1 ≤ b && b ≤ 2
  | .linWake b | .linStatusPoll b _ | .linStatus b _ _ => 1 ≤ b && b ≤ 4
  | .tamperTrip n | .tamperHoldEnd n | .tamperSensorClear n => n < 12
  | .rngStartupTestPass n => n == 1 || n == 2
  | .rngHealthFail n t => (n == 1 || n == 2) && 1 ≤ t && t ≤ 3
  | .rngBlockReady n b => (n == 1 || n == 2) && b.length == 256
  | .reclaim a _ => 1 ≤ a && a ≤ 3
  | .pageEraseDone p _ => p < 64
  | .timerArm n | .timerStop n | .timerCompareWrite n _ | .timerCaptureRead n | .timerMatch n _ _ | .timerEnd n _ | .timerCapture n _ _ => n < 24
  | .registerWrite a _ => a.wf
  | .slli _ _ _ i | .srli _ _ _ i | .srai _ _ _ i => i.toNat < 32
  | .tret c | .idle c | .rdcause c _ | .rdtval c _ | .rdtpc c _ | .wrtpc c _ => c == .cc
  | .interrupt l => l < 256
  | .transmitRequest b n _ => b < 16 && 1 ≤ n && n ≤ 8
  | .aesCmacDkey k => k < 4
  | .recordToHostRing n => n < 20
  | .signalLineFault l _ _ => l < 4
  | .busOff b | .busRecovered b => 1 ≤ b && b ≤ 2
  | .busFault b k _ => b < 6 && 1 ≤ k && k ≤ 5
  | _ => true

end Sys2Proof
end

