-- ==== Sys2Proof/Decode.lean ====
section
/-! DEFINITION. Decoding. The rows of the opcode table give no bits, so no word spells a command of the block. The Auham
instructions that the two cores carry out have words of their own (R404, Tables 18-2 to 18-5): which words are legal (R405), and
each instruction's word. -/

namespace Sys2Proof

/-- The command that a word spells by the table's bits: the table gives none. -/
def decodeTableWord (_nbits _w : Nat) : Option Instr := none

/-- The register in bits `lo` to `lo + 4`. -/
def regAt (lo : Nat) (w : Word) : Reg := (w.extractLsb' lo 5).toFin
/-- A register as its field. -/
def regBits (r : Reg) : BitVec 5 := BitVec.ofFin r

/-- Form Register (Table 18-2). -/
def formR (gd ga gb : Reg) (fn : BitVec 11) (major : BitVec 6) : Word := regBits gd ++ regBits ga ++ regBits gb ++ fn ++ major
/-- Forms Immediate, Store and Branch. -/
def formI (a b : Reg) (imm : BitVec 16) (major : BitVec 6) : Word := regBits a ++ regBits b ++ imm ++ major
/-- Forms Upper and Jump. -/
def formU (gd : Reg) (imm : BitVec 21) (major : BitVec 6) : Word := regBits gd ++ imm ++ major

/-- The function values of major opcode 0x01 (Table 18-4). -/
def functions : List Nat :=
  [0x000, 0x001, 0x002, 0x003, 0x004, 0x005, 0x006, 0x007, 0x008, 0x009, 0x00A, 0x010, 0x011, 0x012, 0x020, 0x021, 0x022, 0x028, 0x029,
   0x02A, 0x02B]
/-- The other major opcodes of Table 18-3, but for the shifts and the system functions. -/
def majors : List Nat :=
  [0x04, 0x05, 0x06, 0x07, 0x08, 0x09, 0x10, 0x11, 0x14, 0x15, 0x16, 0x17, 0x18, 0x1C, 0x1D, 0x1E, 0x20, 0x21, 0x22, 0x23, 0x24, 0x25,
   0x28, 0x29]

/-- The word is a legal instruction on a core (R405, Tables 18-3 to 18-5): a listed opcode and function, the fields marked zero at
zero, and none of the six system functions that the extension core lacks. -/
def auhamLegal (c : CoreId) (w : Word) : Bool :=
  let gd := regAt 27 w
  let ga := regAt 22 w
  let gb := regAt 17 w
  let fn := (w.extractLsb' 6 11).toNat
  match (w.extractLsb' 0 6).toNat with
  | 0x01 => functions.contains fn && (!(fn == 0x00A || fn == 0x012) || gb == 0)
  | 0x0A | 0x0B | 0x0C => (w.extractLsb' 6 16).toNat < 32
  | 0x30 => gb == 0 && (match fn with
    | 0x000 | 0x001 => gd == 0 && ga == 0
    | 0x002 | 0x003 => c == .cc && gd == 0 && ga == 0
    | 0x010 | 0x016 | 0x017 => ga == 0
    | 0x011 => gd == 0
    | 0x012 | 0x013 | 0x014 => c == .cc && ga == 0
    | 0x015 => c == .cc && gd == 0
    | _ => false)
  | m => majors.contains m

/-- The word of an Auham instruction (Tables 18-2 to 18-5); `none` for any other command. -/
def auhamWord : Instr → Option Word
  | .addi _ gd ga i => some (formI gd ga i 0x04) | .andi _ gd ga i => some (formI gd ga i 0x05)
  | .ori _ gd ga i => some (formI gd ga i 0x06) | .xori _ gd ga i => some (formI gd ga i 0x07)
  | .cmplti _ gd ga i => some (formI gd ga i 0x08) | .cmpltiu _ gd ga i => some (formI gd ga i 0x09)
  | .slli _ gd ga i => some (formI gd ga i 0x0A) | .srli _ gd ga i => some (formI gd ga i 0x0B)
  | .srai _ gd ga i => some (formI gd ga i 0x0C)
  | .movu _ gd i => some (formU gd i 0x10) | .leapc _ gd i => some (formU gd i 0x11)
  | .lb _ gd ga i => some (formI gd ga i 0x14) | .lbu _ gd ga i => some (formI gd ga i 0x15)
  | .lh _ gd ga i => some (formI gd ga i 0x16) | .lhu _ gd ga i => some (formI gd ga i 0x17)
  | .lw _ gd ga i _ => some (formI gd ga i 0x18)
  | .sb _ d b i => some (formI d b i 0x1C) | .sh _ d b i => some (formI d b i 0x1D) | .sw _ d b i _ => some (formI d b i 0x1E)
  | .beq _ a b o => some (formI a b o 0x20) | .bne _ a b o => some (formI a b o 0x21) | .blt _ a b o => some (formI a b o 0x22)
  | .bge _ a b o => some (formI a b o 0x23) | .bltu _ a b o => some (formI a b o 0x24) | .bgeu _ a b o => some (formI a b o 0x25)
  | .jlnk _ gd o => some (formU gd o 0x28) | .jlnkr _ gd ga i => some (formI gd ga i 0x29)
  | .add _ gd ga gb _ => some (formR gd ga gb 0x000 0x01) | .sub _ gd ga gb => some (formR gd ga gb 0x001 0x01)
  | .and _ gd ga gb => some (formR gd ga gb 0x002 0x01) | .or _ gd ga gb => some (formR gd ga gb 0x003 0x01)
  | .xor _ gd ga gb => some (formR gd ga gb 0x004 0x01) | .sll _ gd ga gb => some (formR gd ga gb 0x005 0x01)
  | .srl _ gd ga gb => some (formR gd ga gb 0x006 0x01) | .sra _ gd ga gb => some (formR gd ga gb 0x007 0x01)
  | .cmplt _ gd ga gb => some (formR gd ga gb 0x008 0x01) | .cmpltu _ gd ga gb => some (formR gd ga gb 0x009 0x01)
  | .neg _ gd ga => some (formR gd ga 0 0x00A 0x01)
  | .addsat _ gd ga gb => some (formR gd ga gb 0x010 0x01) | .subsat _ gd ga gb => some (formR gd ga gb 0x011 0x01)
  | .negsat _ gd ga => some (formR gd ga 0 0x012 0x01)
  | .mul _ gd ga gb => some (formR gd ga gb 0x020 0x01) | .mulhs _ gd ga gb => some (formR gd ga gb 0x021 0x01)
  | .mulhu _ gd ga gb => some (formR gd ga gb 0x022 0x01)
  | .divs _ gd ga gb => some (formR gd ga gb 0x028 0x01) | .divu _ gd ga gb => some (formR gd ga gb 0x029 0x01)
  | .rems _ gd ga gb => some (formR gd ga gb 0x02A 0x01) | .remu _ gd ga gb => some (formR gd ga gb 0x02B 0x01)
  | .srvc _ => some (formR 0 0 0 0x000 0x30) | .brkpt _ => some (formR 0 0 0 0x001 0x30)
  | .tret _ => some (formR 0 0 0 0x002 0x30) | .idle _ => some (formR 0 0 0 0x003 0x30)
  | .rdstatus _ gd => some (formR gd 0 0 0x010 0x30) | .wrstatus _ ga => some (formR 0 ga 0 0x011 0x30)
  | .rdcause _ gd => some (formR gd 0 0 0x012 0x30) | .rdtval _ gd => some (formR gd 0 0 0x013 0x30)
  | .rdtpc _ gd => some (formR gd 0 0 0x014 0x30) | .wrtpc _ ga => some (formR 0 ga 0 0x015 0x30)
  | .rdcycle _ gd => some (formR gd 0 0 0x016 0x30) | .rdcycleh _ gd => some (formR gd 0 0 0x017 0x30)
  | _ => none

/-- The core that an Auham instruction runs on; `none` for any other command. -/
def auhamCore : Instr → Option CoreId
  | .addi c _ _ _ | .andi c _ _ _ | .ori c _ _ _ | .xori c _ _ _ | .cmplti c _ _ _ | .cmpltiu c _ _ _ | .slli c _ _ _ | .srli c _ _ _
  | .srai c _ _ _ | .movu c _ _ | .leapc c _ _ | .lb c _ _ _ | .lbu c _ _ _ | .lh c _ _ _ | .lhu c _ _ _ | .lw c _ _ _ _ | .sb c _ _ _
  | .sh c _ _ _ | .sw c _ _ _ _ | .beq c _ _ _ | .bne c _ _ _ | .blt c _ _ _ | .bge c _ _ _ | .bltu c _ _ _ | .bgeu c _ _ _
  | .jlnk c _ _ | .jlnkr c _ _ _ | .add c _ _ _ _ | .sub c _ _ _ | .and c _ _ _ | .or c _ _ _ | .xor c _ _ _ | .sll c _ _ _
  | .srl c _ _ _ | .sra c _ _ _ | .cmplt c _ _ _ | .cmpltu c _ _ _ | .neg c _ _ | .addsat c _ _ _ | .subsat c _ _ _ | .negsat c _ _
  | .mul c _ _ _ | .mulhs c _ _ _ | .mulhu c _ _ _ | .divs c _ _ _ | .divu c _ _ _ | .rems c _ _ _ | .remu c _ _ _ | .srvc c
  | .brkpt c | .tret c | .idle c | .rdstatus c _ | .wrstatus c _ | .rdcause c _ | .rdtval c _ | .rdtpc c _ | .wrtpc c _
  | .rdcycle c _ | .rdcycleh c _ => some c
  | _ => none

/-- How far the second lockstep core's result or address is off (R414): an operand of ADD, LW and SW that the word does not spell. -/
def secondCore : Instr → Word
  | .add _ _ _ _ x | .lw _ _ _ _ x | .sw _ _ _ _ x => x
  | _ => 0

end Sys2Proof
end

