-- ==== Sys2Proof/Machine/Codes.lean ====
section
/-! DEFINITION. The status codes of Table 6-10 and the event codes of Table 6-12 (06_command_reference). -/

namespace Sys2Proof.Machine

/-- `ST_OK` (Table 6-10). -/
abbrev stOk : Nat := 0x00
/-- `ST_ACCEPTED` (Table 6-10). -/
abbrev stAccepted : Nat := 0x01
/-- `ST_BUSY` (Table 6-10). -/
abbrev stBusy : Nat := 0x02
/-- `ST_BAD_OPCODE` (Table 6-10). -/
abbrev stBadOpcode : Nat := 0x03
/-- `ST_BAD_PARAM` (Table 6-10). -/
abbrev stBadParam : Nat := 0x04
/-- `ST_BAD_LENGTH` (Table 6-10). -/
abbrev stBadLength : Nat := 0x05
/-- `ST_NOT_IN_STATE` (Table 6-10). -/
abbrev stNotInState : Nat := 0x06
/-- `ST_DENIED` (Table 6-10). -/
abbrev stDenied : Nat := 0x07
/-- `ST_AUTH_FAIL` (Table 6-10). -/
abbrev stAuthFail : Nat := 0x08
/-- `ST_NO_RESOURCE` (Table 6-10). -/
abbrev stNoResource : Nat := 0x09
/-- `ST_TIMEOUT` (Table 6-10). -/
abbrev stTimeout : Nat := 0x0A
/-- `ST_ABORTED` (Table 6-10). -/
abbrev stAborted : Nat := 0x0B
/-- `ST_HW_FAULT` (Table 6-10). -/
abbrev stHwFault : Nat := 0x0C
/-- `ST_VERSION` (Table 6-10). -/
abbrev stVersion : Nat := 0x0D
/-- `ST_RNG_UNAVAILABLE` (Table 6-10). -/
abbrev stRngUnavailable : Nat := 0x0E
/-- `ST_REGULATORY` (Table 6-10). -/
abbrev stRegulatory : Nat := 0x0F
/-- `ST_STORE_DEFERRED` (Table 6-10). -/
abbrev stStoreDeferred : Nat := 0x10
/-- `EV_RESET_CAUSE` (Table 6-12). -/
abbrev evResetCause : Nat := 0x0101
/-- `EV_VBAT_LOSS` (Table 6-12). -/
abbrev evVbatLoss : Nat := 0x0102
/-- `EV_VBAT_REDUCED` (Table 6-12). -/
abbrev evVbatReduced : Nat := 0x0103
/-- `EV_VBAT_OV` (Table 6-12). -/
abbrev evVbatOv : Nat := 0x0104
/-- `EV_VLF_LOW` (Table 6-12). -/
abbrev evVlfLow : Nat := 0x0105
/-- `EV_VLF_OV` (Table 6-12). -/
abbrev evVlfOv : Nat := 0x0106
/-- `EV_VREL_LOW` (Table 6-12). -/
abbrev evVrelLow : Nat := 0x0107
/-- `EV_VDDIO_LOW` (Table 6-12). -/
abbrev evVddioLow : Nat := 0x0108
/-- `EV_RAIL_FAULT` (Table 6-12). -/
abbrev evRailFault : Nat := 0x0109
/-- `EV_HOLD_MEASURED` (Table 6-12). -/
abbrev evHoldMeasured : Nat := 0x010A
/-- `EV_HOLD_LOW` (Table 6-12). -/
abbrev evHoldLow : Nat := 0x010B
/-- `EV_HOLD_FAILED` (Table 6-12). -/
abbrev evHoldFailed : Nat := 0x010C
/-- `EV_VBAT_DIP` (Table 6-12). -/
abbrev evVbatDip : Nat := 0x010D
/-- `EV_POWER_STATE` (Table 6-12). -/
abbrev evPowerState : Nat := 0x010E
/-- `EV_SIGNAL_LINE` (Table 6-12). -/
abbrev evSignalLine : Nat := 0x010F
/-- `EV_ISTHMUS_FAIL` (Table 6-12). -/
abbrev evIsthmusFail : Nat := 0x0110
/-- `EV_LOCKSTEP` (Table 6-12). -/
abbrev evLockstep : Nat := 0x0111
/-- `EV_QUEUE_OVERFLOW` (Table 6-12). -/
abbrev evQueueOverflow : Nat := 0x0112
/-- `EV_XTAL26_FAIL` (Table 6-12). -/
abbrev evXtal26Fail : Nat := 0x0201
/-- `EV_XTAL32_ABSENT` (Table 6-12). -/
abbrev evXtal32Absent : Nat := 0x0202
/-- `EV_XTAL32_FAIL` (Table 6-12). -/
abbrev evXtal32Fail : Nat := 0x0203
/-- `EV_TIDE_WRAP` (Table 6-12). -/
abbrev evTideWrap : Nat := 0x0204
/-- `EV_TIDE_CORRECTED` (Table 6-12). -/
abbrev evTideCorrected : Nat := 0x0205
/-- `EV_CMD_DONE` (Table 6-12). -/
abbrev evCmdDone : Nat := 0x0301
/-- `EV_MBX_LINK` (Table 6-12). -/
abbrev evMbxLink : Nat := 0x0302
/-- `EV_MBX_SECURE` (Table 6-12). -/
abbrev evMbxSecure : Nat := 0x0303
/-- `EV_MBX_REKEY_DUE` (Table 6-12). -/
abbrev evMbxRekeyDue : Nat := 0x0304
/-- `EV_MBX_TRANSPORT_REVERTED` (Table 6-12). -/
abbrev evMbxTransportReverted : Nat := 0x0305
/-- `EV_LF_BURST_DONE` (Table 6-12). -/
abbrev evLfBurstDone : Nat := 0x0401
/-- `EV_LF_DIAG` (Table 6-12). -/
abbrev evLfDiag : Nat := 0x0402
/-- `EV_LF_IMPLAUSIBLE` (Table 6-12). -/
abbrev evLfImplausible : Nat := 0x0403
/-- `EV_LF_THERMAL` (Table 6-12). -/
abbrev evLfThermal : Nat := 0x0404
/-- `EV_LF_SOUNDING_DONE` (Table 6-12). -/
abbrev evLfSoundingDone : Nat := 0x0405
/-- `EV_ZONE_CHANGE` (Table 6-12). -/
abbrev evZoneChange : Nat := 0x0501
/-- `EV_SYNTH_REFUSED` (Table 6-12). -/
abbrev evSynthRefused : Nat := 0x0502
/-- `EV_CHANNEL_REMAPPED` (Table 6-12). -/
abbrev evChannelRemapped : Nat := 0x0503
/-- `EV_TOKEN_AUTH` (Table 6-12). -/
abbrev evTokenAuth : Nat := 0x0601
/-- `EV_TOKEN_FOREIGN` (Table 6-12). -/
abbrev evTokenForeign : Nat := 0x0602
/-- `EV_TOKEN_AUTH_FAIL` (Table 6-12). -/
abbrev evTokenAuthFail : Nat := 0x0603
/-- `EV_TOKEN_COLLISION` (Table 6-12). -/
abbrev evTokenCollision : Nat := 0x0604
/-- `EV_TOKEN_RESYNC` (Table 6-12). -/
abbrev evTokenResync : Nat := 0x0605
/-- `EV_TRANSPONDER_DIAG` (Table 6-12). -/
abbrev evTransponderDiag : Nat := 0x0606
/-- `EV_TOKEN_LEARNED` (Table 6-12). -/
abbrev evTokenLearned : Nat := 0x0607
/-- `EV_TOKEN_REVOKED` (Table 6-12). -/
abbrev evTokenRevoked : Nat := 0x0608
/-- `EV_RANGE_RESULT` (Table 6-12). -/
abbrev evRangeResult : Nat := 0x0701
/-- `EV_RELAY_SUSPECT` (Table 6-12). -/
abbrev evRelaySuspect : Nat := 0x0702
/-- `EV_UWB_CABLE` (Table 6-12). -/
abbrev evUwbCable : Nat := 0x0703
/-- `EV_UWB_UNAVAILABLE` (Table 6-12). -/
abbrev evUwbUnavailable : Nat := 0x0704
/-- `EV_RELEASE_GRANTED` (Table 6-12). -/
abbrev evReleaseGranted : Nat := 0x0801
/-- `EV_RELEASE_DENIED` (Table 6-12). -/
abbrev evReleaseDenied : Nat := 0x0802
/-- `EV_PATH_DEADLINE` (Table 6-12). -/
abbrev evPathDeadline : Nat := 0x0803
/-- `EV_SESSION_END` (Table 6-12). -/
abbrev evSessionEnd : Nat := 0x0804
/-- `EV_START_PERMIT` (Table 6-12). -/
abbrev evStartPermit : Nat := 0x0805
/-- `EV_START_OUTPUT_DIAG` (Table 6-12). -/
abbrev evStartOutputDiag : Nat := 0x0806
/-- `EV_RADIO_MISMATCH` (Table 6-12). -/
abbrev evRadioMismatch : Nat := 0x0901
/-- `EV_RADIO_DUTY_LIMIT` (Table 6-12). -/
abbrev evRadioDutyLimit : Nat := 0x0902
/-- `EV_COEX_ABORT` (Table 6-12). -/
abbrev evCoexAbort : Nat := 0x0903
/-- `EV_RADIO_CAL` (Table 6-12). -/
abbrev evRadioCal : Nat := 0x0904
/-- `EV_TOUCH` (Table 6-12). -/
abbrev evTouch : Nat := 0x0A01
/-- `EV_CONTACT` (Table 6-12). -/
abbrev evContact : Nat := 0x0A02
/-- `EV_SENSE_DIAG` (Table 6-12). -/
abbrev evSenseDiag : Nat := 0x0A03
/-- `EV_CONTACT_STUCK` (Table 6-12). -/
abbrev evContactStuck : Nat := 0x0A04
/-- `EV_WAKE` (Table 6-12). -/
abbrev evWake : Nat := 0x0A05
/-- `EV_MBX_AUTH_STORM` (Table 6-12). -/
abbrev evMbxAuthStorm : Nat := 0x0B01
/-- `EV_FW_VERIFY` (Table 6-12). -/
abbrev evFwVerify : Nat := 0x0B02
/-- `EV_LIFECYCLE` (Table 6-12). -/
abbrev evLifecycle : Nat := 0x0B03
/-- `EV_ATTEST_READY` (Table 6-12). -/
abbrev evAttestReady : Nat := 0x0B04
/-- `EV_LOG_CHECKPOINT` (Table 6-12). -/
abbrev evLogCheckpoint : Nat := 0x0B05
/-- `EV_KEY_ZEROISED` (Table 6-12). -/
abbrev evKeyZeroised : Nat := 0x0B06
/-- `EV_TAMPER` (Table 6-12). -/
abbrev evTamper : Nat := 0x0C01
/-- `EV_TAMPER_TEST_PIN` (Table 6-12). -/
abbrev evTamperTestPin : Nat := 0x0C02
/-- `EV_BREACH` (Table 6-12). -/
abbrev evBreach : Nat := 0x0C03
/-- `EV_RNG_HEALTH` (Table 6-12). -/
abbrev evRngHealth : Nat := 0x0D01
/-- `EV_RNG_FATAL` (Table 6-12). -/
abbrev evRngFatal : Nat := 0x0D02
/-- `EV_RNG_SEEDED` (Table 6-12). -/
abbrev evRngSeeded : Nat := 0x0D03
/-- `EV_STORE_TWIN` (Table 6-12). -/
abbrev evStoreTwin : Nat := 0x0E01
/-- `EV_STORE_DEFERRED` (Table 6-12). -/
abbrev evStoreDeferred : Nat := 0x0E02
/-- `EV_STORE_TORN` (Table 6-12). -/
abbrev evStoreTorn : Nat := 0x0E03
/-- `EV_STORE_WEAR` (Table 6-12). -/
abbrev evStoreWear : Nat := 0x0E04
/-- `EV_COUNTER_COMMITTED` (Table 6-12). -/
abbrev evCounterCommitted : Nat := 0x0E05
/-- `EV_TIMER_LATE` (Table 6-12). -/
abbrev evTimerLate : Nat := 0x0F01
/-- `EV_EXT_TRAP` (Table 6-12). -/
abbrev evExtTrap : Nat := 0x1001
/-- `EV_EXT_BUDGET` (Table 6-12). -/
abbrev evExtBudget : Nat := 0x1002
/-- `EV_EXT_LOADED` (Table 6-12). -/
abbrev evExtLoaded : Nat := 0x1003
/-- `EV_PAIR_LINK` (Table 6-12). -/
abbrev evPairLink : Nat := 0x1101
/-- `EV_PAIR_TAKEOVER` (Table 6-12). -/
abbrev evPairTakeover : Nat := 0x1102
/-- `EV_PAIR_ROLE` (Table 6-12). -/
abbrev evPairRole : Nat := 0x1103
/-- `EV_PAIR_JOINED` (Table 6-12). -/
abbrev evPairJoined : Nat := 0x1104
/-- `EV_PAIR_COMMIT_FAIL` (Table 6-12). -/
abbrev evPairCommitFail : Nat := 0x1105
/-- `EV_BUS_FAULT` (Table 6-12). -/
abbrev evBusFault : Nat := 0x1201
/-- `EV_BUS_OFF` (Table 6-12). -/
abbrev evBusOff : Nat := 0x1202
/-- `EV_LIN_NO_RESPONSE` (Table 6-12). -/
abbrev evLinNoResponse : Nat := 0x1203
/-- `EV_EROSION_WARN` (Table 6-12). -/
abbrev evErosionWarn : Nat := 0x1301

end Sys2Proof.Machine
end

