-- ==== Sys2Proof/Machine/Bytes.lean ====
section
/-! DEFINITION. Bytes, little-endian numbers and bit fields of frames, payloads and records (R98, 06_command_reference). -/

namespace Sys2Proof.Machine
open Sys2Proof

/-- A number as `n` little-endian bytes. -/
def leBytes : Nat → Nat → Bytes
  | 0, _ => []
  | n + 1, v => byte v :: leBytes n (v / 256)

/-- Two little-endian bytes. -/
def le16 (v : Nat) : Bytes := leBytes 2 v
/-- Four little-endian bytes. -/
def le32 (v : Nat) : Bytes := leBytes 4 v
/-- Six little-endian bytes. -/
def le48 (v : Nat) : Bytes := leBytes 6 v

/-- A number as `n` bytes, most significant first. -/
def beBytes (n v : Nat) : Bytes := (leBytes n v).reverse

/-- The value of little-endian bytes. -/
def leNat : Bytes → Nat
  | [] => 0
  | b :: r => b.toNat + 256 * leNat r

/-- The value of bytes with the most significant first. -/
def beNat (b : Bytes) : Nat := leNat b.reverse

/-- `len` bytes from offset `off`. -/
def slice (b : Bytes) (off len : Nat) : Bytes := (b.drop off).take len

/-- Byte `i` as a number, 0 beyond the end. -/
def u8 (b : Bytes) (i : Nat) : Nat := (b.getD i 0).toNat
/-- The 16-bit field at `i`. -/
def u16 (b : Bytes) (i : Nat) : Nat := u8 b i + 256 * u8 b (i + 1)
/-- The 32-bit field at `i`. -/
def u32 (b : Bytes) (i : Nat) : Nat := u16 b i + 65536 * u16 b (i + 2)
/-- The 48-bit field at `i`. -/
def u48 (b : Bytes) (i : Nat) : Nat := u32 b i + 4294967296 * u16 b (i + 4)

/-- Two's complement of `w` bits. -/
def twos (w : Nat) (z : Int) : Nat := (z % (2 ^ w : Nat)).toNat
/-- The signed value of a `w`-bit field. -/
def signed (w v : Nat) : Int := if v < 2 ^ (w - 1) then v else (v : Int) - (2 ^ w : Nat)
/-- The signed 16-bit field at `i`. -/
def s16 (b : Bytes) (i : Nat) : Int := signed 16 (u16 b i)

/-- All bytes of a field are zero (R8). -/
def zeros (b : Bytes) (off len : Nat) : Bool := (slice b off len).all (· == 0)

/-- `n` zero bytes. -/
def zeroBytes (n : Nat) : Bytes := List.replicate n 0

/-- Bytes padded with zeros, or cut, to `n`. -/
def padTo (n : Nat) (b : Bytes) : Bytes := (b ++ zeroBytes (n - b.length)).take n

/-- The bytes of an ASCII text. -/
def ascii (t : String) : Bytes := t.toList.map (fun c => byte c.toNat)

/-- A list with entry `i` changed, unchanged when `i` is outside it. -/
def modAt {α : Type} (l : List α) (i : Nat) (f : α → α) : List α :=
  match l, i with
  | [], _ => []
  | a :: r, 0 => f a :: r
  | a :: r, n + 1 => a :: modAt r n f

/-- The positions of the set bits of a mask, below `n`. -/
def bitsOf (n mask : Nat) : List Nat := (List.range n).filter (fun i => bitSet mask i)

/-- The last `n` entries of a list. -/
def lastN {α : Type} (n : Nat) (l : List α) : List α := l.drop (l.length - n)

/-- Saturates a number at a limit. -/
def sat (m v : Nat) : Nat := min m v

/-- The natural number nearest to `a / b`, halves upward. -/
def roundDiv (a b : Nat) : Nat := if b = 0 then 0 else (2 * a + b) / (2 * b)

/-- The integer nearest to `a / b`, halves away from zero. -/
def roundDivI (a : Int) (b : Nat) : Int :=
  if a < 0 then -(roundDiv a.natAbs b : Int) else (roundDiv a.natAbs b : Int)

/-- The natural number nearest to `a / b`, halves to the even one. -/
def roundEven (a b : Nat) : Nat :=
  if b = 0 then 0 else
  let q := a / b
  let r := 2 * (a % b)
  if r < b then q else if r > b then q + 1 else q + q % 2

/-- Integer square root by binary search over `fuel` bits. -/
def isqrtAux : Nat → Nat → Nat → Nat
  | 0, _, r => r
  | k + 1, n, r => isqrtAux k n (if (r + 2 ^ k) * (r + 2 ^ k) ≤ n then r + 2 ^ k else r)
/-- The whole part of a square root, for numbers below 2^256. -/
def isqrt (n : Nat) : Nat := isqrtAux 128 n 0

end Sys2Proof.Machine
end

