-- ==== Sys2Proof/Machine/Params.lean ====
section
/-! DEFINITION. Parameters: their IDs, ranges, defaults and boundaries (R131, R132, R24 to R27, Table 1-4 and the parameter
table of every chapter). -/

namespace Sys2Proof.Machine
open Sys2Proof

/-- Where a written parameter takes effect (Table 1-4 and the class column of each table). -/
inductive Bound where
  | burst | synth | decision | path | round | packet | scan | neap | frame | vbatLoss | reset | sounding | atOnce | frozenLf | frozenUwb | refl | feeder | diagScan
deriving DecidableEq, Repr

/-- One row of a parameter table: first and last ID, range in steps, default, whether signed, boundary. -/
structure PRow where
  lo : Nat
  hi : Nat
  min : Int
  max : Int
  dflt : Int
  bound : Bound
deriving DecidableEq, Repr

/-- Link, power, LF and synthesis parameters. -/
def paramRowsA : List PRow := [
  ⟨0x0001, 0x0001, 0, 2, 0, .reset⟩, ⟨0x0002, 0x0002, 0, 1, 0, .reset⟩,
  ⟨0x0003, 0x0003, 0, 0x1FFFFFFF, 0x6A0, .reset⟩, ⟨0x0004, 0x0004, 0, 0x1FFFFFFF, 0x6A8, .reset⟩,
  ⟨0x0101, 0x0101, 10, 1000, 50, .atOnce⟩, ⟨0x0102, 0x0102, 1, 6000, 20, .atOnce⟩,
  ⟨0x0103, 0x0103, 0, 1, 1, .atOnce⟩, ⟨0x0104, 0x0104, 0, 100, 80, .vbatLoss⟩,
  ⟨0x0201, 0x0201, 0x00147AE2, 0x00999999, 0x00800000, .frozenLf⟩, ⟨0x0202, 0x0202, 1, 255, 170, .burst⟩,
  ⟨0x0203, 0x0203, 5, 45, 30, .burst⟩, ⟨0x0204, 0x0204, 8, 255, 34, .burst⟩,
  ⟨0x0205, 0x0205, 0, 0xFFFF, 0, .burst⟩, ⟨0x0206, 0x0206, 1, 100, 10, .diagScan⟩,
  ⟨0x0207, 0x0207, 20, 80, 80, .burst⟩, ⟨0x0208, 0x0208, 1, 500, 72, .sounding⟩,
  ⟨0x0231, 0x0260, 0, 5000, 0, .sounding⟩,
  ⟨0x0301, 0x0301, 10, 50, 50, .synth⟩, ⟨0x0302, 0x0302, 2, 10, 10, .synth⟩, ⟨0x0303, 0x0303, 0, 100, 1, .synth⟩,
  ⟨0x0304, 0x0304, 5, 100, 10, .decision⟩, ⟨0x0305, 0x0305, 1, 50, 5, .decision⟩, ⟨0x0306, 0x0306, 2, 100, 10, .decision⟩,
  ⟨0x0307, 0x0307, 10, 200, 30, .decision⟩, ⟨0x0308, 0x0308, 5, 600, 20, .decision⟩]

/-- Tideway, ranging and release parameters. -/
def paramRowsB : List PRow := [
  ⟨0x0401, 0x0401, 1, 3, 3, .path⟩, ⟨0x0402, 0x0402, 0, 0xFFFFFF, 0, .path⟩, ⟨0x0403, 0x0403, 1, 8, 4, .path⟩,
  ⟨0x0404, 0x0404, 0, 2, 0, .path⟩, ⟨0x0405, 0x0405, 0, 1, 1, .path⟩, ⟨0x0406, 0x0406, 16, 65535, 1024, .path⟩,
  ⟨0x0407, 0x0407, 0, 1, 1, .path⟩, ⟨0x0409, 0x0409, 0, 960000, 868300, .path⟩, ⟨0x040A, 0x040C, 0, 960000, 0, .path⟩,
  ⟨0x0410, 0x044F, 0, 0xFFFFFFFF, 0, .path⟩,
  ⟨0x0501, 0x0501, 0, 1, 1, .frozenUwb⟩, ⟨0x0502, 0x0502, 0, 1, 0, .frozenUwb⟩, ⟨0x0503, 0x0503, 9, 12, 10, .frozenUwb⟩,
  ⟨0x0504, 0x0504, 1, 15, 1, .round⟩, ⟨0x0505, 0x0505, 2, 3, 3, .round⟩, ⟨0x0506, 0x0506, 1, 4, 2, .round⟩,
  ⟨0x0507, 0x0507, 50, 99, 70, .refl⟩, ⟨0x0508, 0x0508, 1, 168, 24, .round⟩, ⟨0x0509, 0x050A, 50, 230, 180, .round⟩,
  ⟨0x050B, 0x050C, -1800, 1800, 0, .round⟩, ⟨0x0510, 0x0510, 50, 1000, 300, .path⟩, ⟨0x0511, 0x0511, 64, 255, 160, .path⟩,
  ⟨0x0512, 0x0512, 10, 200, 50, .path⟩, ⟨0x0513, 0x0513, 10, 100, 50, .path⟩, ⟨0x0514, 0x0514, 101, 1000, 200, .path⟩,
  ⟨0x0515, 0x0515, 5, 50, 20, .path⟩, ⟨0x0516, 0x0516, 0, 2, 0, .path⟩, ⟨0x0517, 0x0517, 5, 20, 8, .path⟩,
  ⟨0x0518, 0x0518, 1, 4, 1, .path⟩, ⟨0x0531, 0x0560, 0, 255, 0, .path⟩,
  ⟨0x0601, 0x0601, 100, 400, 100, .path⟩, ⟨0x0602, 0x0602, 1, 600, 30, .path⟩, ⟨0x0603, 0x0603, 5, 1800, 120, .path⟩,
  ⟨0x0604, 0x0604, 0, 0xFFFFFFFF, 0, .path⟩, ⟨0x0605, 0x0605, 1, 2, 2, .path⟩, ⟨0x0606, 0x0606, 0, 2, 1, .path⟩,
  ⟨0x0607, 0x0607, 0, 0x7FF, 0x1A0, .path⟩, ⟨0x0608, 0x0608, 0, 0x7FF, 0x1A8, .path⟩, ⟨0x0609, 0x0609, 0, 0x7FF, 0x1B0, .path⟩,
  ⟨0x060A, 0x060A, 5, 100, 10, .path⟩, ⟨0x060B, 0x060C, 0, 8, 0, .path⟩, ⟨0x060D, 0x060D, 0, 1, 1, .path⟩,
  ⟨0x060E, 0x060E, 1, 2, 1, .path⟩, ⟨0x060F, 0x060F, 5, 50, 30, .path⟩]

/-- Radio, sensing, tamper, pair, erosion and bus parameters. -/
def paramRowsC : List PRow := [
  ⟨0x0701, 0x0701, 0, 31, 28, .packet⟩, ⟨0x0702, 0x0702, 10, 600, 120, .packet⟩, ⟨0x0703, 0x0703, 2, 10, 5, .packet⟩,
  ⟨0x0704, 0x0704, 0, 1, 0, .packet⟩, ⟨0x0705, 0x0705, 0, 200, 50, .packet⟩, ⟨0x0706, 0x0706, 12, 30, 20, .packet⟩,
  ⟨0x0707, 0x0707, 0, 1, 1, .packet⟩, ⟨0x0708, 0x0708, 50, 99, 66, .feeder⟩,
  ⟨0x0801, 0x0801, 0, 0xFFFF, 0, .scan⟩, ⟨0x0802, 0x0802, 5, 100, 25, .scan⟩, ⟨0x0803, 0x0803, 25, 200, 100, .scan⟩,
  ⟨0x0804, 0x0804, 1, 8, 3, .scan⟩, ⟨0x0805, 0x0805, 1, 600, 10, .scan⟩, ⟨0x0806, 0x0806, 1, 600, 30, .scan⟩,
  ⟨0x0807, 0x0807, 1, 16, 4, .scan⟩, ⟨0x0808, 0x0808, 0, 5000, 200, .scan⟩, ⟨0x0809, 0x0809, 1, 100, 10, .scan⟩,
  ⟨0x080A, 0x080A, 1, 3600, 300, .scan⟩, ⟨0x0811, 0x0820, 5, 2000, 50, .scan⟩, ⟨0x0831, 0x0838, 0, 0xFFFFFFFF, 0x12, .scan⟩,
  ⟨0x0A01, 0x0A01, 0, 7, 0, .atOnce⟩, ⟨0x0A02, 0x0A02, 2, 10, 3, .atOnce⟩, ⟨0x0B01, 0x0B02, 0, 8, 0, .reset⟩,
  ⟨0x0D01, 0x0D01, 1, 60, 12, .atOnce⟩,
  ⟨0x0E01, 0x0E01, 0, 3, 2, .reset⟩, ⟨0x0E02, 0x0E02, 0, 3, 1, .reset⟩, ⟨0x0E03, 0x0E03, 0, 3, 2, .reset⟩,
  ⟨0x0E04, 0x0E04, 0, 3, 1, .reset⟩, ⟨0x0E05, 0x0E05, 28, 35, 32, .reset⟩, ⟨0x0E06, 0x0E06, 24, 32, 28, .reset⟩,
  ⟨0x0E07, 0x0E07, 0, 15, 1, .neap⟩, ⟨0x0E08, 0x0E08, 0, 0x1FFFFFFF, 0, .neap⟩, ⟨0x0E09, 0x0E09, 0, 0x1FFFFFFF, 0x1FFFFFFF, .neap⟩,
  ⟨0x0E0A, 0x0E0A, 0, 255, 0, .neap⟩, ⟨0x0E0B, 0x0E0B, 0, 0x1FFFFFFF, 0, .neap⟩, ⟨0x0E0C, 0x0E0C, 0, 0x1FFFFFFF, 0x1FFFFFFF, .neap⟩,
  ⟨0x0E0D, 0x0E0D, 0, 255, 0, .neap⟩, ⟨0x0E0E, 0x0E0E, 0, 2, 0, .frame⟩, ⟨0x0E0F, 0x0E0F, 0, 0x7FF, 0x1B8, .frame⟩,
  ⟨0x0E10, 0x0E10, 0, 3, 3, .reset⟩, ⟨0x0E11, 0x0E14, 0, 0xFFFE, 0, .frame⟩, ⟨0x0E15, 0x0E15, 1, 100, 5, .frame⟩,
  ⟨0x0E16, 0x0E16, 1, 2, 2, .path⟩]

/-- Every parameter of the manual. -/
def paramRows : List PRow := paramRowsA ++ paramRowsB ++ paramRowsC

/-- The row of a parameter ID. -/
def pRow (id : Nat) : Option PRow := paramRows.find? (fun r => r.lo ≤ id && id ≤ r.hi)

/-- The default of a parameter, as its 32-bit value (R131). -/
def pDefault (id : Nat) : Nat :=
  match pRow id with
  | some r => twos 32 r.dflt
  | none => 0

/-- A value of a sparse parameter list. -/
def pGet (l : List (Nat × Nat)) (id : Nat) : Nat :=
  match l.find? (fun e => e.1 == id) with
  | some e => e.2
  | none => pDefault id

/-- Inserts an entry in rising order of ID. -/
def pInsert (id v : Nat) : List (Nat × Nat) → List (Nat × Nat)
  | [] => [(id, v)]
  | e :: r => if id < e.1 then (id, v) :: e :: r else if id = e.1 then (id, v) :: r else e :: pInsert id v r

/-- Sets a value; a default is not listed. -/
def pSet (l : List (Nat × Nat)) (id v : Nat) : List (Nat × Nat) :=
  if v = pDefault id then l.filter (fun e => e.1 ≠ id) else pInsert id v l

/-- The value in effect (R24). -/
def param (s : State) (id : Nat) : Nat := pGet s.par.active id
/-- The value in effect as a signed number. -/
def paramI (s : State) (id : Nat) : Int := signed 32 (param s id)
/-- The last value written (R27). -/
def paramW (s : State) (id : Nat) : Nat := pGet s.par.written id

/-- A burst or tone plan is queued or being sent, a sounding burst among them (Table 1-4). -/
def lfRuns (s : State) : Bool := s.lf.cur.isSome || s.lf.queued.isSome || s.lf.held.isSome || s.lf.soundMask ≠ 0
/-- A packet is being sent, or the receiver is open for one (Table 1-4): a response window, a proof, a locate poll. -/
def packetRuns (s : State) : Bool :=
  (match s.rad.tx with | some t => t.radiating | none => false) ||
  (match s.path with | some p => p.step = .window || p.step = .challenge | none => false) || s.zon.poll.any (·.opened)

/-- The block of a boundary runs (Table 1-4), so that a write waits for the boundary. -/
def boundRuns (s : State) : Bound → Bool
  | .burst => lfRuns s
  | .frozenLf => lfRuns s
  | .synth => (s.lf.cur.toList ++ s.lf.queued.toList).any (fun b => b.windows.any (fun w => w.group.isSome))
  | .decision => s.path.isSome || !s.rel.access.isEmpty || s.rel.start.isSome
  | .path => s.path.isSome
  | .round => !s.uwb.sessions.isEmpty
  | .frozenUwb => !s.uwb.sessions.isEmpty
  | .packet => packetRuns s
  | .scan => param s 0x0801 ≠ 0
  | .diagScan => s.pwr.phase = .ready
  | .neap => true
  | .frame => s.bus.pollEnd.isSome
  | .vbatLoss => s.pwr.ride.isSome
  | .reset => true
  | .sounding => s.lf.soundMask ≠ 0
  | .refl => s.uwb.refl ≠ 0
  | .feeder => s.soundRun.isSome
  | .atOnce => false

/-- A parameter whose block freezes it (R26). -/
def isFrozen (id : Nat) : Bool :=
  match pRow id with
  | some r => r.bound = .frozenLf || r.bound = .frozenUwb
  | none => false

/-- The boundary of a parameter. -/
def pBound (id : Nat) : Bound :=
  match pRow id with
  | some r => r.bound
  | none => .atOnce

/-- A boundary arrives: every value written for it takes effect together (R24, R25). -/
def boundary (b : Bound) (s : State) : State :=
  let keep := s.par.active.filter (fun e => pBound e.1 ≠ b)
  let put := s.par.written.filter (fun e => pBound e.1 = b)
  { s with par := { s.par with active := put.foldl (fun l e => pInsert e.1 e.2 l) keep } }

/-- One parameter written (R24, R27): in effect at once when its block does not run, as `s0` shows. -/
def writeParam (s0 : State) (id v : Nat) (s : State) : State :=
  let w := pSet s.par.written id v
  { s with par := { s.par with written := w,
                               active := if boundRuns s0 (pBound id) then s.par.active else pSet s.par.active id v } }
/-- The parameters written by one command: whether a block runs is judged once, before the first of them (R25). -/
def writeParams (entries : List (Nat × Nat)) (s : State) : State := entries.foldl (fun t e => writeParam s e.1 e.2 t) s

end Sys2Proof.Machine
end

