-- ==== Sys2Proof/Machine/Ops.lean ====
section
/-! DEFINITION. The named operations over the state that every family shares: time (R80 to R83), events and their paths
(R463 to R472), faults (R457 to R462), stored records (R377, R387) and the energy check (R60). -/

namespace Sys2Proof.Machine
open Sys2Proof

/-- What a meaning answers. -/
abbrev Out := Host.Outcome State Fault Refusal

/-- The command ends in a next state. -/
abbrev next (s : State) : Out := .next s

def State.onClk (s : State) (f : Clk → Clk) : State := { s with clk := f s.clk }
def State.onPwr (s : State) (f : Pwr → Pwr) : State := { s with pwr := f s.pwr }
def State.onEvt (s : State) (f : Evt → Evt) : State := { s with evt := f s.evt }
def State.onFlt (s : State) (f : Flt → Flt) : State := { s with flt := f s.flt }
def State.onPar (s : State) (f : Par → Par) : State := { s with par := f s.par }
def State.onLf (s : State) (f : Lf → Lf) : State := { s with lf := f s.lf }
def State.onZon (s : State) (f : Zon → Zon) : State := { s with zon := f s.zon }
def State.onUwb (s : State) (f : Uwb → Uwb) : State := { s with uwb := f s.uwb }
def State.onRel (s : State) (f : Rel → Rel) : State := { s with rel := f s.rel }
def State.onRad (s : State) (f : Rad → Rad) : State := { s with rad := f s.rad }
def State.onSen (s : State) (f : Sen → Sen) : State := { s with sen := f s.sen }
def State.onSec (s : State) (f : Sec → Sec) : State := { s with sec := f s.sec }
def State.onRng (s : State) (f : Rng → Rng) : State := { s with rng := f s.rng }
def State.onStore (s : State) (f : Store → Store) : State := { s with store := f s.store }
def State.onExt (s : State) (f : Ext → Ext) : State := { s with ext := f s.ext }
def State.onPair (s : State) (f : Pair → Pair) : State := { s with pair := f s.pair }
def State.onBus (s : State) (f : Buses → Buses) : State := { s with bus := f s.bus }
/-- Changes the path in progress, when there is one. -/
def State.onPath (s : State) (f : Path → Path) : State := { s with path := s.path.map f }

/-- A mailbox: the pair mailbox or the member mailbox (R439). -/
def State.box (s : State) (member : Bool) : Mbx := if member then s.mmb else s.mbx
/-- Changes a mailbox. -/
def State.onBox (s : State) (member : Bool) (f : Mbx → Mbx) : State :=
  if member then { s with mmb := f s.mmb } else { s with mbx := f s.mbx }

/-- Draws a free value (log 8): nothing constrains it. -/
def drawFree (s : State) : Nat × State := (Config.freeNat s.free, { s with free := s.free + 1 })

/-- The tide clock value (R80). -/
def tide (s : State) : Nat := (((s.clk.base : Int) + s.clk.offset) % (2 ^ 48 : Nat)).toNat
/-- The tide clock base, on which every interval counts (R83). -/
abbrev now (s : State) : Nat := s.clk.base

/-! ### Stored records -/

/-- The version that stands: the highest sequence of both copies (R380, R387). -/
def StRec.standing (r : StRec) : Option Ver :=
  match r.a, r.b with
  | none, b => b
  | a, none => a
  | some a, some b => if b.seq > a.seq then some b else some a

/-- The entry of a type and key. -/
def findRec (l : List StRec) (type key : Nat) : Option StRec := l.find? (fun r => r.type == type && r.key == key)

/-- The body of a stored record; `none` when absent or deleted (R388). -/
def recBody (s : State) (type key : Nat) : Option Bytes :=
  match (findRec s.store.recs type key).bind StRec.standing with
  | some v => if v.body.isEmpty then none else some v.body
  | none => none

/-- The value of a counter, `none` when no version stands (R388). -/
def ctrValue (s : State) (id : Nat) : Option Nat :=
  ((findRec s.store.ctrs 0x8000 id).bind StRec.standing).map (fun v => leNat v.body)

/-- The keys of every stored record of a type, in rising order. -/
def recKeys (s : State) (type : Nat) : List Nat :=
  ((s.store.recs.filter (fun r => r.type == type)).filter (fun r => match r.standing with
    | some v => !v.body.isEmpty
    | none => false)).map (·.key)

/-- Queues a write (R379). -/
def queueJob (j : Job) (s : State) : State := s.onStore (fun t => { t with queue := t.queue ++ [j] })

/-- The counter of start-ups since manufacture (counter 0x0203), with this start-up's write still queued counted. -/
def startUps (s : State) : Nat :=
  let jobs := s.store.queue ++ s.store.cur.toList.map (·.job) ++ s.store.paused.map (·.job)
  (jobs.flatMap (·.items)).foldl (fun n i => match i with
    | .ctr 0x0203 v => max n v
    | _ => n) ((ctrValue s 0x0203).getD 0)

/-! ### Erosion (R474, R475) -/

/-- A measurement of an erosion instance joins the mean of its day, or its running count (R475, Table 21-7). -/
def erodeAdd (item inst : Nat) (x : Int) (s : State) : State :=
  if s.ero.any (fun e => e.item == item && e.inst == inst) then
    { s with ero := s.ero.map (fun e => if e.item == item && e.inst == inst then { e with acc := e.acc + x, accN := e.accN + 1 } else e) }
  else { s with ero := s.ero ++ [{ item := item, inst := inst, acc := x, accN := 1 }] }

/-! ### Lifecycle and power -/

/-- A lifecycle's code (Table 6-2). -/
def Lifecycle.code : Lifecycle → Nat
  | .blank => 0 | .factory => 1 | .provisioned => 2 | .field => 3 | .service => 4 | .decommissioned => 5
/-- The lifecycle of a code. -/
def Lifecycle.ofCode : Nat → Lifecycle
  | 0 => .blank | 1 => .factory | 2 => .provisioned | 3 => .field | 4 => .service | _ => .decommissioned

/-- The stored lifecycle state; a blown fuse prevails (R331). -/
def storedLifecycle (s : State) : Lifecycle :=
  if s.sec.decomFuse then .decommissioned
  else match recBody s 0x0001 0 with
    | some b => Lifecycle.ofCode (u8 b 0)
    | none => .blank
/-- The lifecycle state, with SERVICE while a grant runs (R345). -/
def lifecycle (s : State) : Lifecycle := if s.sec.service.isSome then .service else storedLifecycle s

/-- A power state's code (Table 6-2). -/
def Power.code : Power → Nat
  | .off => 0 | .startup => 0 | .neap => 1 | .slack => 2 | .flood => 3 | .stranded => 4 | .breach => 5

/-- Slack, Flood, Stranded and Breach are the running states (R127). -/
def Power.isRunning : Power → Bool
  | .slack | .flood | .stranded | .breach => true
  | _ => false
/-- The machine runs and its mailbox is ready. -/
def running (s : State) : Bool := s.pwr.phase == .ready && s.pwr.state.isRunning
/-- The machine has come through start-up, Neap included. -/
def started (s : State) : Bool := s.pwr.phase == .ready
/-- Stranded or Breach. -/
def halted (s : State) : Bool := s.pwr.state == .stranded || s.pwr.state == .breach
/-- Slack or Flood. -/
def awake (s : State) : Bool := running s && (s.pwr.state == .slack || s.pwr.state == .flood)
/-- Ride-through runs (R71): no LF or radio. -/
def riding (s : State) : Bool := s.pwr.ride.isSome

/-! ### The alarm wires (R462) -/

/-- Whether a fault of class F1 or higher is active. -/
def anyFault (s : State) : Bool := s.flt.active.any (fun f => f.cls ≥ 1)
/-- Whether an F3 fault is active. -/
def f3Active (s : State) : Bool := s.flt.active.any (fun f => f.cls == 3)
/-- The power state that start-up resumes (R63, R334, R342, R353). -/
def resumed (s : State) : Power :=
  if s.pwr.recovery then .stranded
  else if s.sec.breachDue || recBody s 0x0002 0 = some [5] then .breach
  else if recBody s 0x0002 0 = some [4] || s.pwr.persistWanted || s.pwr.strandedBy ≠ 0 || !s.sec.vaultOk || f3Active s then .stranded
  else .slack
/-- Start-up has read the persisted state (2.40 ms in Table 3-5), and it is Stranded or Breach (R63, Table 2-4). -/
def resumesHalted (s : State) : Bool := s.pwr.phase = .firmware && resumed s ≠ .slack
/-- Brings FAULT_N and ALARM_N to the levels of R462 and Table 2-4. -/
def wires (s : State) : State :=
  s.onPwr (fun p => { p with
    faultN := p.state ≠ .off && (p.phase ≠ .ready || anyFault s || s.flt.lost ≠ 0 || halted s || p.cliffActed),
    alarmN := halted s || resumesHalted s })

/-! ### Events -/

/-- The class is held as an active fault (R516): a lasting condition, not a one-shot report of Table 21-10. -/
def lasting (code cls : Nat) : Bool :=
  cls ≥ 1 && !([evResetCause, evQueueOverflow, evMbxTransportReverted, evLfImplausible, evLfThermal, evSynthRefused,
    evTokenAuthFail, evRelaySuspect, evUwbCable, evRadioDutyLimit, evMbxAuthStorm, evFwVerify, evKeyZeroised, evTamper,
    evTamperTestPin, evRngHealth, evStoreTwin, evStoreWear, evExtTrap, evExtBudget, evPairTakeover, evPairCommitFail,
    evBusOff].contains code)

/-- Records appended to the security log (Table 21-5); `EV_SESSION_END` only for a start session, which its caller says. -/
def isLogged (code : Nat) : Bool :=
  code / 256 == 0x0B || code / 256 == 0x0C ||
  [evResetCause, evXtal26Fail, evRngFatal, evStoreTwin, evPairTakeover, evTokenLearned, evTokenRevoked, evRelaySuspect,
   evTokenForeign, evStartPermit, evReleaseGranted].contains code

/-- An entry joins the log backlog (R472): a full backlog merges its oldest non-pinned entry and every later one. -/
def backlogPush (pinned : Bool) (entry : Bytes) (s : State) : State :=
  s.onEvt (fun e =>
    if e.backlog.length < 64 then { e with backlog := e.backlog ++ [(pinned, entry)] }
    else
      let merge (e : Evt) (x : Bytes) : Evt :=
        { e with merged := some (match e.merged with
            | some (n, f, _) => (n + 1, f, u48 x 0)
            | none => (1, u48 x 0, u48 x 0)) }
      let drop1 : Evt := match e.backlog.find? (fun b => !b.1) with
        | some b => if e.merged.isSome && !pinned then e else merge { e with backlog := e.backlog.erase b } b.2
        | none => e
      if pinned then { drop1 with backlog := drop1.backlog ++ [(true, entry)] } else merge drop1 entry)

/-- The security log entry of R468 from its byte 4, with the run's number; the entry number comes at the write. -/
def logEntry (source flags code : Nat) (time : Nat) (params : Bytes) (s : State) : Bytes :=
  le48 time ++ [byte source, byte flags] ++ le16 code ++ le16 (startUps s) ++ padTo 16 params

/-- A log-only entry (Table 21-5): pinned, source 0xFF. -/
def logOnly (code : Nat) (params : Bytes) (s : State) : State :=
  backlogPush true (logEntry 0xFF 1 code (tide s) params s) s

/-- A fault's handling begins, waits, preempts or is lost (R459, R460). The result says whether it was lost. -/
def handleFault (code cls : Nat) (s : State) : Bool × State :=
  if cls = 0 then (false, s) else
  match s.flt.handling with
  | none => (false, s.onFlt (fun f => { f with handling := some (code, cls) }))
  | some h =>
    if cls > h.2 || cls = 3 then
      (false, s.onFlt (fun f => { f with handling := some (code, cls), suspended := h :: f.suspended }))
    else if s.flt.queue.length < 8 then (false, s.onFlt (fun f => { f with queue := f.queue ++ [(code, cls)] }))
    else (true, s.onFlt (fun f => { f with lost := sat 0xFFFF (f.lost + 1), reread := false }))

/-- A lasting fault becomes active (R458), once for its instance; a 33rd fault is lost. -/
def holdFault (src code cls seq : Nat) (inst : Bytes) (s : State) : State :=
  let same := fun (f : ActiveFault) => f.code == code && f.inst == inst
  if s.flt.active.any same then
    s.onFlt (fun f => { f with active := f.active.map (fun a => if same a then { a with cls := cls, seq := seq } else a) })
  else if s.flt.active.length < 32 then
    s.onFlt (fun f => { f with active := f.active ++ [{ source := src, cls := cls, code := code, inst := inst, seq := seq }] })
  else s.onFlt (fun f => { f with lost := sat 0xFFFF (f.lost + 1), reread := false })

/-- A fault ends with its clearing record. -/
def dropFault (code : Nat) (inst : Bytes) (s : State) : State :=
  s.onFlt (fun f => { f with active := f.active.filter (fun a => !(a.code == code && a.inst == inst)) })

/-- The fault is active, or waits to be raised. -/
def faultActive (s : State) (code : Nat) (inst : Bytes) : Bool :=
  match (s.evt.early.filter (fun r => r.code == code && r.inst == inst)).getLast? with
  | some r => !r.clear
  | none => s.flt.active.any (fun a => a.code == code && a.inst == inst)

/-- A timestamp never earlier than its predecessor's (R84), by difference modulo 2^48 (R80). -/
def laterStamp (last t : Nat) : Nat := if (t + 2 ^ 48 - last) % 2 ^ 48 < 2 ^ 47 then t else last

/-- Takes the next sequence number and the stamp of a source for what was found at `found` (R84, R85). -/
def stampFor (src found : Nat) (s : State) : Nat × Nat × State :=
  let q := s.evt.seq.getD src 0
  let t := laterStamp (s.evt.stamp.getD src 0) found
  (q, t, s.onEvt (fun e => { e with seq := e.seq.set src ((q + 1) % 65536), stamp := e.stamp.set src t }))

/-- The lost-count record of a source is appended when its queue has room (R464). -/
def flushLost (src : Nat) (s : State) : State :=
  match s.evt.lost.getD src none with
  | none => s
  | some (first, n) =>
    if (s.evt.queues.getD src []).length < 16 then
      let (q, t, s) := stampFor src (tide s) s
      let r : EvRec := { source := src, seq := q, time := t, code := src * 256 + 0xFF, params := le16 first ++ le16 n }
      s.onEvt (fun e => { e with queues := modAt e.queues src (· ++ [r]), lost := e.lost.set src none })
    else s

/-- A record enters its source's queue, its pinned place or the lost count (R464, R465); the trace takes it as it leaves the queue. -/
def placeRecord (r : EvRec) (s : State) : State :=
  s.onEvt (fun e =>
    if r.code = evCmdDone then { e with cmdDone := e.cmdDone ++ [r] }
    else if (e.queues.getD r.source []).length < 16 then { e with queues := modAt e.queues r.source (· ++ [r]) }
    else if r.source = 0x0B || r.source = 0x0C then { e with pinned := e.pinned ++ [r] }
    else { e with lost := modAt e.lost r.source (fun l => match l with
      | none => some (r.seq, 1)
      | some (f, n) => some (f, n + 1)) })

/-- Everything an event record carries beside its code, class and parameters; `at_` when it was found, if not now. -/
structure EvOpt where
  clear : Bool := false
  tag : Option Nat := none
  ref : Nat × Nat := (0, 0)
  inst : Bytes := []
  log : Bool := false
  at_ : Option Nat := none

/-- A record cannot be raised yet: no firmware runs, or it is one of POWER and the reset cause is not reported (R61, R85). -/
def heldBack (code : Nat) (s : State) : Bool :=
  (s.pwr.phase ≠ .firmware && s.pwr.phase ≠ .ready) || (s.pwr.phase = .firmware && code / 256 = 1)
/-- The flags of a security log entry (Table 21-4): pinned, and received from the pair's partner (R453). -/
def logFlags (code : Nat) (params : Bytes) : Nat :=
  let src := code / 256
  (if src = 0x0B || src = 0x0C then 1 else 0) + (if code = evBreach && params.head? = some 0x80 then 2 else 0)
/-- Raises an event record (R139): numbered and stamped in its source, queued, traced, logged (Table 21-5), and held, handled
or cleared as a fault (R457, R516). -/
def raiseX (code cls : Nat) (params : Bytes) (o : EvOpt) (s : State) : State :=
  let src := code / 256
  let s := if code = evCmdDone then s else flushLost src s
  let (q, t, s) := stampFor src (o.at_.getD (tide s)) s
  let r : EvRec := { source := src, cls := cls, clear := o.clear, tag := o.tag, seq := q, time := t, code := code,
                     refSource := o.ref.1, refSeq := o.ref.2, params := params }
  let s := placeRecord r s
  let s := if isLogged code || o.log then
      backlogPush (src = 0x0B || src = 0x0C) (logEntry src (logFlags code params) code t params s) s
    else s
  let s := if o.clear then dropFault code o.inst s
    else
      let (lost, s) := handleFault code cls s
      if lasting code cls && !lost then holdFault src code cls q o.inst s else s
  wires s

/-- An event is found: its record is raised, or kept with its stamp until it can be (R84, R85). -/
def emitX (code cls : Nat) (params : Bytes) (o : EvOpt) (s : State) : State :=
  if heldBack code s then
    s.onEvt (fun e => { e with early := e.early ++
      [{ code := code, cls := cls, params := params, clear := o.clear, inst := o.inst, at_ := o.at_.getD (tide s), ref := o.ref }] })
  else raiseX code cls params o s

/-- Raises the records that have waited and can be raised now, in the order they were found. -/
def flushEarly (s : State) : State :=
  let now_ := s.evt.early.filter (fun r => !heldBack r.code s)
  let s := s.onEvt (fun e => { e with early := e.early.filter (fun r => !now_.contains r) })
  now_.foldl (fun s r => raiseX r.code r.cls r.params { clear := r.clear, inst := r.inst, at_ := some r.at_, ref := r.ref } s) s

/-- Raises a plain event record. -/
def emit (code cls : Nat) (params : Bytes) (s : State) : State := emitX code cls params {} s
/-- Raises a fault for one instance. -/
def emitF (code cls : Nat) (inst params : Bytes) (s : State) : State := emitX code cls params { inst := inst } s
/-- Raises a clearing record for one instance (R46). -/
def emitC (code cls : Nat) (inst params : Bytes) (s : State) : State :=
  emitX code cls params { inst := inst, clear := true } s

/-- Raises a record that concerns a command, with its TAG (R139). -/
def emitT (tag : Option Nat) (code cls : Nat) (params : Bytes) (s : State) : State := emitX code cls params { tag := tag } s
/-- `EV_QUEUE_OVERFLOW` of a row of Table 4-2, with the entries discarded (R79). -/
def queueOverflow (row n : Nat) (s : State) : State :=
  if n = 0 then s else emit evQueueOverflow 1 (byte row :: le16 (sat 65535 n)) s
/-- The sequence number of the newest record of a source, for a reference (R87). -/
def lastSeq (s : State) (src : Nat) : Nat := (s.evt.seq.getD src 0 + 65535) % 65536
/-- The reference to the newest record of the source of a code. -/
def refTo (code : Nat) (s : State) : Nat × Nat := (code / 256, lastSeq s (code / 256))
/-- A reference is given only to a record of another source (R87). -/
def foreign (code : Nat) (ref : Nat × Nat) : Nat × Nat := if ref.1 = code / 256 then (0, 0) else ref

/-- The newest record of a code that the trace or its source's queue holds, for a reference (R87). -/
def newestRef (code : Nat) (is : EvRec → Bool) (s : State) : Nat × Nat :=
  match ((s.evt.trace ++ s.evt.queues.getD (code / 256) [] ++ s.evt.pinned).filter (fun r => r.code == code && !r.clear && is r)).getLast? with
  | some r => (r.source, r.seq)
  | none => (0, 0)
/-- The first active fault of some codes, for a reference (R87). -/
def faultRef (codes : List Nat) (s : State) : Nat × Nat :=
  match s.flt.active.find? (fun f => codes.contains f.code) with
  | some f => (f.source, f.seq)
  | none => (0, 0)

/-- Adds a trace-only record (R466). -/
def traceOnly (src : Nat) (params : Bytes) (s : State) : State :=
  s.onEvt (fun e => { e with trace := lastN 512 (e.trace ++ [{ source := src, time := tide s, params := params }]) })

/-- A record raised at most once in `us` microseconds: whether it may be raised now, and the note of it. -/
def rateLimit (key us : Nat) (s : State) : Bool × State :=
  match s.evt.limits.find? (fun l => l.1 == key) with
  | some l => if s.clk.mono < l.2 + us then (false, s)
      else (true, s.onEvt (fun e => { e with limits := (key, s.clk.mono) :: e.limits.filter (fun x => x.1 ≠ key) }))
  | none => (true, s.onEvt (fun e => { e with limits := (key, s.clk.mono) :: e.limits }))

/-- SECURITY records are held back (R465, R472): the pinned queue is full or 48 log entries wait. -/
def pinnedBusy (s : State) : Bool := s.evt.pinned.length ≥ 64 || s.evt.backlog.length ≥ 48

/-! ### Energy (R56, R59, R60) -/

/-- C_hold for the energy check, in 0.01 uF: the measurement of this start-up, or the stand-in of R59. -/
def cHold (s : State) : Nat :=
  match s.pwr.hold with
  | some (c, _) => 10 * c
  | none => 8 * (match recBody s 0x0053 0 with
      | some b => min 2200 (u16 b 0)
      | none => 2200)

/-- The best capacitance known, in 0.1 uF (log 3). -/
def cBest (s : State) : Nat :=
  match s.pwr.hold, recBody s 0x0053 0 with
  | some (c, _), _ => c
  | none, some b => u16 b 0
  | none, none => 2200
/-- The square of VHOLD now, in mV^2: the charger raises VHOLD at 60 mA (R56); in ride-through it carries the 150 mW of R71, reckoned
on the best capacitance known (log 3). -/
def vholdSq (s : State) : Nat :=
  let v := if s.pwr.charger then
      max s.pwr.vhold (min 15000 (s.pwr.chargeFrom.2 + 600 * (s.clk.mono - s.pwr.chargeFrom.1) / max 1 (cBest s)))
    else s.pwr.vhold
  match s.pwr.ride with
  | some t => v * v - 3000000 * (s.clk.mono - t) / max 1 (cBest s)
  | none => v * v
/-- VHOLD now, in mV. -/
def vholdNow (s : State) : Nat := isqrt (vholdSq s)

/-- E_usable, in uJ (R56). -/
def eUsable (s : State) : Nat := cHold s * (vholdSq s - 25000000) / 200000000

/-- The holdup measurement failed (Table 3-4). -/
def holdFailed (s : State) : Bool :=
  match s.pwr.hold with
  | some (c, esr) => c < 1000 || esr > 2000
  | none => false

/-- E_need of R60, in uJ. -/
def eNeed (cells erases : Nat) : Nat := 1200 + 150 * cells + 4000 * erases

/-- The energy check of R60: the log's condition, or the one of every other write. -/
def energyOk (logWrite : Bool) (cells erases : Nat) (s : State) : Bool :=
  let have_ := cHold s * (vholdSq s - 25000000)
  let need := 3 * eNeed cells erases
  if logWrite then have_ ≥ 100000000 * need else have_ ≥ 100000000 * (need + 8000)

/-! ### What keeps Flood, and the conditions of Neap (Table 3-7, R65) -/

/-- A session is open (R260, R264). -/
def sessionOpen (s : State) : Bool := !s.rel.access.isEmpty || s.rel.start.isSome
/-- No write is queued, paused or in progress. -/
def storeIdle (s : State) : Bool := s.store.queue.isEmpty && s.store.cur.isNone && s.store.paused.isEmpty
/-- A burst that keeps Flood: any but a keep-fresh refresh (R171). -/
def Burst.keeps (b : Burst) (s : State) : Bool := b.kind ≠ .refresh || s.path.isSome
/-- Nothing keeps Flood (Table 3-7). -/
def floodIdle (s : State) : Bool :=
  s.path.isNone && s.paths.isEmpty && !sessionOpen s && s.uwb.sessions.isEmpty && s.uwb.due.isEmpty && s.uwb.refl = 0 &&
  s.rad.tx.isNone && s.rad.run.isNone && s.rad.calReq.isEmpty && s.lf.soundMask = 0 &&
  !(s.lf.cur.toList ++ s.lf.queued.toList).any (fun b => b.keeps s)
/-- The conditions of R65, SPI_CS_N counting with the SPI transport alone (R88), an empty fault queue (Table 21-8), no consumer that waits for
random numbers (Table 15-8), and no ride-through and no handling of a fault (DESIGN CHOICE, log 111); `except` is the command in flight that `POWER_REQUEST` does not count. -/
def neapReady (except : Option CmdRef) (s : State) : Bool :=
  let others := fun (m : Bool) => (s.box m).inFlight.filter (fun t => match except with
    | some r => !(r.member = m && r.tag = t)
    | none => true)
  param s 0x0103 = 1 && s.path.isNone && s.paths.isEmpty && !sessionOpen s && s.uwb.sessions.isEmpty && s.uwb.due.isEmpty &&
  storeIdle s && s.sec.sign.isNone && (others false).isEmpty && (others true).isEmpty && s.evt.ring.isEmpty &&
  s.evt.queues.all List.isEmpty && s.evt.cmdDone.isEmpty && s.evt.pinned.isEmpty && s.evt.backlog.isEmpty && s.flt.queue.isEmpty &&
  s.flt.handling.isNone && s.rng.waiting.isEmpty && vholdSq s ≥ 196000000 && (!s.pwr.csLow || param s 0x0001 ≠ 0) && !riding s &&
  (!s.pair.up || (s.pair.role = .headland && s.pair.neapOk))

/-! ### Time -/

/-- A running timer counts `n` ticks; the model holds it one tick short of its match and of its end, which are rows of
their own (log 1). -/
def Timer.pass (n : Nat) (t : Timer) : Timer :=
  if !t.run then t else
  let c := t.count.toNat
  let stop := if t.compare.toNat ≥ c then t.compare.toNat - 1 else if c < 0xFFFFFFFF then 0xFFFFFFFE else c
  { t with count := BitVec.ofNat 32 (max c (min (c + n) stop)) }

/-- A timer is frozen by its owner's halt (R401). -/
def timerFrozen (s : State) (n : Nat) (t : Timer) : Bool :=
  t.ctrl.getLsbD 7 && (if n < 16 then s.sec.halted.1 else s.sec.halted.2)

/-- SLOW edges up to base time `t`, at the present period. -/
def slowEdges (s : State) (t : Nat) : Nat := t * 65536 / max 1 s.clk.slowPeriod
/-- How many ticks of a timer's clock came in the `us` microseconds that end now, outside Neap (Table 17-2). -/
def ticksOf (s : State) (t : Timer) (us : Nat) : Nat :=
  match (t.ctrl >>> 2).toNat % 4 with
  | 0 => 200 * us
  | 1 => us
  | _ => slowEdges s (now s) - slowEdges s (now s - us)

/-- Timers advance with time (R392). -/
def timersPass (us : Nat) (s : State) : State :=
  { s with timers := s.timers.zipIdx.map (fun (t, n) => if timerFrozen s n t then t else t.pass (ticksOf s t us)) }

/-- A core's CYCLE counter advances, through stalls and debug halts (Table 18-9). -/
def Core.pass (us : Nat) (c : Core) : Core := { c with cycle := c.cycle + BitVec.ofNat 64 (200 * us) }

/-- The base advances: the slew is taken at every 16th base tick (R82), and a wrap raises `EV_TIDE_WRAP` (R80). -/
def advanceBase (us : Nat) (s : State) : State :=
  let t0 := tide s
  let b := s.clk.base
  let k := min s.clk.slew ((b + us) / 16 - b / 16)
  let s := s.onClk (fun c => { c with base := b + us, mono := c.mono + us, offset := c.offset - k, slew := c.slew - k })
  if us > 0 && (tide s < t0 || us - k ≥ 2 ^ 48) then emitX evTideWrap 0 [] { at_ := some 0 } s else s

/-- CORE runs (Table 4-1): from reset release on, in STARTUP, Slack, Flood, Stranded and Breach. -/
def coreClock (s : State) : Bool :=
  (s.pwr.phase = .rom || s.pwr.phase = .firmware || s.pwr.phase = .ready) && s.pwr.state ≠ .neap && s.pwr.state ≠ .off
/-- The timers and the cores' CYCLE count from reset release on (Tables 4-1, 18-9). -/
def countersPass (us : Nat) (s : State) : State :=
  if coreClock s then timersPass us { s with cc := s.cc.pass us, xc := s.xc.pass us } else s
/-- The running invocation's budget is used up, but for a debug halt (R419, R421). -/
def budgetPass (us : Nat) (s : State) : State :=
  if s.ext.cur.isSome && !s.sec.halted.2 then s.onExt (fun e => { e with left := e.left - 200 * us }) else s
/-- Notes until when something has kept Flood, and until when a condition of R65 has not held, as `s0` shows for the time that passed. -/
def idlePass (s0 s : State) : State :=
  let f := floodIdle s0
  let n := neapReady none s0
  s.onClk (fun c => { c with floodFrom := if f then c.floodFrom else c.base, neapFrom := if n then c.neapFrom else c.base })
/-- A frame handed to a CAN controller enters its queue of 8, or waits for room in it (Table 4-2, R79). -/
def canPut (f : CanFrame) (b : Buses) : Buses :=
  if (b.canTx.filter (fun x => x.bus == f.bus)).length < 8 && !b.canWait.any (fun x => x.bus == f.bus) then { b with canTx := b.canTx ++ [f] }
  else { b with canWait := b.canWait ++ [f] }
/-- A fault kind of a bus is diagnosed (R484, R46), or clears; the buses are 0 to 5, and each kind stands on its own. -/
def busDiag (bus kind : Nat) (clear : Bool) (s : State) : State :=
  if bus ≥ 6 || kind = 0 || kind > 5 || bitSet (s.bus.bus.getD bus {}).kinds kind != clear then s else
  let s := s.onBus (fun b => { b with bus := modAt b.bus bus (fun x => { x with kinds := if clear then clrBit x.kinds kind else setBit x.kinds kind }) })
  if clear then emitC evBusFault 1 [byte bus, byte kind] [byte bus, byte kind] s
  else emitF evBusFault 1 [byte bus, byte kind] [byte bus, byte kind] s
/-- A bus, 0 to 5, carries a diagnosis that takes its line out of use (R47, Table 22-2 kinds 1 to 3). -/
def busFaulted (s : State) (k : Nat) : Bool := ((s.bus.bus.getD k {}).kinds &&& 0xE) ≠ 0
/-- A CAN controller, 1 or 2, takes part in its bus (R47, R75, R481). -/
def canUp (s : State) (bus : Nat) : Bool :=
  s.clk.xtal26 && (let b := s.bus.bus.getD (bus - 1) {}; b.state = 1 || b.state = 2) && !busFaulted s (bus - 1)
/-- The freshness value of a release frame (Table 11-3). -/
def relFresh (f : CanFrame) : Nat := if u8 f.bytes 0 ≥ 2 then beNat (slice f.bytes 4 4) else beNat (slice f.bytes 2 4)
/-- A release frame has been sent: its value bounds the echo (R276), and the bus's transmit timeout clears (R484). -/
def relSent (s : State) (f : CanFrame) : State :=
  let v := relFresh f
  busDiag (f.bus - 1) 5 true (s.onRel (fun r => { r with
    lastSent := some (max v (r.lastSent.getD 0)),
    firstSent := if u8 f.bytes 1 = 2 && r.firstSent.isNone then some v else r.firstSent }))
/-- Frames leave the queues of the controllers that are on their bus, at the first tick after, a release frame within 5 ms (R274,
log 88); the room takes those that waited. -/
def canPass (s : State) : State :=
  if s.bus.canTx.isEmpty then s else
  let goes := fun (f : CanFrame) => canUp s f.bus && (!f.rel || now s ≤ f.at_ + 5000)
  (s.bus.canTx.filter (fun f => goes f && f.rel)).foldl relSent
    (s.onBus (fun b => b.canWait.foldl (fun b f => canPut f b) { b with canTx := b.canTx.filter (fun f => !goes f), canWait := [] }))
/-- Time passes outside Neap. -/
def passUs (us : Nat) (s : State) : State := idlePass s (canPass (budgetPass us (countersPass us (advanceBase us s))))

/-- One SLOW edge in Neap (R81): the fractional accumulator carries the part of a microsecond. -/
def passSlowEdge (s : State) : State :=
  let t := s.clk.frac + s.clk.pBefore
  let s := advanceBase (t / 65536) s
  s.onClk (fun c => { c with frac := t % 65536, edges := c.edges + 1 })

/-- Time reaches an instant that a time-driven command states, when it is still ahead (log 1). -/
def advanceTo (t : Nat) (s : State) : State := if t ≤ s.clk.base then s else passUs (t - s.clk.base) s

/-- Time reaches a due instant; in Neap time runs on SLOW edges alone (log 1). -/
def dueAt (t : Nat) (s : State) : State := if s.pwr.state = .neap then s else advanceTo t s
/-- The same for an instant of the retained clock. -/
def monoAt (t : Nat) (s : State) : State := dueAt (now s + (t - s.clk.mono)) s

/-- What a step does on an empty queue (log 1): one base tick passes, one SLOW edge in Neap, nothing in OFF. -/
def passTime (s : State) : State :=
  match s.pwr.state with
  | .off => s
  | .neap => passSlowEdge s
  | _ => passUs 1 s

end Sys2Proof.Machine
end

