-- ==== Sys2Proof/Machine/Mem.lean ====
section
/-! DEFINITION. The byte memory of an Auham core (R408, Table 19-1): a list of cells in rising order of address in which no cell
holds 0, which is what an unlisted address reads as (log 3). -/

namespace Sys2Proof.Machine
open Sys2Proof

/-- The addresses rise strictly from `lo` on and no listed byte is 0. -/
def memSorted : Nat → List Host.Cell → Bool
  | _, [] => true
  | lo, c :: r => decide (lo ≤ c.1) && c.2 != 0 && memSorted (c.1 + 1) r
/-- The canonical form of a memory. -/
def Memory.wf (m : List Host.Cell) : Bool := memSorted 0 m

/-- The byte at an address. -/
def memRead (m : List Host.Cell) (a : Nat) : Byte := ((m.find? (fun c => c.1 == a)).map (·.2)).getD 0
/-- `n` bytes from an address. -/
def memReadN (m : List Host.Cell) (a n : Nat) : Bytes := (List.range n).map (fun i => memRead m (a + i))
/-- The cells of bytes laid out from an address. -/
def cellsOf : Nat → Bytes → List Host.Cell
  | _, [] => []
  | a, b :: r => if b = 0 then cellsOf (a + 1) r else (a, b) :: cellsOf (a + 1) r
/-- Bytes stored from an address on. -/
def memPut (m : List Host.Cell) (a : Nat) (bs : Bytes) : List Host.Cell :=
  m.filter (fun c => c.1 < a) ++ cellsOf a bs ++ m.filter (fun c => a + bs.length ≤ c.1)
/-- `n` bytes zeroed from an address on. -/
def memClear (m : List Host.Cell) (a n : Nat) : List Host.Cell :=
  m.filter (fun c => c.1 < a) ++ m.filter (fun c => a + n ≤ c.1)

/-- Changes the extension core's memory. -/
def onExtMem (f : List Host.Cell → List Host.Cell) (s : State) : State := { s with xc := { s.xc with mem := f s.xc.mem } }

end Sys2Proof.Machine
end

