-- ==== Sys2Proof/Machine/ExtOps.lean ====
section
/-! DEFINITION. The plug-in slots, the invocation queue and the receive buffers of the extension core (19_extension_core, R418 to
R422, R426). -/

namespace Sys2Proof.Machine
open Sys2Proof

/-- Plug-in slot `i`. -/
def slotOf (s : State) (i : Nat) : Slot := s.ext.slots.getD i {}
/-- Changes a slot. -/
def onSlot (i : Nat) (f : Slot → Slot) (s : State) : State := s.onExt (fun e => { e with slots := modAt e.slots i f })
/-- A slot is loaded and not suspended. -/
def slotLive (s : State) (i : Nat) : Bool := (slotOf s i).state = 1

/-- Queues an invocation for a live slot whose event mask has the bit (R419, Table 19-2); a full queue discards it (R420). -/
def queueInvoc (v : Invoc) (s : State) : Bool × State :=
  if !slotLive s v.slot || !bitSet (slotOf s v.slot).events v.event || halted s || s.ext.queue.length ≥ 16 then (false, s)
  else (true, s.onExt (fun e => { e with queue := e.queue ++ [{ v with time := tide s }] }))
/-- An event for every slot that asks for it (Table 19-3). -/
def notifySlots (event : Nat) (body : Bytes) (s : State) : State :=
  (List.range 4).foldl (fun s i => (queueInvoc { slot := i, event := event, body := body } s).2) s
/-- The loaded slot that owns a timer of T16 to T23. -/
def timerOwner (s : State) (n : Nat) : Option Nat :=
  (List.range 4).find? (fun i => (slotOf s i).state ≠ 0 && bitSet (slotOf s i).timers (n - 16))
/-- A match of T16 to T23 with `MIE` set is an event for its owner (Table 19-3). -/
def timerEvent (n : Nat) (s : State) : State :=
  if n < 16 || !(s.timers.getD n {}).ctrl.getLsbD 4 then s else
  match timerOwner s n with
  | some i => (queueInvoc { slot := i, event := 6, body := [byte n] } s).2
  | none => s

/-- A plug-in trap or budget overrun is counted; the fourth within 10 minutes suspends the slot (R422). -/
def countTrouble (i : Nat) (overrun : Bool) (s : State) : State :=
  onSlot i (fun x =>
    let ts := x.times.filter (fun t => now s < t + 600000000) ++ [now s]
    { x with traps := if overrun then x.traps else sat 0xFFFF (x.traps + 1),
             overruns := if overrun then sat 0xFFFF (x.overruns + 1) else x.overruns,
             times := ts, state := if ts.length ≥ 4 && x.state = 1 then 2 else x.state }) s

/-- Volatile keys are erased (R427). -/
def eraseVol (s : State) : State :=
  s.onExt (fun e => { e with slots := e.slots.map (fun x => { x with vol := [none, none, none, none] }) })

/-- The live slot that claims a frame type. -/
def claimant (s : State) (type : Nat) : Option Nat :=
  (List.range 4).find? (fun i => slotLive s i && (slotOf s i).claims.contains type && type ≠ 0)

/-- A receive buffer's bytes (R426). -/
def recvBytes (body : Bytes) (poll : Byte) (syncEnd : Nat) (off : Option Int) (serial : Nat) : Bytes :=
  le16 body.length ++ [poll, 0] ++ le48 syncEnd ++ le16 (match off with | some o => twos 16 o | none => 0x8000) ++
    le16 serial ++ [0, 0] ++ padTo 240 body

/-- A frame of a claimed type goes into the lowest free receive buffer and is offered to its slot; a frame that finds no buffer or
no room in the queue counts as unclaimed (R420). The serial is the frame's own. -/
def offerFrame (slot : Nat) (body : Bytes) (poll : Byte) (syncEnd : Nat) (off : Option Int) (s : State) : Bool × State :=
  match (List.range 16).find? (fun k => !s.ext.rxUsed.contains k) with
  | none => (false, s)
  | some k =>
    let serial := s.ext.serial
    let (ok, s) := queueInvoc { slot := slot, event := 3, body := [byte k], buffer := some k } s
    if !ok then (false, s) else
    (true, (onExtMem (fun m => memPut m (0x20000 + 256 * k) (recvBytes body poll syncEnd off serial)) s).onExt (fun e => { e with
      rxUsed := e.rxUsed ++ [k], serial := (serial + 1) % 65536 }))

end Sys2Proof.Machine
end

