-- ==== Sys2Proof/Machine/Crypto.lean ====
section
/-! DEFINITION. The ciphers, hashes and checks the manual names: CRC-32C (R99), AES with CMAC, GCM and key wrap
(R119, R218, R334), SHAKE256 (R118). Their algorithms are those of the standards the manual names (log 5, PRESUMED). -/

namespace Sys2Proof.Machine
open Sys2Proof

/-- One bit of a reflected CRC. -/
def crcBit (poly : Nat) (c : Nat) : Nat := if c % 2 = 1 then (c / 2) ^^^ poly else c / 2
/-- `n` bits of a reflected CRC. -/
def crcBits (poly : Nat) : Nat → Nat → Nat
  | 0, c => c
  | n + 1, c => crcBits poly n (crcBit poly c)
/-- CRC-32C of R99. -/
def crc32c (b : Bytes) : Nat :=
  (b.foldl (fun c x => crcBits 0x82F63B78 8 (c ^^^ x.toNat)) 0xFFFFFFFF) ^^^ 0xFFFFFFFF

/-- `n` bits of an unreflected 16-bit CRC. -/
def crc16Bits (poly : Nat) : Nat → Nat → Nat
  | 0, c => c
  | n + 1, c => crc16Bits poly n (if c ≥ 0x8000 then ((2 * c) % 65536) ^^^ poly else (2 * c) % 65536)
/-- An unreflected CRC-16 with its polynomial and initial value. -/
def crc16 (poly init : Nat) (b : Bytes) : Nat :=
  b.foldl (fun c x => crc16Bits poly 8 (c ^^^ (x.toNat * 256))) init
/-- Eight steps of a CRC that takes the least significant bit first, poly 0x8408. -/
def fcsBits : Nat → Nat → Nat
  | 0, c => c
  | n + 1, c => fcsBits n (if c % 2 = 1 then (c / 2) ^^^ 0x8408 else c / 2)
/-- The standard 16-bit FCS of an IEEE 802.15.4 frame (Table 10-1): initial value 0, low byte sent first (PRESUMED, log 119). -/
def fcs (b : Bytes) : Bytes :=
  let c := b.foldl (fun c x => fcsBits 8 (c ^^^ x.toNat)) 0
  [BitVec.ofNat 8 c, BitVec.ofNat 8 (c / 256)]

/-- The AES substitution table, 256 bytes packed with entry 0 lowest. -/
def sboxTable : Nat := 0x16bb54b00f2d99416842e6bf0d89a18cdf2855cee9871e9b948ed9691198f8e19e1dc186b95735610ef6034866b53e708a8bbd4b1f74dde8c6b4a61c2e2578ba08ae7a65eaf4566ca94ed58d6d37c8e779e4959162acd3c25c2406490a3a32e0db0b5ede14b8ee4688902a22dc4f816073195d643d7ea7c41744975fec130ccdd2f3ff1021dab6bcf5389d928f40a351a89f3c507f02f94585334d43fbaaefd0cf584c4a39becb6a5bb1fc20ed00d153842fe329b3d63b52a05a6e1b1a2c830975b227ebe28012079a059618c323c7041531d871f1e5a534ccf73f362693fdb7c072a49cafa2d4adf04759fa7dc982ca76abd7fe2b670130c56f6bf27b777c63
/-- The inverse substitution table. -/
def sboxInvTable : Nat := 0x7d0c2155631469e126d677ba7e042b17619953833cbbebc8b0f52aae4d3be0a0ef9cc9939f7ae52d0d4ab519a97f51605fec8027591012b131c7078833a8dd1ff45acd78fec0db9a2079d2c64b3e56fc1bbe18aa0e62b76f89c5291d711af1476edf751ce837f9e28535ade72274ac9673e6b4f0cecff297eadc674f4111913a6b8a130103bdafc1020f3fca8f1e2cd00645b3b80558e4f70ad3bc8c00abd890849d8da75746155edab9edfd5048706c92b6655dcc5ca4d41698688664f6f87225d18b6d49a25b76b224d92866a12e084ec3fa420b954cee3d23c2a632947b54cbe9dec444438e3487ff2f9b8239e37cfbd7f3819ea340bf38a53630d56a0952
/-- One substitution. -/
def sub8 (t x : Nat) : Nat := (t >>> (8 * x)) % 256
/-- Multiplication by x in the AES field. -/
def xtime (a : Nat) : Nat := if a ≥ 128 then (2 * a) ^^^ 0x11B else 2 * a
/-- Multiplication by a constant below 16 in the AES field. -/
def gmul (k a : Nat) : Nat :=
  let a2 := xtime a
  let a4 := xtime a2
  (if k.testBit 0 then a else 0) ^^^ (if k.testBit 1 then a2 else 0) ^^^ (if k.testBit 2 then a4 else 0) ^^^
    (if k.testBit 3 then xtime a4 else 0)

/-- Bytewise exclusive or, as long as the shorter. -/
def xorB (a b : List Nat) : List Nat := List.zipWith (· ^^^ ·) a b

/-- The next schedule word from the previous one and the one `nk` before. -/
def ksWord (nk i rcon : Nat) (prev back : List Nat) : List Nat :=
  let t := if i % nk = 0 then
      (match prev with
       | [a, b, c, d] => [sub8 sboxTable b ^^^ rcon, sub8 sboxTable c, sub8 sboxTable d, sub8 sboxTable a]
       | _ => prev)
    else if nk > 6 ∧ i % nk = 4 then prev.map (sub8 sboxTable) else prev
  xorB t back
/-- The key schedule, words newest first. -/
def ksGo (nk : Nat) : Nat → Nat → Nat → List (List Nat) → List (List Nat)
  | 0, _, _, ws => ws
  | n + 1, i, rcon, ws =>
    let w := ksWord nk i rcon (ws.headD []) (ws.getD (nk - 1) [])
    ksGo nk n (i + 1) (if i % nk = 0 then xtime rcon else rcon) (w :: ws)

/-- A list cut into pieces of `n`, over fuel. -/
def chunksAux {α : Type} (n : Nat) : Nat → List α → List (List α)
  | 0, _ => []
  | k + 1, l => if l.isEmpty then [] else l.take n :: chunksAux n k (l.drop n)
/-- A list cut into pieces of `n`. -/
def chunks {α : Type} (n : Nat) (l : List α) : List (List α) := chunksAux n l.length l

/-- The round keys of an AES key of 16 or 32 bytes. -/
def aesKeys (key : Bytes) : List (List Nat) :=
  let nk := key.length / 4
  let ws := (ksGo nk (4 * (nk + 7) - nk) nk 1 (chunks 4 (key.map BitVec.toNat)).reverse).reverse
  (chunks 4 ws).map List.flatten

/-- Substitution and row shift of a block, column order. -/
def aesShift (b : List Nat) : List Nat :=
  [0, 5, 10, 15, 4, 9, 14, 3, 8, 13, 2, 7, 12, 1, 6, 11].map (fun i => b.getD i 0)
/-- The inverse row shift. -/
def aesUnshift (b : List Nat) : List Nat :=
  [0, 13, 10, 7, 4, 1, 14, 11, 8, 5, 2, 15, 12, 9, 6, 3].map (fun i => b.getD i 0)
/-- A column mix with four constants. -/
def aesMix (k0 k1 k2 k3 : Nat) (b : List Nat) : List Nat :=
  (chunks 4 b).flatMap (fun c => match c with
    | [a, b, c, d] => [gmul k0 a ^^^ gmul k1 b ^^^ gmul k2 c ^^^ gmul k3 d, gmul k3 a ^^^ gmul k0 b ^^^ gmul k1 c ^^^ gmul k2 d,
        gmul k2 a ^^^ gmul k3 b ^^^ gmul k0 c ^^^ gmul k1 d, gmul k1 a ^^^ gmul k2 b ^^^ gmul k3 c ^^^ gmul k0 d]
    | l => l)
/-- The rounds of an encryption; the last has no column mix. -/
def aesRounds : List (List Nat) → List Nat → List Nat
  | [], b => b
  | [k], b => xorB (aesShift (b.map (sub8 sboxTable))) k
  | k :: ks, b => aesRounds ks (xorB (aesMix 2 3 1 1 (aesShift (b.map (sub8 sboxTable)))) k)
/-- The rounds of a decryption, round keys last first. -/
def aesUnrounds : List (List Nat) → List Nat → List Nat
  | [], b => b
  | [k], b => xorB ((aesUnshift b).map (sub8 sboxInvTable)) k
  | k :: ks, b => aesUnrounds ks (aesMix 14 11 13 9 (xorB ((aesUnshift b).map (sub8 sboxInvTable)) k))
/-- One block encrypted (FIPS 197). -/
def aesEnc (key block : Bytes) : Bytes :=
  match aesKeys key with
  | k :: ks => (aesRounds ks (xorB (block.map BitVec.toNat) k)).map byte
  | [] => block
/-- One block decrypted. -/
def aesDec (key block : Bytes) : Bytes :=
  match (aesKeys key).reverse with
  | k :: ks => (aesUnrounds ks (xorB (block.map BitVec.toNat) k)).map byte
  | [] => block

/-- Bytewise exclusive or of byte strings. -/
def xorBytes (a b : Bytes) : Bytes := List.zipWith (· ^^^ ·) a b

/-- Doubling in the CMAC field. -/
def cmacDouble (b : Bytes) : Bytes :=
  let n := beNat b
  beBytes 16 (((2 * n) % 2 ^ 128) ^^^ (if n ≥ 2 ^ 127 then 0x87 else 0))
/-- AES-CMAC (NIST SP 800-38B). -/
def cmac (key msg : Bytes) : Bytes :=
  let k1 := cmacDouble (aesEnc key (zeroBytes 16))
  let k2 := cmacDouble k1
  let full := msg.length ≠ 0 ∧ msg.length % 16 = 0
  let padded := if full then msg else padTo (16 * (msg.length / 16 + 1)) (msg ++ [0x80])
  let body := padded.take (padded.length - 16)
  let last := xorBytes (padded.drop (padded.length - 16)) (if full then k1 else k2)
  aesEnc key (xorBytes ((chunks 16 body).foldl (fun c x => aesEnc key (xorBytes c x)) (zeroBytes 16)) last)

/-- One step of the GHASH multiplication, bits of `x` from the top. -/
def ghashMul : Nat → Nat → Nat → Nat → Nat
  | 0, _, _, z => z
  | n + 1, x, v, z =>
    ghashMul n x (if v % 2 = 1 then (v / 2) ^^^ (0xE1 * 2 ^ 120) else v / 2) (if x.testBit n then z ^^^ v else z)
/-- GHASH over whole blocks. -/
def ghash (h : Nat) (b : Bytes) : Nat :=
  (chunks 16 b).foldl (fun y x => ghashMul 128 (y ^^^ beNat x) h 0) 0
/-- Bytes padded with zeros to whole blocks. -/
def pad16 (b : Bytes) : Bytes := b ++ zeroBytes ((16 - b.length % 16) % 16)
/-- AES counter mode from a 12-byte nonce, first counter `c`. -/
def gcmCtr (key nonce : Bytes) (c : Nat) (b : Bytes) : Bytes :=
  ((chunks 16 b).zipIdx.map (fun (x, i) => xorBytes x (aesEnc key (nonce ++ beBytes 4 (c + i))))).flatten
/-- The GCM tag over additional data and ciphertext. -/
def gcmTag (key nonce aad ct : Bytes) : Bytes :=
  let h := beNat (aesEnc key (zeroBytes 16))
  let s := ghash h (pad16 aad ++ pad16 ct ++ beBytes 8 (8 * aad.length) ++ beBytes 8 (8 * ct.length))
  xorBytes (beBytes 16 s) (aesEnc key (nonce ++ beBytes 4 1))
/-- AES-GCM encryption: ciphertext and tag. -/
def gcmSeal (key nonce aad pt : Bytes) : Bytes × Bytes :=
  let ct := gcmCtr key nonce 2 pt
  (ct, gcmTag key nonce aad ct)
/-- AES-GCM decryption, `none` when the tag is wrong. -/
def gcmOpen (key nonce aad ct tag : Bytes) : Option Bytes :=
  if gcmTag key nonce aad ct = tag then some (gcmCtr key nonce 2 ct) else none

/-- One wrapping step of RFC 3394: the register A and the blocks R. -/
def kwStep (key : Bytes) (t : Nat) (a r : Bytes) : Bytes × Bytes :=
  let b := aesEnc key (a ++ r)
  (beBytes 8 (beNat (b.take 8) ^^^ t), b.drop 8)
/-- One pass over the blocks. -/
def kwPass (key : Bytes) : Nat → Bytes → List Bytes → Bytes × List Bytes
  | _, a, [] => (a, [])
  | t, a, r :: rs =>
    let x := kwStep key t a r
    let y := kwPass key (t + 1) x.1 rs
    (y.1, x.2 :: y.2)
/-- Six passes. -/
def kwPasses (key : Bytes) : Nat → Nat → Bytes → List Bytes → Bytes × List Bytes
  | 0, _, a, rs => (a, rs)
  | n + 1, t, a, rs => let x := kwPass key t a rs; kwPasses key n (t + rs.length) x.1 x.2
/-- AES key wrap (RFC 3394). -/
def keyWrap (kek key : Bytes) : Bytes :=
  let x := kwPasses kek 6 1 (List.replicate 8 0xA6) (chunks 8 key)
  x.1 ++ x.2.flatten
/-- One unwrapping pass, blocks last first. -/
def kuPass (key : Bytes) : Nat → Bytes → List Bytes → Bytes × List Bytes
  | _, a, [] => (a, [])
  | t, a, r :: rs =>
    let b := aesDec key (beBytes 8 (beNat a ^^^ t) ++ r)
    let y := kuPass key (t - 1) (b.take 8) rs
    (y.1, b.drop 8 :: y.2)
/-- Six unwrapping passes. -/
def kuPasses (key : Bytes) : Nat → Nat → Bytes → List Bytes → Bytes × List Bytes
  | 0, _, a, rs => (a, rs)
  | n + 1, t, a, rs => let x := kuPass key t a rs; kuPasses key n (t - rs.length) x.1 x.2
/-- AES key unwrap, `none` when the integrity value is wrong. -/
def keyUnwrap (kek w : Bytes) : Option Bytes :=
  let rs := (chunks 8 (w.drop 8)).reverse
  let x := kuPasses kek 6 (6 * rs.length) (w.take 8) rs
  if x.1 = List.replicate 8 0xA6 then some x.2.reverse.flatten else none

/-- Rotation of a 64-bit lane. -/
def rot64 (n x : Nat) : Nat := ((x <<< n) % 2 ^ 64) ||| (x >>> (64 - n))
/-- Rho and pi: for each lane the source lane and its rotation (FIPS 202). -/
def keccakPi : List (Nat × Nat) := [(0, 0), (6, 44), (12, 43), (18, 21), (24, 14), (3, 28), (9, 20), (10, 3), (16, 45), (22, 61), (1, 1), (7, 6), (13, 25), (19, 8), (20, 18), (4, 27), (5, 36), (11, 10), (17, 15), (23, 56), (2, 62), (8, 55), (14, 39), (15, 41), (21, 2)]
/-- The round constants of FIPS 202. -/
def keccakRc : List Nat := [0x1, 0x8082, 0x800000000000808a, 0x8000000080008000, 0x808b, 0x80000001, 0x8000000080008081, 0x8000000000008009, 0x8a, 0x88, 0x80008009, 0x8000000a, 0x8000808b, 0x800000000000008b, 0x8000000000008089, 0x8000000000008003, 0x8000000000008002, 0x8000000000000080, 0x800a, 0x800000008000000a, 0x8000000080008081, 0x8000000000008080, 0x80000001, 0x8000000080008008]
/-- One round of Keccak-f[1600]. -/
def keccakRound (a : List Nat) (rc : Nat) : List Nat :=
  let g := fun i => a.getD i 0
  let c := (List.range 5).map (fun x => g x ^^^ g (x + 5) ^^^ g (x + 10) ^^^ g (x + 15) ^^^ g (x + 20))
  let d := (List.range 5).map (fun x => c.getD ((x + 4) % 5) 0 ^^^ rot64 1 (c.getD ((x + 1) % 5) 0))
  let t := a.zipIdx.map (fun (v, i) => v ^^^ d.getD (i % 5) 0)
  let b := keccakPi.map (fun (i, r) => rot64 r (t.getD i 0))
  let h := fun i => b.getD i 0
  (List.range 25).map (fun i =>
    let y := 5 * (i / 5)
    let v := h i ^^^ ((h (y + (i + 1) % 5) ^^^ (2 ^ 64 - 1)) &&& h (y + (i + 2) % 5))
    if i = 0 then v ^^^ rc else v)
/-- Keccak-f[1600]. -/
def keccakF (a : List Nat) : List Nat := keccakRc.foldl keccakRound a
/-- One block of 136 bytes absorbed. -/
def shakeAbsorb (a : List Nat) (blk : Bytes) : List Nat :=
  keccakF (List.zipWith (· ^^^ ·) a ((chunks 8 blk).map leNat ++ List.replicate 8 0))
/-- `n` output blocks. -/
def shakeSqueeze : Nat → List Nat → Bytes
  | 0, _ => []
  | n + 1, a => ((a.take 17).flatMap (leBytes 8)) ++ shakeSqueeze n (keccakF a)
/-- SHAKE256 with `n` output bytes (FIPS 202). -/
def shake256 (msg : Bytes) (n : Nat) : Bytes :=
  let m := msg ++ [0x1F]
  let p := padTo (136 * ((m.length + 135) / 136)) m
  let p := p.take (p.length - 1) ++ [(p.getLastD 0) ||| 0x80]
  (shakeSqueeze ((n + 135) / 136) ((chunks 136 p).foldl shakeAbsorb (List.replicate 25 0))).take n

end Sys2Proof.Machine
end

