-- ==== Sys2Proof/Machine/PairOps.lean ====
section
/-! DEFINITION. What this member sends its partner (20_redundant_pair): Causeway blocks (R433), mirror transactions (R442, Table
20-5), commit requests (R389) and the boundaries at which running parameter values are mirrored. -/

namespace Sys2Proof.Machine
open Sys2Proof

/-- The lower serial decides nonce order, directions and ties (R433, R434, R436): compared as little-endian numbers (log 24). -/
def ownLower (other : Bytes) : Bool := leNat Config.serial < leNat other
/-- The 64 bytes of a block (R433, Table 20-2): the header, the zero-padded payload under K_link, and the tag. -/
def linkBlock (p : Pair) (flags type : Nat) (payload : Bytes) : Bytes :=
  let hdr := [byte type, byte flags] ++ le16 payload.length ++ le32 p.tx
  match p.link with
  | some c =>
    let e := gcmSeal c.kGcm (c.salt ++ [if ownLower (p.serial.getD []) then 1 else 2, 0, 0, 0] ++ le32 p.tx) hdr (padTo 40 payload)
    hdr ++ e.1 ++ e.2
  | none => hdr ++ padTo 40 payload ++ zeroBytes 16
/-- Sends a block under its flags: numbered, and held for a resend (R433). -/
def sendFlagged (flags type : Nat) (payload : Bytes) (s : State) : State :=
  if !s.pair.up then s else
  s.onPair (fun p => { p with sent := lastN 256 (p.sent ++ [(p.tx, linkBlock p flags type payload)]), tx := p.tx + 1 })
/-- Sends a block that ends no mirror transaction. -/
def sendBlock (type : Nat) (payload : Bytes) (s : State) : State := sendFlagged 0 type payload s

/-- Headland with a partner that has joined. -/
def paired (s : State) : Bool := s.pair.role == .headland && s.pair.up && s.pair.joined

/-- An item of a mirror transaction as bytes. The manual gives the items and no layout (log 24). -/
def MirrorItem.bytes : MirrorItem → Bytes
  | .record t k b => 1 :: le16 t ++ le16 k ++ b
  | .param i v => 2 :: le16 i ++ le32 v
  | .pathState p a x => 3 :: byte p :: le32 (a - x.req.at_) ++ [byte x.req.trigger] ++ le16 x.req.doors ++ x.nDev ++
      x.auths.flatMap (fun u => le16 u.ans.idx ++ le32 u.ans.counter ++ u.kS)
  | .session i st tp d t r o => [4, (if st then 1 else 0) + (if tp then 2 else 0), (if o then 1 else 0)] ++ le16 i ++ le16 d ++ le16 t ++ r.flatMap le32
  | .located _ l r => 5 :: le16 l.idx ++ le32 l.mask ++ l.kS ++ l.reports.flatMap (fun x => byte x.1 :: x.2.2.1.map byte) ++
      r.flatMap (fun x => byte x.port :: le16 (x.dist.getD 0xFFFF))
  | .coupling r c x y a t => 6 :: byte r :: byte c :: leBytes 8 (twos 64 x) ++ leBytes 8 (twos 64 y) ++ le32 a ++ le16 (twos 16 t)
  | .command l t o p q => 7 :: byte l :: byte t :: le16 o ++ le32 q ++ p
  | .response l t o p => 8 :: byte l :: byte t :: le16 o ++ p
  | .power c => [9, byte c]
  | .freshness b => 10 :: le32 b
  | .link v k x r t => 11 :: byte v :: k ++ x ++ r.flatMap le32 ++ t.flatMap le32
  | .event r => 12 :: r

/-- Cuts bytes into payloads of at most 40. -/
def payloads : Nat → Bytes → List Bytes
  | 0, _ => []
  | n + 1, b => if b.length ≤ 40 then [b] else b.take 40 :: payloads n (b.drop 40)

/-- Changes are mirrored: to a joined partner, and to a joiner once its state transfer has been sent (R454). -/
def mirrors (s : State) : Bool := s.pair.role == .headland && s.pair.up && (s.pair.joined || s.pair.transfer.isSome)
/-- Sends a mirror transaction; it stays in the backlog until Lee acknowledges it (R442). -/
def mirror (items : List MirrorItem) (s : State) : State :=
  if !mirrors s || items.isEmpty then s else
  let b := items.flatMap MirrorItem.bytes
  let l := payloads (b.length / 40 + 1) b
  let s := sendFlagged 1 0x20 (l.getLast?.getD []) (l.dropLast.foldl (fun s p => sendBlock 0x20 p s) s)
  s.onPair (fun p => { p with mirrorTx := p.mirrorTx + 1, backlog := p.backlog ++ [(p.mirrorTx + 1, b.length)] })

/-- A path's or the freshness counter's write is sent to Lee as it is queued (R389); to a joiner it goes as a mirrored value. Only
a path's commit is awaited. -/
def askCommit (id value : Nat) (s : State) : State :=
  if !paired s then mirror [.record (0x8000 + id) 0 (le32 value)] s else
  let s := sendBlock 0x22 (le16 id ++ le32 value) s
  if id < 0x200 then s.onPair (fun p => { p with commits := p.commits ++ [(id, value, now s, 0)] }) else s

/-- The parameters in effect that differ from an earlier list, as mirrored items: those listed now, and those back at their defaults. -/
def paramChanges (old : List (Nat × Nat)) (s : State) : List MirrorItem :=
  (s.par.active.filter (fun e => !old.contains e)).map (fun e => .param e.1 e.2) ++
  (old.filter (fun e => !(s.par.active.any (fun x => x.1 == e.1)))).map (fun e => .param e.1 (pDefault e.1))
/-- A parameter boundary; what takes effect is mirrored (Table 20-5). -/
def boundaryM (b : Bound) (s : State) : State :=
  let old := s.par.active
  let s := boundary b s
  mirror (paramChanges old s) s

/-- The open sessions as mirrored items: remaining times in ms (R442). -/
def sessionItems (s : State) : List MirrorItem :=
  s.rel.access.map (fun a => .session a.id false false (a.doors.foldl (fun m d => setBit m d.door) 0) a.token
    ((bitsOf 16 (a.doors.foldl (fun m d => setBit m d.door) 0)).map (fun k =>
      (((a.doors.find? (fun d => d.door == k)).map (·.due)).getD 0 - now s) / 1000)) true) ++
  s.rel.start.toList.map (fun t => .session t.id true t.transponder 0 t.driver [(t.due - now s) / 1000] true)
/-- Sessions are mirrored at every change; a session that has ended too. -/
def mirrorSessions (ended : List Nat) (s : State) : State :=
  mirror (sessionItems s ++ ended.map (fun i => .session i false false 0 0 [] false)) s

/-- The path's state at one of the four points of R28: 0 wake sent, 1 answers, 2 authenticated, 3 counter committed. -/
def mirrorPath (point : Nat) (s : State) : State :=
  match s.path with
  | none => s
  | some p => mirror [.pathState point (now s) p] s
/-- The located set with its ranging results, mirrored at each decision. -/
def mirrorLocated (s : State) : State :=
  mirror (s.zon.located.map (fun l => .located (now s) l (s.uwb.results.filter (fun r => r.token == l.idx)))) s

end Sys2Proof.Machine
end

