-- ==== Sys2Proof/Machine/MbxOps.lean ====
section
/-! DEFINITION. The operations of the mailbox that every command shares (05_host_mailbox, 06_command_reference): responses,
completion events, control frames, the checks of Table 5-7 and the state classes of Table 6-1. -/

namespace Sys2Proof.Machine
open Sys2Proof

/-- The mailbox that carries this device's event records: the member mailbox while it is Lee (log 20). -/
def eventBox (s : State) : Bool := s.pair.role == .lee

/-- The pair mailbox's link as a mirrored item (Table 20-5). -/
def linkItem (s : State) : MirrorItem :=
  .link s.mbx.ifv ((s.mbx.chan.map (·.kGcm)).getD []) ((s.mbx.chan.map (·.salt)).getD []) s.mbx.rx s.mbx.tx
/-- The pair mailbox's link is mirrored. -/
def mirrorLink (s : State) : State := mirror [linkItem s] s

/-- Closes an open secure channel (R122): queued commands that have not begun are discarded, begun ones end without response, and their
completion records wait until the host has linked again. Outbound frames already queued stay, and go out unprotected (log 79). -/
def closeSecure (member : Bool) (reason : Nat) (s : State) : State :=
  let b := s.box member
  if b.chan.isNone then s else
  let waiting := (b.lanes.flatten).map (·.tag)
  let live := b.inFlight.filter (fun t => !waiting.contains t)
  let s := s.onBox member (fun b => { b with
    chan := none, pending := none, lanes := List.replicate 8 [],
    inFlight := live, muted := live, relink := live })
  let s := if member then { s with wasOpen := (s.wasOpen.1, false) } else { s with wasOpen := (false, s.wasOpen.2) }
  emit evMbxSecure 0 [byte reason] (if member then s else mirrorLink s)

/-- A sequence space whose next number reaches 0xF000_0000 raises `EV_MBX_REKEY_DUE` once (R120); inbound spaces count from 16. -/
def rekeyDue (member : Bool) (space seq : Nat) (s : State) : State :=
  let b := s.box member
  if seq ≥ 0xF0000000 && !b.rekeyRaised.contains space then
    emit evMbxRekeyDue 0 [byte (space % 16)] (s.onBox member (fun b => { b with rekeyRaised := space :: b.rekeyRaised }))
  else s
/-- Takes the next outbound sequence number of a space (R109, R120). Under a key the number after 0xFFFF_FFFE would be 0xFFFF_FFFF:
that frame is not sent and the channel closes. In the clear the space goes on at 0 (log 80). -/
def takeSeq (member : Bool) (space : Nat) (s : State) : Option Nat × State :=
  let b := s.box member
  let q := b.tx.getD space 0
  if b.chan.isSome && q ≥ 0xFFFFFFFF then (none, closeSecure member 7 s)
  else
    let q := if q ≥ 0xFFFFFFFF then 0 else q
    (some q, rekeyDue member space (q + 1) (s.onBox member (fun b => { b with tx := b.tx.set space (q + 1) })))

/-- Sends a control frame (Table 5-8), on a linked mailbox only (R102). -/
def sendCtl (member : Bool) (op : Nat) (b0 : Bytes) (v : Nat) (s : State) : State :=
  if !(s.box member).linked then s else
  match takeSeq member 8 s with
  | (none, s) => s
  | (some q, s) => s.onBox member (fun b => { b with outCtl := b.outCtl ++
      [{ ftype := 4, lane := 0, ifv := b.ifv, opcode := op, payload := padTo 4 b0 ++ le32 v, seq := q }] })

/-- `CTL_FRAME_ERROR`, at most once a millisecond for each reason (R102). -/
def frameError (member : Bool) (reason lane seq : Nat) (s : State) : State :=
  let b := s.box member
  if !b.linked then s else
  if b.errSent.any (fun e => e.1 == reason && now s < e.2 + 1000) then s else
  sendCtl member 0xC001 [byte reason, byte lane] seq
    (s.onBox member (fun b => { b with errSent := (reason, now s) :: b.errSent.filter (fun e => e.1 ≠ reason) }))

/-- Queues a frame for the host in its precedence (R108). -/
def pushOut (f : OutFrame) (b : Mbx) : Mbx :=
  if f.lane = 6 then { b with outPri := b.outPri ++ [f] } else { b with out := b.out ++ [f] }

/-- What a response carries (R101, R124): the status and a zero byte; the fields follow only `ST_OK`, but for `HELLO`, whose fields
Table 5-9 gives for a failure too. -/
def respBody (op status : Nat) (fields : Bytes) : Bytes := [byte status, 0] ++ (if status = stOk || op = 1 then fields else [])
/-- The response frame, mirrored; `fin` when the command's tag retires with it. -/
def sendResponse (flags : Nat) (fin : Bool) (ref : CmdRef) (status : Nat) (fields : Bytes) (s : State) : State :=
  match takeSeq ref.member ref.lane s with
  | (none, s) => s
  | (some q, s) =>
    let body := respBody ref.opcode status fields
    let s := if ref.member then s else mirror [.response ref.lane ref.tag ref.opcode body] s
    s.onBox ref.member (fun b => pushOut
      { ftype := 2, lane := ref.lane, flags := flags, tag := ref.tag, ifv := b.ifv, opcode := ref.opcode, payload := body, seq := q,
        fin := fin, answers := some ref.seq } b)

/-- Refuses an accepted command that has not begun (checks 8 to 13 of Table 5-7): its lane and the tags in flight stay as they are. -/
def refuse (flags : Nat) (ref : CmdRef) (status : Nat) (fields : Bytes) (s : State) : State := sendResponse flags false ref status fields s

/-- A command is over for its lane, which goes on once the answer is queued (R104; DESIGN CHOICE, log 126); a final answer that will not be
sent retires its tag (R106). -/
def endCommand (retire : Bool) (ref : CmdRef) (s : State) : State :=
  s.onBox ref.member (fun b => { b with
    busy := b.busy.set ref.lane false,
    inFlight := if retire then b.inFlight.erase ref.tag else b.inFlight,
    muted := if retire then b.muted.erase ref.tag else b.muted,
    relink := if retire then b.relink.erase ref.tag else b.relink })

/-- Answers a command that has begun: a muted command is not answered (R113, R122); a taken-over one carries `TAKEOVER` (R123). -/
def respondWith (flags : Nat) (ref : CmdRef) (status : Nat) (fields : Bytes) (s : State) : State :=
  let fin : Bool := status ≠ stAccepted
  let took := !ref.member && s.pair.taken.contains ref.tag
  if (s.box ref.member).muted.contains ref.tag then endCommand fin ref s
  else if took then
    sendResponse (flags + 1) fin ref status fields
      ((endCommand false ref s).onPair (fun p => if fin then { p with taken := p.taken.erase ref.tag } else p))
  else sendResponse flags fin ref status fields (endCommand false ref s)

/-- Answers a command without flags. -/
def respond (ref : CmdRef) (status : Nat) (fields : Bytes) (s : State) : State := respondWith 0 ref status fields s
/-- Answers `ST_OK` with its fields. -/
def reply (ref : CmdRef) (fields : Bytes) (s : State) : State := respond ref stOk fields s

/-- The completion record of a command answered `ST_ACCEPTED` (R129). -/
def cmdDone (ref : CmdRef) (status : Nat) (result : Bytes) (s : State) : State :=
  emitX evCmdDone 0 (le16 ref.opcode ++ [byte status, 0] ++ padTo 12 result) { tag := some ref.tag } s

/-- The completion record of a command, when there is one. -/
def cmdDoneO (ref : Option CmdRef) (status : Nat) (result : Bytes) (s : State) : State :=
  match ref with
  | some r => cmdDone r status result s
  | none => s

/-- An event record's 32 bytes (Table 6-11). -/
def EvRec.bytes (r : EvRec) : Bytes :=
  [byte r.source, byte (r.cls + (if r.clear then 4 else 0) + (if r.tag.isSome then 8 else 0))] ++ le16 r.seq ++ le48 r.time ++
  le16 r.code ++ [byte (r.tag.getD 0), byte r.refSource] ++ le16 r.refSeq ++ padTo 16 r.params

/-- Records of the host ring that no unacknowledged lane 7 frame carries yet. -/
def unsent (s : State) : List EvRec :=
  s.evt.ring.drop (((s.box (eventBox s)).unacked.map (fun u => u.2.length)).sum)

/-- A completion record of a command begun before a close waits until the host has linked again (R122). -/
def waitsForLink (b : Mbx) (r : EvRec) : Bool := r.code = evCmdDone && (match r.tag with | some t => b.relink.contains t | none => false)
/-- Puts waiting ring records into one lane 7 frame (R101, R112), at interface 2.1 on a linked mailbox. -/
def pumpEvents (s : State) : State :=
  let m := eventBox s
  let b := s.box m
  let recs := ((unsent s).take 32).takeWhile (fun r => !(waitsForLink b r))
  if recs.isEmpty || !b.linked || b.ifv < 0x20 || b.unacked.length ≥ 8 then s else
  match takeSeq m 7 s with
  | (none, s) => s
  | (some q, s) =>
    s.onBox m (fun b => { b with
      out := b.out ++ [{ ftype := 3, lane := 7, ifv := b.ifv, payload := recs.flatMap EvRec.bytes, seq := q }],
      unacked := b.unacked ++ [(q, recs)] })

/-- Offers every unacknowledged record again in new lane 7 frames (R113, R118). -/
def reoffer (member : Bool) (s : State) : State :=
  if member ≠ eventBox s then s else
  let n := (s.box member).unacked.length
  let s := s.onBox member (fun b => { b with unacked := [], out := b.out.filter (fun f => f.lane ≠ 7) })
  (List.range (max 1 n)).foldl (fun s _ => pumpEvents s) s

/-- Every sequence space starts at 0 and the retransmit store is empty (R109, R113, R118). -/
def resetSpaces (b : Mbx) : Mbx :=
  { b with rx := List.replicate 9 0, tx := List.replicate 9 0, held := List.replicate 7 [],
           gapHold := List.replicate 8 none, rekeyRaised := [] }

/-- Something that keeps Flood begins or ends now (Table 3-7). -/
def activity (s : State) : State := s.onClk (fun c => { c with floodFrom := c.base })
/-- Something that R65 waits for begins or ends now. -/
def neapStir (s : State) : State := s.onClk (fun c => { c with neapFrom := c.base })
/-- Flood (Table 3-7): begun by a path, a session or a command that needs LF, radio or UWB. -/
def enterFlood (s : State) : State :=
  if !awake s then s else
  activity ((if s.pwr.state = .flood then s else mirror [.power 3] s).onPwr (fun p => { p with state := .flood }))

/-! ### State classes and opcodes -/

/-- The state classes of Table 6-1. -/
inductive Cls where
  | L | R | C | T | K | S | X
deriving DecidableEq, Repr

/-- The opcodes of Tables 6-4 to 6-9 with their state classes. -/
def opClasses : List (Nat × Cls) := [
  (0x0001, .L), (0x0002, .L), (0x0003, .L), (0x0010, .L), (0x0011, .L), (0x0100, .R), (0x0101, .C), (0x0102, .R), (0x0103, .R),
  (0x0104, .R), (0x0105, .C), (0x0106, .C), (0x0107, .R), (0x0200, .T), (0x0201, .R), (0x0202, .C), (0x0203, .T), (0x0300, .C),
  (0x0301, .R), (0x0302, .C), (0x0303, .R), (0x0304, .R), (0x0400, .T), (0x0401, .K), (0x0402, .R), (0x0500, .R), (0x0501, .T),
  (0x0502, .R), (0x0600, .K), (0x0601, .R), (0x0602, .R), (0x0603, .K), (0x0604, .R), (0x0605, .C), (0x0700, .R), (0x0701, .C),
  (0x0702, .S), (0x0703, .R), (0x0704, .T), (0x0705, .X), (0x0800, .R), (0x0801, .C), (0x0802, .R), (0x0803, .C), (0x0900, .R),
  (0x0901, .R), (0x0902, .S), (0x0903, .R), (0x0A00, .S), (0x0A01, .S), (0x0A02, .S), (0x0A03, .R), (0x0A04, .R), (0x0A05, .R),
  (0x0A06, .S), (0x0B00, .R), (0x0B01, .C), (0x0B02, .S), (0x0C00, .S), (0x0C01, .S), (0x0C02, .R), (0x0D00, .T), (0x0D01, .R),
  (0x0E00, .R), (0x0E01, .C), (0x0E02, .C), (0x0E03, .R)]

/-- The state class of an opcode. -/
def opClass (op : Nat) : Option Cls := (opClasses.find? (fun e => e.1 == op)).map (·.2)

/-- The opcode is served at a negotiated version (R141, Table 6-13); `EVT_FETCH` is defined at 1.x only. -/
def opAt (ifv op : Nat) : Bool :=
  if ifv ≥ 0x20 then (opClass op).isSome && op ≠ 0x0900
  else
    let base := [0x0001, 0x0002, 0x0003, 0x0010, 0x0011, 0x0100, 0x0102, 0x0103, 0x0104, 0x0105, 0x0201, 0x0202, 0x0300, 0x0301,
      0x0400, 0x0401, 0x0402, 0x0600, 0x0601, 0x0602, 0x0603, 0x0604, 0x0605, 0x0700, 0x0800, 0x0801, 0x0802, 0x0900, 0x0901,
      0x0903, 0x0A05, 0x0B00, 0x0E00, 0x0E01, 0x0E02, 0x0E03]
    base.contains op && !(ifv < 0x12 && (op == 0x0605 || op == 0x0B00)) && !(ifv < 0x11 && (op == 0x0010 || op == 0x0011))

/-- The lane admits the opcode (R105, R128). -/
def laneAdmits (ifv op lane : Nat) : Bool :=
  if ifv < 0x20 then lane == 0
  else if op / 256 = 0x06 then lane == 6
  else if op = 0x0003 || op = 0x0100 || op = 0x0102 then lane ≤ 6
  else if op = 0x0001 || op = 0x0010 then lane == 0
  else lane ≤ 5

/-- Tags of the negotiated version (Table 5-10). -/
def tagLimit (ifv : Nat) : Nat := if ifv ≥ 0x20 then 128 else 32
/-- Largest payload of the negotiated version (Table 5-10). -/
def maxPayload (b : Mbx) : Nat := if !b.linked then 1024 else if b.ifv ≥ 0x12 then 1024 else 256

/-- The channel must be open for the command (R117). -/
def needsChannel (s : State) (op : Nat) : Bool :=
  lifecycle s ≠ .factory && !([0x0001, 0x0002, 0x0003, 0x0010, 0x0011].contains op)

/-- Checks 9 to 13 of Table 5-7 on an accepted command: the status of the first failure. -/
def acceptCheck (member : Bool) (flags lane tag op : Nat) (s : State) : Option (Nat × Nat) :=
  let b := s.box member
  if flags ≠ 0 || tag ≥ tagLimit b.ifv then some (stBadParam, 0)
  else if b.inFlight.contains tag then some (stBusy, 2)
  else if b.chan.isNone && needsChannel s op then some (stDenied, 0)
  else if !opAt b.ifv op then some (stBadOpcode, 0)
  else if !laneAdmits b.ifv op lane then some (stBadParam, 0)
  else none

/-- Token records are present (Table 6-1 class K). -/
def haveTokens (s : State) : Bool := !(recKeys s 0x0030).isEmpty

/-- What the boot ROM's recovery mailbox serves (R342). -/
def recoveryOps : List Nat := [0x0001, 0x0002, 0x0003, 0x0010, 0x0011, 0x0A00, 0x0A01, 0x0103]

/-- The state class admits the command now (R127, R342, R440). -/
def classAdmits (member : Bool) (op : Nat) (s : State) : Bool :=
  match opClass op with
  | none => false
  | some c =>
    let lc := lifecycle s
    let mid := lc == .factory || lc == .provisioned || lc == .field || lc == .service
    let t := (s.pwr.state == .slack || s.pwr.state == .flood) && !f3Active s
    let own := match c with
      | .L => true
      | .R => lc != .blank
      | .C => s.pwr.state != .breach && mid
      | .T => t && mid
      | .K => t && mid && haveTokens s
      | .S => mid
      | .X => t && (lc == .factory || lc == .service)
    own && running s && (!s.pwr.recovery || recoveryOps.contains op) && (!member || ((c == .L || c == .R) && !([0x0601, 0x0604, 0x0103].contains op)))

/-- The command is one of the priority lane or its lane may begin it now (R104, R105). -/
def laneFree (member : Bool) (lane : Nat) (s : State) : Bool :=
  let b := s.box member
  !(b.busy.getD lane false) &&
    (lane = 6 || (b.lanes.getD 6 []).isEmpty || b.busy.getD 6 false)

/-- The lowest interface version offered: 1.0 in FACTORY only (R114), 1.0 and 1.1 over SPI only (Table 5-10). -/
def versions (s : State) : List Nat :=
  (if lifecycle s = .factory && param s 0x0001 = 0 then [0x10] else []) ++ (if param s 0x0001 = 0 then [0x11] else []) ++ [0x12, 0x21]
/-- The fields of a `HELLO` response from byte 2 on (Table 5-9). With `SEL_IFV` 0 the tags, lanes and length are those of 2.1 (log 81). -/
def helloFields (sel : Nat) (s : State) : Bytes :=
  [byte sel, byte ((versions s).headD 0), 0x21, byte (if sel = 0 then 128 else tagLimit sel), (if sel = 0 || sel ≥ 0x20 then 0xFF else 1),
   (if lifecycle s = .factory then 0 else 1)] ++ le16 (if sel = 0 || sel ≥ 0x12 then 1024 else 256) ++ [0, 0]
/-- The fields of a refusal: `HELLO` has its own layout. -/
def refusalFields (op : Nat) (s : State) : Bytes := if op = 1 then helloFields 0 s else []

/-- The answer of a mailbox that is not linked: `ST_VERSION` with SEQ 0, not held (R102). -/
def unlinkedAnswer (member : Bool) (lane tag op : Nat) (s : State) : State :=
  s.onBox member (fun b => pushOut { ftype := 2, lane := lane, tag := tag, ifv := b.ifv, opcode := op, payload := [byte stVersion, 0], seq := 0 } b)

/-- The number expected next on a lane (R109, R110). In the clear a space that is used up goes on at 0 (log 80); under a key it stays at
0xFFFF_FFFF, which no frame may use. -/
def expected (b : Mbx) (lane : Nat) : Nat :=
  let q := b.rx.getD lane 0
  if b.chan.isNone && q ≥ 0xFFFFFFFF then 0 else q
/-- A command frame has its sequence number: it is expected no longer, the hold-off of a gap is over, and the rekey mark is looked at
(R110, R120). -/
def takeExpected (member : Bool) (lane seq : Nat) (s : State) : State :=
  rekeyDue member (16 + lane) (seq + 1) (s.onBox member (fun b => { b with rx := b.rx.set lane (seq + 1), gapHold := b.gapHold.set lane none }))

/-- A command reaches its beginning (log 4): it is taken from the head of its lane, or, when the sender issues it directly, it
is accepted as the next frame of its lane under checks 8 to 13. The result is the reference under which it runs. -/
def takeCmd (op : Nat) (m : MbxCmd) (s : State) : Option CmdRef × State :=
  if !running s then (none, s) else
  let b := s.box m.member
  let lane := m.lane % 8
  match b.lanes.getD lane [] with
  | q :: rest =>
    if q.tag = m.tag && q.opcode = op && q.payload = m.payload && laneFree m.member lane s then
      (some { member := m.member, lane := lane, tag := q.tag, opcode := op, seq := q.seq },
       s.onBox m.member (fun b => { b with lanes := b.lanes.set lane rest, busy := b.busy.set lane true }))
    else (none, s)
  | [] =>
    let ref : CmdRef := { member := m.member, lane := lane, tag := m.tag % 128, opcode := op, seq := expected b lane }
    if lane = 7 then (none, s)
    else if !b.linked then
      if op = 0x0001 && lane = 0 then (some ref, s) else (none, unlinkedAnswer m.member lane m.tag op s)
    else if !laneFree m.member lane s then (none, s)
    else if ref.seq ≥ 0xFFFFFFFF then (none, closeSecure m.member 7 s)
    else
      let s := takeExpected m.member lane ref.seq s
      match acceptCheck m.member 0 lane m.tag op s with
      | some (st, fl) => (none, refuse fl ref st (refusalFields op s) s)
      | none =>
        let s := if m.member then s else mirror [.command lane m.tag op m.payload ref.seq] s
        (some ref, neapStir (s.onBox m.member (fun b => { b with inFlight := m.tag :: b.inFlight, busy := b.busy.set lane true })))

/-- The drives of an `LF_BURST`. -/
def burstDrives (p : Bytes) : List Drive :=
  (List.range (u8 p 0)).map (fun k => { chan := u8 p (20 + 4 * k), amp := u8 p (21 + 4 * k), phase := u8 p (22 + 4 * k) })
/-- The fields of an `LF_BURST` are in range. A channel listed twice is out of range (log 26). -/
def burstFieldsOk (p : Bytes) : Bool :=
  let ds := burstDrives p
  let inc := u32 p 4
  u8 p 1 ≤ 1 && (if u8 p 1 = 0 then 1 ≤ u8 p 3 && u8 p 3 ≤ 20 && zeros p 8 9 else true) &&
  (inc = 0 || (0x00147AE2 ≤ inc && inc ≤ 0x00999999)) && zeros p 17 3 &&
  ds.all (fun d => 1 ≤ d.chan && d.chan ≤ 48) && (ds.map (·.chan)).eraseDups.length = ds.length &&
  (List.range (u8 p 0)).all (fun k => u8 p (23 + 4 * k) = 0)
/-- The fields of a `TOKEN_LEARN` are in range (Table 6-6); 0 and 0xFFFF_FFFF name no token. -/
def learnFieldsOk (p : Bytes) : Bool :=
  (u16 p 0 < 512 || u16 p 0 = 0xFFFF) && u8 p 3 ≤ 7 && u8 p 28 ≤ 3 && (bitSet (u8 p 3) 2 || u8 p 28 = 0) && zeros p 29 3 &&
    u32 p 4 ≠ 0 && u32 p 4 ≠ 0xFFFFFFFF
/-- The commands of class T, K and X that pass check 14 of Table 5-7, their length, fields and block states: only these move the ITF48
to Flood before they begin, as any other changes nothing (R8, R125, R127; log 82). -/
def formOk (op : Nat) (p : Bytes) (s : State) : Bool :=
  match op with
  | 0x0200 => 1 ≤ u8 p 0 && u8 p 0 ≤ 8 && p.length = 20 + 4 * u8 p 0 && burstFieldsOk p &&
      (u8 p 1 = 0 || lifecycle s = .factory || lifecycle s = .service)
  | 0x0203 => p.length = 8 && zeros p 6 2
  | 0x0400 => p.length = 32 && learnFieldsOk p && s.sec.vaultOk && (s.sec.vault.getD 5 {}).key.isSome
  | 0x0401 => p.length = 4 && u16 p 0 < 512 && (recBody s 0x0030 (u16 p 0)).isSome && zeros p 2 2
  | 0x0501 => p.length = 4 && u8 p 0 ≤ 15 && zeros p 1 3
  | 0x0600 => p.length = 4 && u8 p 0 ≤ 2 && u8 p 1 ≤ 31 && paramW s 0x0402 ≠ 0
  | 0x0603 => p.length = 4 && (u8 p 0 = 1 || u8 p 0 = 2) && u8 p 1 ≤ 1 && zeros p 2 2
  | 0x0704 => p.length = 4 && u16 p 0 ≤ 255 && 1 ≤ u16 p 2 && u16 p 2 ≤ 256
  | 0x0705 => p.length = 8 && 300000 ≤ u32 p 0 && u32 p 0 ≤ 960000 && u8 p 4 ≤ 31 && u8 p 5 ≤ 1 && 1 ≤ u16 p 6 && u16 p 6 ≤ 1000
  | 0x0D00 => p.length = 4 && u8 p 0 < 32 && zeros p 1 3
  | _ => true
/-- A mailbox command begins: it is taken, its state class admits it (R127), and it is moved to Flood when it is of class T, K or X and
passes check 14. The result is its reference and the state in which it runs. -/
def begun (op : Nat) (m : MbxCmd) (s : State) : Option (CmdRef × State) :=
  match takeCmd op m s with
  | (none, _) => none
  | (some ref, s) =>
    if !classAdmits m.member op s then none
    else match opClass op with
      | some .T | some .K | some .X => some (ref, if formOk op m.payload s then enterFlood s else s)
      | _ => some (ref, s)

/-- A mailbox command: run once begun; otherwise what the taking leaves, and `ST_NOT_IN_STATE` when its class refuses it (R127). -/
def runCmd (op : Nat) (m : MbxCmd) (s : State) (body : CmdRef → Bytes → State → State) : State :=
  match begun op m s with
  | some (ref, s) => body ref m.payload s
  | none =>
    match takeCmd op m s with
    | (none, s) => s
    | (some ref, s) => respond ref stNotInState [] s

/-- Goes on when a condition holds, and answers a status when it does not. -/
def need (c : Bool) (ref : CmdRef) (status : Nat) (s : State) (k : State → State) : State :=
  if c then k s else respond ref status [] s

/-- The length check of R125. -/
def needLen (n : Nat) (p : Bytes) (ref : CmdRef) (s : State) (k : State → State) : State :=
  need (p.length == n) ref stBadLength s k

/-- Answers `ST_ACCEPTED` (R104, R129). -/
def accepted (ref : CmdRef) (s : State) : State := respond ref stAccepted [] s

end Sys2Proof.Machine
end

