-- ==== Sys2Proof/Machine/Mailbox.lean ====
section
/-! DEFINITION. The host mailbox transport (05_host_mailbox): SPI transactions, ISO-TP messages, the inbound checks of Table
5-7, control frames, and `HELLO`. -/

namespace Sys2Proof.Machine
open Sys2Proof

/-- The transport in use: 0 SPI, 1 CAN1, 2 CAN2 (R88). -/
def transport (s : State) : Nat := param s 0x0001
/-- This device serves the mailbox: the pair mailbox unless it is Lee, the member mailbox when it is (R439). -/
def serves (member : Bool) (s : State) : Bool := member == (s.pair.role == .lee)
/-- SPI transactions are served (R88, R94). -/
def spiServed (member : Bool) (s : State) : Bool :=
  running s && s.pwr.hostRdy && !s.pwr.csDiscard && transport s = 0 && serves member s
/-- ISO-TP messages are served (R88). -/
def canServed (member : Bool) (s : State) : Bool :=
  running s && transport s ≠ 0 && serves member s && canUp s (transport s)

/-- An inbound frame buffer is free (Table 5-3 `RX_SPACE`): two buffers, each taken for 20 us (Table 5-4, log 10), or by the ISO-TP
message under reception. -/
def rxSpace (member : Bool) (s : State) : Bool :=
  let b := s.box member
  (b.rxBusy.filter (fun t => t > now s)).length + (match b.isoRx with | some r => if r.cts then 1 else 0 | none => 0) < 2
/-- Takes an inbound buffer. -/
def takeRx (member : Bool) (s : State) : State :=
  s.onBox member (fun b => { b with rxBusy := b.rxBusy.filter (fun t => t > now s) ++ [now s + 20] })

/-- The outbound frame whose turn it is (R108). -/
def nextOut (b : Mbx) : Option OutFrame :=
  match b.outCtl, b.outPri, b.out with
  | f :: _, _, _ => some f
  | [], f :: _, _ => some f
  | [], [], f :: _ => some f
  | [], [], [] => none
/-- Removes that frame. -/
def popOut (b : Mbx) : Mbx :=
  match b.outCtl, b.outPri with
  | _ :: r, _ => { b with outCtl := r }
  | [], _ :: r => { b with outPri := r }
  | [], [] => { b with out := b.out.tail }

/-- The GCM nonce of R119. -/
def gcmNonce (salt : Bytes) (dir space seq : Nat) : Bytes := salt ++ [byte dir, byte space, 0, 0] ++ le32 seq

/-- A frame's bytes on the transport (Table 5-5), protected when the channel is open (R119). -/
def frameBytes (b : Mbx) (f : OutFrame) : Bytes :=
  let hdr := [byte f.ftype, byte (f.lane + 8 * f.flags), byte f.tag, byte f.ifv] ++ le16 f.opcode ++
    le16 f.payload.length ++ le32 f.seq
  match b.chan with
  | some c =>
    let e := gcmSeal c.kGcm (gcmNonce c.salt 2 (if f.ftype = 4 then 8 else f.lane) f.seq) hdr f.payload
    hdr ++ le32 (crc32c (hdr ++ e.1)) ++ e.1 ++ e.2
  | none => hdr ++ le32 (crc32c (hdr ++ f.payload)) ++ f.payload

/-- The SPI status byte (Table 5-3). -/
def statusByte (member : Bool) (s : State) : Byte :=
  let b := s.box member
  byte ((if b.linked then 16 else 0) + (if b.lastErr then 8 else 0) + (if b.chan.isSome then 4 else 0) +
    (if (nextOut b).isSome then 2 else 0) + (if rxSpace member s then 1 else 0))

/-- HOST_IRQ_N is asserted exactly while `TX_READY` is 1, with the SPI transport (R94, R88). -/
def hostIrq (s : State) : Bool := transport s = 0 && (nextOut (s.box (eventBox s))).isSome

/-- Gives the frames that wait numbers from the sequence spaces as they stand; the commands they answer had numbers of the old spaces. A
copy of a frame that the host has taken is not sent again (R118). -/
def renumber (member : Bool) (s : State) : State :=
  let b := s.box member
  let s := s.onBox member (fun b => { b with outCtl := [], outPri := [], out := [] })
  let s := b.outCtl.foldl (fun s f => match takeSeq member 8 s with
    | (some q, s) => s.onBox member (fun b => { b with outCtl := b.outCtl ++ [{ f with seq := q }] })
    | (none, s) => s) s
  ((b.outPri ++ b.out).filter (fun f => f.lane ≠ 7 && f.flags / 4 % 2 = 0)).foldl (fun s f => match takeSeq member f.lane s with
    | (some q, s) => s.onBox member (pushOut { f with seq := q, answers := none })
    | (none, s) => s) s

/-- The new key takes over once the response to `SECURE_CONFIRM` has been sent (R118): the spaces reset, the retransmit store is
emptied, waiting frames get numbers from the new spaces and unacknowledged records are offered again. -/
def openChannel (member : Bool) (tag : Nat) (s : State) : State :=
  match (s.box member).pending with
  | none => s
  | some p =>
    if !p.confirmed then s else
    let s := s.onBox member (fun b => resetSpaces { b with chan := some p.chan, pending := none })
    let s := reoffer member (renumber member s)
    emitX evMbxSecure 0 [1] { tag := some tag } (if member then s else mirrorLink s)

/-- A response that goes out enters the retransmit store of its lane (R111), but for the answers of a mailbox that is not linked (R102). -/
def frameHeld (member : Bool) (f : OutFrame) (s : State) : State :=
  if f.ftype ≠ 2 || f.flags / 4 % 2 = 1 || f.payload.head? = some (byte stVersion) && !(s.box member).linked then s
  else s.onBox member (fun b => { b with held := modAt b.held f.lane (fun h => lastN 8 (h ++ [{ f with fin := false }])) })
/-- The completion tags that a frame carries: those of a lane 7 frame, or of the ring records an `EVT_FETCH` answers. -/
def doneTags (b : Mbx) (f : OutFrame) (s : State) : List Nat :=
  let recs := if f.flags / 4 % 2 = 1 then [] else if f.ftype = 3 then (b.unacked.filter (fun u => u.1 == f.seq)).flatMap (·.2)
    else if f.ftype = 2 && f.opcode = 0x0900 then s.evt.ring.take b.fetched else []
  (recs.filter (fun r => r.code == evCmdDone)).filterMap (·.tag)
/-- A frame is done with: the tag of a final response, and those of the completion records it carries, retire (R106). -/
def retireFrame (member : Bool) (f : OutFrame) (s : State) : State :=
  s.onBox member (fun b =>
    let tags := (if f.fin then [f.tag] else []) ++ doneTags b f s
    { b with inFlight := b.inFlight.filter (fun t => !tags.contains t), muted := b.muted.filter (fun t => !tags.contains t),
             relink := b.relink.filter (fun t => !tags.contains t) })
/-- The response of `POWER_REQUEST` has gone: Neap is decided if R65 still holds, from Flood through Slack (Table 3-7). -/
def neapDecide (s : State) : State :=
  let s := s.onPwr (fun p => { p with neapAfter := false })
  if !neapReady none s then s else
  let s := if s.pwr.state = .flood then mirror [.power 2] (s.onPwr (fun p => { p with state := .slack })) else s
  s.onPwr (fun p => { p with neapEntry := true, hostRdy := false })
/-- The host has taken a frame: its tags retire, `POWER_REQUEST`'s answer lets Neap begin (R65), that of `SECURE_CONFIRM` brings the
new key (R118). -/
def frameSent (member : Bool) (f : OutFrame) (s : State) : State :=
  let s := retireFrame member f s
  let s := if f.ftype = 2 && f.opcode = 0x0101 && s.pwr.neapAfter then neapDecide s else s
  let s := if f.ftype = 2 && f.opcode = 0x0011 && f.payload == [0, 0] then openChannel member f.tag s else s
  pumpEvents s
/-- A frame goes to the host whole. -/
def frameTaken (member : Bool) (f : OutFrame) (s : State) : State := frameSent member f (frameHeld member f s)

/-! ### Commands arriving -/

/-- Sends a held frame again with `RESENT`. -/
def resend (member : Bool) (f : OutFrame) (s : State) : State :=
  s.onBox member (pushOut { f with flags := f.flags ||| 4 })

/-- The effects of a `HELLO` on the mailbox (R113): channel closed, queue, outbound frames and a message under way dropped, spaces reset.
The tag of a command whose final response is dropped retires with it (DESIGN CHOICE, log 127). -/
def helloEffects (member : Bool) (tag : Option Nat) (s : State) : State :=
  let s := closeSecure member 3 s
  let b := s.box member
  let waiting := (b.lanes.flatten).map (·.tag)
  let over_ := ((b.outPri ++ b.out ++ b.isoTx.toList.map (·.frame)).filter (·.fin)).map (·.tag)
  let live := b.inFlight.filter (fun t => !waiting.contains t && !over_.contains t && some t ≠ tag)
  s.onBox member (fun b => resetSpaces { b with
    pending := none, fetched := 0, lanes := List.replicate 8 [], inFlight := tag.toList ++ live, muted := live, relink := [],
    outCtl := [], outPri := [], out := [], isoTx := none })

/-- A `HELLO` of a wrong length or with reserved bytes set is answered in its own layout and changes nothing else (R8, R125). -/
def helloRefused (member : Bool) (ref : Option CmdRef) (tag status : Nat) (s : State) : State :=
  match ref with
  | some r => respond r status (helloFields 0 s) s
  | none =>
    let f : OutFrame := { ftype := 2, lane := 0, tag := tag, ifv := (s.box member).ifv, opcode := 1, payload := respBody 1 status (helloFields 0 s) }
    if !(s.box member).linked then s.onBox member (pushOut f)
    else match takeSeq member 0 s with
      | (none, s) => s
      | (some q, s) => s.onBox member (pushOut { f with seq := q })

/-- The transport's trial is lost and its former setting is being written (R89). -/
def reverting (s : State) : Bool :=
  (s.store.queue ++ s.store.cur.toList.map (·.job) ++ s.store.paused.map (·.job)).any (fun j => j.after = .trial)
/-- Handles a `HELLO` (R113, R114, Table 5-9); `ref` is the command when it came with a tag. The response repeats the `TAG` byte as it came
(log 85). -/
def hello (member : Bool) (ref : Option CmdRef) (tag : Nat) (p : Bytes) (s : State) : State :=
  if p.length ≠ 4 then helloRefused member ref tag stBadLength s
  else if !zeros p 2 2 then helloRefused member ref tag stBadParam s
  else
    let s := helloEffects member (ref.map (·.tag)) s
    let sel := ((versions s).filter (fun v => u8 p 0 ≤ v && v ≤ u8 p 1)).foldl max 0
    let s := s.onBox member (fun b => { b with
      linked := sel ≠ 0, ifv := sel, busy := if ref.isSome then b.busy.set 0 false else b.busy, tx := b.tx.set 0 1,
      out := b.out ++ [{ ftype := 2, lane := 0, tag := tag, ifv := sel, opcode := 1, seq := 0, fin := ref.isSome,
                         payload := respBody 1 (if sel = 0 then stVersion else stOk) (helloFields sel s) }] })
    let s := if member then s else mirrorLink s
    if sel ≠ 0 then
      reoffer member ((emitX evMbxLink 0 [byte sel] { tag := some tag } s).onPar (fun p => { p with
        trial := if reverting s then p.trial else none }))
    else s

/-- An authentication failure (R121): the sixteenth within 10 s closes the channel. -/
def authFailure (member : Bool) (s : State) : State :=
  let fails := ((s.box member).authFails.filter (fun t => now s < t + 10000000)) ++ [now s]
  if fails.length ≥ 16 then
    let s := closeSecure member 6 (s.onBox member (fun b => { b with authFails := [], storm := some (now s) }))
    emit evMbxAuthStorm 1 [byte fails.length] s
  else s.onBox member (fun b => { b with authFails := fails })

/-- `CTL_SEQ_GAP` with the expected number, unless the hold-off of 10 ms runs (R110). -/
def seqGap (member : Bool) (lane : Nat) (s : State) : State :=
  let b := s.box member
  let runs : Bool := match b.gapHold.getD lane none with | some t => now s < t + 10000 | none => false
  if runs then s
  else sendCtl member 0xC002 [byte lane] (expected b lane)
    (s.onBox member (fun b => { b with gapHold := b.gapHold.set lane (some (now s)) }))

/-- A linked command frame from check 7 of Table 5-7 on (R110). Under a key no frame may use 0xFFFF_FFFF: the one that would need it is not
taken and the channel closes (R120; log 128). Check 9 admits no TAG with bit 7 set, so its refusal is the one place where
the response's TAG is cut to 7 bits (log 85). -/
def commandFrame (member : Bool) (lane flags tag ifv op seq : Nat) (payload : Bytes) (s : State) : State :=
  let b := s.box member
  let e := expected b lane
  let behind := (e + 4294967296 - seq) % 4294967296
  if behind ≠ 0 && behind ≤ 2 ^ 31 then
    match (b.held.getD lane []).find? (fun f => f.answers == some seq) with
    | some f => resend member f s
    | none => s
  else if seq ≠ e then seqGap member lane s
  else if e ≥ 0xFFFFFFFF then closeSecure member 7 s
  else
    let s := takeExpected member lane seq s
    let ref : CmdRef := { member := member, lane := lane, tag := tag % 128, opcode := op, seq := seq }
    if ifv ≠ b.ifv && !(lane = 0 && op = 1) then refuse 0 ref stVersion (refusalFields op s) s
    else match acceptCheck member flags lane tag op s with
      | some (st, fl) => refuse fl ref st (refusalFields op s) s
      | none => neapStir ((if member then s else mirror [.command lane tag op payload seq] s).onBox member (fun b => { b with
          inFlight := tag :: b.inFlight,
          lanes := modAt b.lanes lane (· ++ [{ tag := tag, opcode := op, payload := payload, seq := seq }]) }))

/-- A record's lane 7 frame rebuilt for a resend (R111). -/
def eventFrame (b : Mbx) (u : Nat × List EvRec) : OutFrame :=
  { ftype := 3, lane := 7, ifv := b.ifv, payload := u.2.flatMap EvRec.bytes, seq := u.1 }

/-- A lane 7 frame still waits to be sent for the first time; a `RESENT` copy of one that was sent does not count. -/
def waitsOut (b : Mbx) (seq : Nat) : Bool :=
  (b.out ++ b.isoTx.toList.map (·.frame)).any (fun f => f.lane == 7 && f.seq == seq && f.flags / 4 % 2 == 0)
/-- `CTL_RESEND` (R111): the held frames of a lane from a number on. -/
def ctlResend (member : Bool) (lane first : Nat) (s : State) : State :=
  let b := s.box member
  let heldF := if lane = 7 then (b.unacked.filter (fun u => !waitsOut b u.1)).map (eventFrame b) else b.held.getD lane []
  let old := match heldF with
    | f :: _ => f.seq
    | [] => 0xFFFFFFFF
  let s := if first < old then sendCtl member 0xC004 [byte lane] old s else s
  (heldF.filter (fun f => f.seq ≥ first)).foldl (fun s f => resend member f s) s

/-- `CTL_EVT_ACK` (R112): the records of the covered frames, which have been sent, leave the host ring. -/
def ctlEvtAck (member : Bool) (upTo : Nat) (s : State) : State :=
  let b := s.box member
  let gone := b.unacked.takeWhile (fun u => u.1 ≤ upTo && !waitsOut b u.1)
  let n := (gone.map (fun u => u.2.length)).sum
  let s := s.onBox member (fun b => { b with unacked := b.unacked.drop gone.length })
  if member = eventBox s then pumpEvents (s.onEvt (fun e => { e with ring := e.ring.drop n })) else s

/-- A control frame's sequence check (R109, R110): above the last accepted. -/
def ctlAccept (member : Bool) (seq : Nat) (s : State) (k : State → State) : State :=
  if seq < (s.box member).rx.getD 8 0 || seq ≥ 0xFFFFFFFF then s
  else k (rekeyDue member 24 (seq + 1) (s.onBox member (fun b => { b with rx := b.rx.set 8 (seq + 1) })))

/-- A control frame from the host that passed checks 1 to 6 (05_host_mailbox, Checks on inbound frames). A `CTL_RESEND` for a lane above 7
is discarded with reason 6 (log 86). -/
def controlFrame (member : Bool) (lane flags tag op seq : Nat) (p : Bytes) (s : State) : State :=
  if !(s.box member).linked then s else
  let okOp := (s.box member).ifv ≥ 0x20 && (op = 0xC003 || op = 0xC005)
  let okBody := if op = 0xC003 then u8 p 0 ≤ 7 && zeros p 1 3 else zeros p 0 4
  if !okOp || p.length ≠ 8 || tag ≠ 0 || flags ≠ 0 || !okBody then frameError member 6 lane seq s
  else ctlAccept member seq s (if op = 0xC003 then ctlResend member (u8 p 0) (u32 p 4) else ctlEvtAck member (u32 p 4))

/-- A frame whose payload is in the clear, from check 5 of Table 5-7 on. -/
def clearFrame (member : Bool) (hdr payload : Bytes) (s : State) : State :=
  let ft := u8 hdr 0
  let lane := u8 hdr 1 % 8
  let flags := u8 hdr 1 / 8
  let seq := u32 hdr 8
  if ft ≠ 1 && ft ≠ 4 then frameError member 4 lane seq s
  else if (ft = 1 && lane = 7) || (ft = 4 && lane ≠ 0) then frameError member 5 lane seq s
  else if ft = 4 then controlFrame member lane flags (u8 hdr 2) (u16 hdr 4) seq payload s
  else if !(s.box member).linked then
    unlinkedAnswer member lane (u8 hdr 2) (u16 hdr 4) s
  else commandFrame member lane flags (u8 hdr 2) (u8 hdr 3) (u16 hdr 4) seq payload s

/-- The transport length that check 1 of Table 5-7 admits for a header. -/
def lengthOk (b : Mbx) (bytes : Bytes) : Bool :=
  let n := u16 bytes 6
  let helloHdr := u8 bytes 0 = 1 && u8 bytes 1 % 8 = 0 && u16 bytes 4 = 1
  n ≤ maxPayload b && (bytes.length = 16 + n + (if b.chan.isSome then 16 else 0) ||
    (b.chan.isSome && helloHdr && bytes.length = 16 + n))

/-- An inbound frame through the checks of Table 5-7 (R102). -/
def inbound (member : Bool) (bytes : Bytes) (s : State) : State :=
  let b := s.box member
  if bytes.length < 16 then frameError member 1 0xFF 0xFFFFFFFF s else
  let n := u16 bytes 6
  let hdr := bytes.take 12
  let payload := slice bytes 16 n
  let helloHdr := u8 bytes 0 = 1 && u8 bytes 1 % 8 = 0 && u16 bytes 4 = 1
  if !lengthOk b bytes then frameError member 1 (u8 bytes 1 % 8) (u32 bytes 8) s
  else if crc32c (hdr ++ payload) ≠ u32 bytes 12 then frameError member 2 (u8 bytes 1 % 8) (u32 bytes 8) s
  else if helloHdr && bytes.length = 16 + n then hello member none (u8 bytes 2) payload s
  else match b.chan with
    | none => clearFrame member hdr payload s
    | some c =>
      let space := if u8 bytes 0 = 4 then 8 else u8 bytes 1 % 8
      match gcmOpen c.kGcm (gcmNonce c.salt 1 space (u32 bytes 8)) hdr payload (bytes.drop (16 + n)) with
      | some clear => clearFrame member hdr clear s
      | none => authFailure member (frameError member 3 (u8 bytes 1 % 8) (u32 bytes 8) s)

/-- In pair operation every SPI transaction is one byte longer and byte 0 reads 0xFF (R441). -/
def sdoOf (s : State) (b : Bytes) : Bytes := if s.pwr.cwPair then 0xFF :: b else b

/-- SPI_CS_N returns high at a transaction's end (R94). -/
def csEnds (s : State) : State := s.onPwr (fun p => { p with csLow := false, csDiscard := false })
/-- What SPI_SDO gives in a transaction that is not served, of `n` bytes after byte 0: all-ones before mailbox ready (R62) and with a CAN
transport (R88), high-Z otherwise, which a pair's pull-up makes 0xFF (R94). -/
def spiUnserved (n : Nat) (s : State) : Bytes :=
  if s.pwr.state = .off then []
  else if s.pwr.phase ≠ .ready || transport s ≠ 0 || s.pwr.cwPair then sdoOf s (List.replicate (n + 1) 0xFF)
  else []
/-- A whole SPI transaction of `n` bytes after byte 0, served or discarded. -/
def spiRow (member : Bool) (n : Nat) (s : State) (k : State → State) : State :=
  let s' := csEnds s
  if spiServed member s then k s' else s'.onBox member (fun b => { b with sdo := spiUnserved n s })

/-- Lee follows the pair mailbox's inbound frames, for a takeover (R432, R441, R448). -/
def overhears (member : Bool) (s : State) : Bool := !member && s.pair.role == .lee && s.pair.up && running s
/-- Lee keeps a command frame of the pair mailbox until Headland mirrors it. -/
def overhear (bytes : Bytes) (s : State) : State :=
  if !lengthOk s.mbx bytes || u8 bytes 0 ≠ 1 || u16 bytes 4 = 1 then s else
  s.onPair (fun p => { p with heard := lastN 16 (p.heard ++ [(u8 bytes 1 % 8, { tag := u8 bytes 2, opcode := u16 bytes 4, seq := u32 bytes 8 })]) })
/-- SPI_WRITE_FRAME (R91): the bytes after the status byte form one frame, or the write is discarded whole. -/
def execSpiWriteFrame (member : Bool) (bytes : Bytes) (s : State) : Out :=
  next (spiRow member bytes.length (if overhears member s && transport s = 0 then overhear bytes s else s) fun s =>
  let s := s.onBox member (fun b => { b with sdo := sdoOf s (statusByte member s :: List.replicate bytes.length 0) })
  if !rxSpace member s then s.onBox member (fun b => { b with lastErr := true })
  else
    let ok := bytes.length ≥ 16 && lengthOk (s.box member) bytes
    let s := s.onBox member (fun b => { b with lastErr := !ok })
    if ok then inbound member bytes (takeRx member s)
    else if bytes.length < 16 then frameError member 1 0xFF 0xFFFFFFFF s
    else frameError member 1 (u8 bytes 1 % 8) (u32 bytes 8) s)

/-- SPI_READ_FRAME (R92): `clocked` bytes after the status byte; the frame leaves its queue only when it was clocked out whole. After an
incomplete read the next one takes the frame whose turn it is under R108, so that a control or lane 6 frame queued meanwhile goes first
(DESIGN CHOICE, log 125). -/
def execSpiReadFrame (member : Bool) (clocked : Nat) (s : State) : Out := next (spiRow member clocked s fun s =>
  let st := statusByte member s
  match nextOut (s.box member) with
  | none => s.onBox member (fun b => { b with sdo := sdoOf s (st :: List.replicate clocked 0) })
  | some f =>
    let fb := frameBytes (s.box member) f
    let all := le16 fb.length ++ [0] ++ fb
    let s := s.onBox member (fun b => { b with sdo := sdoOf s (st :: padTo clocked all) })
    if clocked ≥ all.length then frameTaken member f (s.onBox member popOut) else s)

/-- SPI_STATUS_ONLY and every other byte 0 (Table 5-2): the status byte, and 0x00 for each further byte. A byte 0 of the two transactions
above is one of them without a frame. -/
def execSpiStatusOnly (member : Bool) (type clocked : Nat) (s : State) : Out :=
  if type = 0xA1 then execSpiWriteFrame member (zeroBytes clocked) s
  else if type = 0xA2 then execSpiReadFrame member clocked s
  else next (spiRow member clocked s fun s =>
    s.onBox member (fun b => { b with sdo := sdoOf s (statusByte member s :: List.replicate clocked 0) }))

/-- SEQ_GAP_HOLDOFF_END (R110): 10 ms after the gap was reported. -/
def execSeqGapHoldoffEnd (member : Bool) (lane : Nat) (s : State) : Out :=
  match (s.box member).gapHold.getD lane none with
  | none => next s
  | some t => next ((advanceTo (t + 10000) s).onBox member (fun b => { b with gapHold := b.gapHold.set lane none }))

/-- CTL_RESEND (R111), as it arrives with its control sequence number; it is sent and heard on a linked 2.1 mailbox only. -/
def execCtlResend (member : Bool) (ctlSeq lane first : Nat) (s : State) : Out :=
  let b := s.box member
  if !running s || !b.linked || b.ifv < 0x20 then next s
  else if lane > 7 then next (frameError member 6 0 ctlSeq s)
  else next (ctlAccept member ctlSeq s (ctlResend member lane first))

/-- CTL_EVT_ACK (R112). -/
def execCtlEvtAck (member : Bool) (ctlSeq upTo : Nat) (s : State) : Out :=
  let b := s.box member
  if !running s || !b.linked || b.ifv < 0x20 then next s
  else next (ctlAccept member ctlSeq s (ctlEvtAck member upTo))

/-! ### ISO-TP (R95 to R97) -/

/-- A frame handed to a CAN controller (Table 4-2, R79). -/
def canSend (f : CanFrame) (s : State) : State := s.onBus (canPut { f with at_ := now s })

/-- Pads a CAN FD frame to the next valid data length with 0xCC (R95), and a shorter one to 8 bytes (log 87). -/
def canPad (b : Bytes) : Bytes :=
  let n := b.length
  let m := if n ≤ 8 then 8 else if n ≤ 12 then 12 else if n ≤ 16 then 16 else if n ≤ 20 then 20 else if n ≤ 24 then 24
    else if n ≤ 32 then 32 else if n ≤ 48 then 48 else 64
  b ++ List.replicate (m - n) 0xCC

/-- A frame of the mailbox's transmit identifier. -/
def isoSend (member : Bool) (b : Bytes) (s : State) : State :=
  canSend { bus := transport s, ident := param s 0x0004 + (if member then 1 else 0), ext := param s 0x0002 = 1, bytes := canPad b } s

/-- A flow-control frame: 0 CTS with block size 0 and STmin 0, 1 WAIT, 2 OVFLW. -/
def isoFlow (member : Bool) (st : Nat) (s : State) : State := isoSend member [byte (0x30 + st), 0, 0] s

/-- The next outbound frame goes to the controller as a single frame or as a first frame (R95). -/
def isoPump (member : Bool) (s : State) : State :=
  let b := s.box member
  if !canServed member s || b.isoTx.isSome then s else
  match nextOut b with
  | none => s
  | some f =>
    let fb := frameBytes b f
    let s := frameHeld member f (s.onBox member popOut)
    if fb.length ≤ 62 then
      frameSent member f (isoSend member ((if fb.length ≤ 7 then [byte fb.length] else [0, byte fb.length]) ++ fb) s)
    else
      let s := isoSend member ([byte (0x10 + fb.length / 256), byte fb.length] ++ fb.take 62) s
      s.onBox member (fun b => { b with isoTx := some { rest := fb.drop 62, frame := f, at_ := now s } })

/-- The next consecutive frame of the outbound message; with the last one the mailbox frame is sent. -/
def isoStep (member : Bool) (s : State) : State :=
  match (s.box member).isoTx with
  | some x =>
    let s := isoSend member (byte (0x20 + x.sn) :: x.rest.take 63) s
    let rest := x.rest.drop 63
    if rest.isEmpty then frameSent member x.frame (s.onBox member (fun b => { b with isoTx := none }))
    else
      let left := match x.left with | some (n + 2) => some (n + 1) | _ => none
      s.onBox member (fun b => { b with isoTx := some { x with rest := rest, sn := (x.sn + 1) % 16, left := left, at_ := now s } })
  | none => s
/-- A consecutive frame may go at this tick: the host's block admits it and STmin has passed (R97). -/
def isoDue (member : Bool) (s : State) : Bool :=
  match (s.box member).isoTx with
  | some x => x.left.isSome && x.at_ + x.stUs ≤ now s
  | none => false
/-- Every consecutive frame that may go at this tick, at most `n`. -/
def isoBlock (member : Bool) : Nat → State → State
  | 0, s => s
  | n + 1, s => if isoDue member s then isoBlock member n (isoStep member s) else s
/-- The outbound message is abandoned; its frame stays in the retransmit store (R97), and its tag retires (log 83). -/
def isoAbandon (member : Bool) (s : State) : State :=
  match (s.box member).isoTx with
  | some x => retireFrame member x.frame (s.onBox member (fun b => { b with isoTx := none }))
  | none => s
/-- An STmin byte in microseconds (R97, ISO 15765-2): 0 to 127 ms, 100 to 900 us, and 127 ms for a reserved value (log 84). -/
def stMinUs (v : Nat) : Nat := if v ≤ 0x7F then 1000 * v else if 0xF1 ≤ v && v ≤ 0xF9 then 100 * (v - 0xF0) else 127000

/-- ISOTP_SINGLE_FRAME (R95, R96): discarded without a free buffer. -/
def execIsotpSingleFrame (member : Bool) (bytes : Bytes) (s : State) : Out :=
  if overhears member s && transport s ≠ 0 then next (overhear bytes s) else
  if !canServed member s || !rxSpace member s then next s
  else next (isoPump member (inbound member bytes (takeRx member s)))

/-- ISOTP_FIRST_FRAME (R96): answered with CTS when a buffer is free, else with WAIT. A length above 12 bits, or the escape value 0, is not
supported and not accepted (R3, R95). -/
def execIsotpFirstFrame (member : Bool) (len : Nat) (bytes : Bytes) (s : State) : Out :=
  if overhears member s && transport s ≠ 0 && len ≤ 4095 then
    next (s.onBox false (fun b => { b with isoRx := some { len := len, got := bytes, cts := true, at_ := now s } }))
  else if !canServed member s || len = 0 || len > 4095 then next s
  else
    let s := s.onBox member (fun b => { b with isoRx := none })
    let cts := rxSpace member s
    let s := s.onBox member (fun b => { b with isoRx := some { len := len, got := bytes, cts := cts, waits := if cts then 0 else 1, at_ := now s } })
    next (isoFlow member (if cts then 0 else 1) s)

/-- ISOTP_CONSECUTIVE_FRAME (R96): in order; the last one completes the message, a wrong number ends it. -/
def execIsotpConsecutiveFrame (member : Bool) (sn : Nat) (bytes : Bytes) (s : State) : Out :=
  let lee := overhears member s && transport s ≠ 0
  if !canServed member s && !lee then next s else
  match (s.box member).isoRx with
  | none => next s
  | some r =>
    if !r.cts then next s
    else if sn % 16 ≠ r.nextSn then next (s.onBox member (fun b => { b with isoRx := none }))
    else
      let got := (r.got ++ bytes).take r.len
      if got.length = r.len && lee then next (overhear got (s.onBox member (fun b => { b with isoRx := none })))
      else if got.length = r.len then
        next (isoPump member (inbound member got (takeRx member (s.onBox member (fun b => { b with isoRx := none })))))
      else next (s.onBox member (fun b => { b with isoRx := some { r with got := got, nextSn := (r.nextSn + 1) % 16, at_ := now s } }))

/-- ISOTP_FLOW_CONTROL (R97) when one is awaited: CTS lets a block go out at STmin, WAIT restarts N_Bs, OVFLW abandons the message, and so
does a reserved flow status (log 84). -/
def execIsotpFlowControl (member : Bool) (status blockSize stMin : Nat) (s : State) : Out :=
  match (s.box member).isoTx with
  | none => next s
  | some x =>
    if !canServed member s || x.left.isSome then next s
    else if status = 0 then
      let all := (x.rest.length + 62) / 63
      let s := isoStep member (s.onBox member (fun b => { b with isoTx := some { x with
        left := some (if blockSize = 0 then all else blockSize), stUs := stMinUs stMin } }))
      next (isoPump member (isoBlock member all s))
    else if status = 1 then next (s.onBox member (fun b => { b with isoTx := some { x with at_ := now s } }))
    else next (isoPump member (isoAbandon member s))

/-- ISOTP_WAIT_TIMER (R96), 50 ms after the last flow control: CTS once a buffer is free, WAIT up to 8 times, then OVFLW. -/
def execIsotpWaitTimer (member : Bool) (s : State) : Out :=
  match (s.box member).isoRx with
  | none => next s
  | some r =>
    if r.cts then next s else
    let s := advanceTo (r.at_ + 50000) s
    let put := fun (x : Option IsoRx) => s.onBox member (fun b => { b with isoRx := x })
    if rxSpace member s then next (isoFlow member 0 (put (some { r with cts := true, at_ := now s })))
    else if r.waits < 8 then next (isoFlow member 1 (put (some { r with waits := r.waits + 1, at_ := now s })))
    else next (isoFlow member 2 (put none))

/-- ISOTP_N_CR_TIMEOUT (R96): 1000 ms without a consecutive frame end the reception. -/
def execIsotpNCrTimeout (member : Bool) (s : State) : Out :=
  match (s.box member).isoRx with
  | some r => if r.cts then next ((advanceTo (r.at_ + 1000000) s).onBox member (fun b => { b with isoRx := none })) else next s
  | none => next s
/-- ISOTP_N_BS_TIMEOUT (R97): 1000 ms without a flow control abandon the message, and the next outbound frame follows. -/
def execIsotpNBsTimeout (member : Bool) (s : State) : Out :=
  match (s.box member).isoTx with
  | some x => if x.left.isSome then next s else next (isoPump member (isoAbandon member (advanceTo (x.at_ + 1000000) s)))
  | none => next s

/-- SECURE_OPEN_EXPIRY (R118): a pending open ends 1 s after its response. -/
def execSecureOpenExpiry (member : Bool) (s : State) : Out :=
  match (s.box member).pending with
  | some p => if p.confirmed then next s
    else next ((advanceTo (p.at_ + 1000000) s).onBox member (fun b => { b with pending := none }))
  | none => next s
/-- AUTH_STORM_HOLD_END (R121): 1 s after the storm. -/
def execAuthStormHoldEnd (member : Bool) (s : State) : Out :=
  match (s.box member).storm with
  | none => next s
  | some t => next ((advanceTo (t + 1000000) s).onBox member (fun b => { b with storm := none }))

end Sys2Proof.Machine
end

