-- ==== Sys2Proof/Machine/Store.lean ====
section
/-! DEFINITION. The record store (16_record_store): cells and pages, the writer's choice and its two copies, reclaim, recovery,
and the security log's entries (R468 to R472). What follows a commit or a deferral stands in StoreRows.lean. -/

namespace Sys2Proof.Machine
open Sys2Proof

/-! ### Cells (R376 to R378) -/

/-- The page header cell of R376. -/
def pageHeader (p : Page) (opened : Nat) : Bytes :=
  let b := [0x3C, byte p.area, (if p.copyB then 1 else 0), 0] ++ le32 p.erases ++ le32 opened
  b ++ le32 (crc32c b)
/-- The commit cell of Table 16-2. -/
def commitCell (copyB : Bool) (type key seq : Nat) (body : Bytes) : Bytes :=
  let b := [0xA5, (if copyB then 1 else 0)] ++ le16 type ++ le16 key ++ le16 body.length ++ le32 seq
  b ++ le32 (crc32c (body ++ b))
/-- The counter slot of Table 16-3. -/
def counterSlot (copyB : Bool) (id seq value : Nat) : Bytes :=
  let b := [0xA6, (if copyB then 1 else 0)] ++ le16 id ++ le32 seq ++ le32 value
  b ++ le32 (crc32c b)
/-- The body cells and the commit cell of a version, in writing order (R377). -/
def recordCells (copyB : Bool) (type key seq : Nat) (body : Bytes) : List Bytes :=
  (chunks 16 body).map (padTo 16) ++ [commitCell copyB type key seq body]

/-- Cells a record's version takes in one copy. -/
def bodyCells (n : Nat) : Nat := (n + 15) / 16 + 1
/-- Cells of an item in one copy. -/
def Item.cells : Item → Nat
  | .ctr _ _ => 1
  | .record _ _ b => bodyCells b.length
/-- The area of an item (Table 16-1). -/
def Item.area : Item → Nat
  | .ctr _ _ => 2
  | .record 0x0080 _ _ => 1
  | .record _ _ _ => 3
/-- Cells of one copy of a write. -/
def Job.copyCells (j : Job) : Nat := (j.items.map Item.cells).sum
/-- Cells of a write, over its copies (R60). -/
def Job.cells (j : Job) : Nat := (if j.copies.isSome then 1 else 2) * j.copyCells
/-- The write has that copy. -/
def Job.hasCopy (copyB : Bool) (j : Job) : Bool := j.copies ≠ some (!copyB)

/-! ### Pages (R383) -/

/-- A page of an area copy. -/
def Page.isOf (area : Nat) (copyB : Bool) (p : Page) : Bool := p.area == area && p.copyB == copyB && !p.retired
/-- The cell limit of an area's page: counters use cells 1 to 224 (R378). -/
def pageLimit (area : Nat) : Nat := if area = 2 then 225 else 256

/-- The open page with the lowest opening sequence that has room. -/
def roomPage (area : Nat) (copyB : Bool) (n : Nat) (l : List Page) : Option Nat :=
  (l.zipIdx.foldl (fun acc (p, i) =>
    match p.opened with
    | some o => if p.isOf area copyB && p.used + n ≤ pageLimit area && !p.bad then
        (match acc with
         | some (o', i') => if o < o' then some (o, i) else some (o', i')
         | none => some (o, i))
      else acc
    | none => acc) (none : Option (Nat × Nat))).map (·.2)

/-- The erased page of an area copy with the lowest erase count. -/
def erasedPage (area : Nat) (copyB : Bool) (l : List Page) : Option Nat :=
  (l.zipIdx.foldl (fun acc (p, i) =>
    if p.isOf area copyB && p.opened.isNone && !p.bad then
      (match acc with
       | some (e, j) => if p.erases < e then some (p.erases, i) else some (e, j)
       | none => some (p.erases, i))
    else acc) (none : Option (Nat × Nat))).map (·.2)

/-- How many erased pages an area copy has. -/
def erasedCount (area : Nat) (copyB : Bool) (l : List Page) : Nat :=
  (l.filter (fun p => p.isOf area copyB && p.opened.isNone && !p.bad)).length

/-- The highest opening sequence of an area copy. -/
def lastOpened (area : Nat) (copyB : Bool) (l : List Page) : Nat :=
  (l.filter (fun p => p.isOf area copyB)).foldl (fun m p => max m (p.opened.getD 0)) 0

/-- Takes `n` cells in an area copy: the page, and the pages afterwards (R383). With neither room nor an erased page, page 64
stands for none. -/
def takeCells (area : Nat) (copyB : Bool) (n : Nat) (l : List Page) : Nat × List Page :=
  match roomPage area copyB n l with
  | some i => (i, modAt l i (fun p => { p with used := p.used + n, torn := false }))
  | none =>
    match erasedPage area copyB l with
    | some i => (i, modAt l i (fun p => { p with opened := some (lastOpened area copyB l + 1), used := 1 + n, torn := false }))
    | none => (64, l)

/-- A version is the newest of its record in its copy. -/
def liveOn (page : Nat) (copyB : Bool) (r : StRec) : Bool :=
  match (if copyB then r.b else r.a), r.standing with
  | some v, some n => v.page == page && v.seq == n.seq
  | _, _ => false

/-- Live cells of a page. -/
def liveCells (page : Nat) (copyB : Bool) (t : Store) : Nat :=
  ((t.recs.filter (liveOn page copyB)).map (fun r => bodyCells ((r.standing.map (·.body.length)).getD 0))).sum +
  (t.ctrs.filter (liveOn page copyB)).length

/-- A page as erased, with its erase counted (R384). -/
def Page.erased (p : Page) : Page := { p with opened := none, used := 0, torn := false, bad := false, erases := p.erases + 1 }
/-- The page that a write erases when an area copy has neither room nor an erased page: one without live cells, the lowest erase count. -/
def forcedPage (area : Nat) (copyB : Bool) (t : Store) : Option Nat :=
  (t.pages.zipIdx.foldl (fun acc (p, i) =>
    if p.isOf area copyB && p.opened.isSome && liveCells i copyB t = 0 then
      (match acc with
       | some (e, j) => if p.erases < e then some (p.erases, i) else some (e, j)
       | none => some (p.erases, i))
    else acc) (none : Option (Nat × Nat))).map (·.2)
/-- The versions of a page that has been erased are gone. -/
def dropPage (page : Nat) (copyB : Bool) (l : List StRec) : List StRec :=
  l.map (fun r => if copyB then { r with b := r.b.filter (fun v => v.page ≠ page) } else { r with a := r.a.filter (fun v => v.page ≠ page) })
/-- A page as erased (R384): its versions are gone and its erase is counted. -/
def erasePage (i : Nat) (copyB : Bool) (t : Store) : Store :=
  { t with pages := modAt t.pages i Page.erased, recs := dropPage i copyB t.recs, ctrs := dropPage i copyB t.ctrs }
/-- Takes `n` cells in an area copy, erasing a page first when there is no other room: the page, whether one was erased, the store.
A class 3 write (`spare`) leaves the area copy's last erased page to classes 1 and 2 while it can erase another (R383). -/
def takeRoom (spare : Bool) (area : Nat) (copyB : Bool) (n : Nat) (t : Store) : Nat × Bool × Store :=
  let put := fun (t : Store) => let x := takeCells area copyB n t.pages; (x.1, { t with pages := x.2 })
  let left := erasedCount area copyB t.pages
  if (roomPage area copyB n t.pages).isSome || left ≥ (if spare then 2 else 1) then ((put t).1, false, (put t).2)
  else match forcedPage area copyB t with
    | some i => let t := erasePage i copyB t; ((put t).1, true, (put t).2)
    | none => ((put t).1, left = 0, (put t).2)
/-- A write that leaves the last erased page of an area copy to classes 1 and 2 (R383); a reclaim's rewriting may take it. -/
def Job.spares (j : Job) : Bool := j.cls = 3 && j.after ≠ .repair
/-- How many erases the cells of a write force, item after item and copy after copy (R60, R380). -/
def forcedErases (j : Job) (t : Store) : Nat :=
  (([false, true].filter (fun c => j.hasCopy c)).flatMap (fun c => j.items.map (fun i => (i, c)))).foldl
    (fun (x : Nat × Store) (p : Item × Bool) =>
      let y := takeRoom j.spares p.1.area p.2 p.1.cells x.2
      (x.1 + (if y.2.1 then 1 else 0), y.2.2)) (0, t) |>.1

/-! ### Versions -/

/-- The next sequence number of a record or counter. -/
def nextSeq (r : Option StRec) : Nat :=
  match r with
  | some r => max ((r.a.map (·.seq)).getD 0) ((r.b.map (·.seq)).getD 0) + 1
  | none => 1

/-- Changes or creates the entry of a type and key. -/
def upsert (type key : Nat) (f : StRec → StRec) (l : List StRec) : List StRec :=
  if l.any (fun r => r.type == type && r.key == key) then
    l.map (fun r => if r.type == type && r.key == key then f r else r)
  else l ++ [f { type := type, key := key }]

/-- Writes one copy of one item. Copy A takes a new sequence number; copy B takes copy A's, or a new one when it is written `alone`, as a
repair does (R387). A repair or a reclaim (`force`) writes the standing version again, and a copy B follows its copy A, unless another
write has superseded it (R379, R384). -/
def writeItem (copyB force alone spare : Bool) (i : Item) (t : Store) : Store :=
  let put := fun (l : List StRec) (type key : Nat) (body : Bytes) (page : Nat) =>
    let sq := match copyB && !alone, findRec l type key with
      | true, some r => (r.a.map (·.seq)).getD (nextSeq (some r))
      | _, r => nextSeq r
    upsert type key (fun r => if copyB then { r with b := some ⟨sq, page, body⟩ } else { r with a := some ⟨sq, page, body⟩ }) l
  match i with
  | .ctr id v =>
    let held := ((findRec t.ctrs 0x8000 id).bind StRec.standing).map (fun v => leNat v.body)
    let old := match findRec t.ctrs 0x8000 id with
      | some r => if copyB then (r.b.map (fun v => leNat v.body)) else held
      | none => none
    let below := match old with
      | some o => decide (v ≤ o)
      | none => false
    -- a counter is written only above the value it holds (R378)
    if below && !force then t
    else if force && held ≠ some v then t
    else
      let x := takeRoom spare 2 copyB 1 t
      { x.2.2 with ctrs := put x.2.2.ctrs 0x8000 id (le32 v) x.1 }
  | .record ty k body =>
    let stands := ((findRec t.recs ty k).bind StRec.standing).map (·.body)
    if (force || (copyB && !alone)) && stands ≠ some body then t else
    let x := takeRoom spare i.area copyB i.cells t
    { x.2.2 with recs := put x.2.2.recs ty k body x.1 }

/-- Writes some items of one copy of a write. -/
def writeItems (copyB : Bool) (j : Job) (items : List Item) (t : Store) : Store :=
  items.foldl (fun t i => writeItem copyB (j.after = .repair) j.copies.isSome j.spares i t) t
/-- Writes one copy of a write. -/
def writeCopy (copyB : Bool) (j : Job) (t : Store) : Store := if j.hasCopy copyB then writeItems copyB j j.items t else t

/-! ### The writer (R379, R380) -/

/-- Takes the first queued write of a class that is not deferred. -/
def takeJob (cls : Nat) : List Job → Option (Job × List Job)
  | [] => none
  | j :: r => if j.cls = cls && !j.deferred then some (j, r) else (takeJob cls r).map (fun (x, l) => (x, j :: l))

/-- The next write of the writer: class 1, class 2, a paused class 3 write, then class 3. -/
inductive Pick where
  | job (j : Job) (rest : List Job)
  | resume (w : Writing) (rest : List Writing)
  | nothing

/-- What the writer takes next. -/
def pickWrite (t : Store) : Pick :=
  match takeJob 1 t.queue with
  | some (j, r) => .job j r
  | none =>
    match takeJob 2 t.queue with
    | some (j, r) => .job j r
    | none =>
      match t.paused with
      | w :: r => .resume w r
      | [] =>
        match takeJob 3 t.queue with
        | some (j, r) => .job j r
        | none => .nothing

/-- A write of the security log, which uses the log's condition of R60. -/
def Job.isLog (j : Job) : Bool := j.logOnly
/-- The energy check of a write (R60, R381, Table 3-4): once, over both copies and any erase. -/
def jobOk (j : Job) (s : State) : Bool :=
  energyOk j.isLog j.cells (forcedErases j s.store) s && (j.noVbat || s.pwr.vbat ≥ 5500) && (j.isLog || !holdFailed s)

/-- A copy of the write in progress is complete (R380): copy A makes the version stand; a class 3 write then lets class 1 and 2
writes through (R379). -/
def copyADone (s : State) : State :=
  match s.store.cur with
  | some w =>
    if w.aDone then s else
    let t := writeCopy false w.job s.store
    let urgent := t.queue.any (fun j => j.cls ≤ 2 && !j.deferred)
    if w.job.cls = 3 && urgent then { s with store := { t with cur := none, paused := t.paused ++ [{ w with aDone := true }] } }
    else { s with store := { t with cur := some { w with aDone := true, from_ := s.clk.mono } } }
  | none => s

/-- The deferral record, at most once a second (R382). -/
def noteDeferral (j : Job) (s : State) : State :=
  let s := s.onStore (fun t => { t with deferrals := sat 0xFFFF (t.deferrals + 1) })
  let (ok, s) := rateLimit 0x0E02 1000000 s
  if ok then emit evStoreDeferred 0 (le16 j.cells ++ le32 (eUsable s)) s else s


/-! ### The security log (R468 to R472) -/

/-- A log write is queued or in progress. -/
def logQueued (s : State) : Bool :=
  (s.store.queue ++ s.store.cur.toList.map (·.job)).any (fun j => j.after = .logEntry)

/-- Entries on a log page that no checkpoint covers keep it from reuse (R470). -/
def logPageCovered (page : Nat) (s : State) : Bool :=
  s.store.recs.all (fun r => !(r.type == 0x0080) || (match r.a with
    | some v => v.page ≠ page || u32 v.body 0 < s.sec.ckptFrom
    | none => true))

/-- The oldest open page of a log copy. -/
def oldestLogPage (copyB : Bool) (l : List Page) : Option Nat :=
  (l.zipIdx.foldl (fun acc (p, i) => match p.opened with
    | some o => if p.isOf 1 copyB then (match acc with
        | some (o', j) => if o < o' then some (o, i) else some (o', j)
        | none => some (o, i)) else acc
    | none => acc) (none : Option (Nat × Nat))).map (·.2)

/-- The log is at its page limit: one page is kept erased (R383, R470). -/
def logFull (l : List Page) : Bool := (roomPage 1 false 3 l).isNone && erasedCount 1 false l ≤ 1

/-- Frees the oldest log page (R470): its entries go, its pinned ones are written forward with their own numbers, at most 170
pinned entries being kept; the page is erased. -/
def reuseLogPage (s : State) : State :=
  match oldestLogPage false s.store.pages, oldestLogPage true s.store.pages with
  | some pa, some pb =>
    let on := fun (r : StRec) => r.type == 0x0080 && (match r.a with | some v => v.page == pa | none => false)
    let pinned := s.store.recs.filter (fun r => on r && (match r.a with | some v => bitSet (u8 v.body 11) 0 | none => false))
    let keptN := (s.store.recs.filter (fun r => r.type == 0x0080 && (match r.a with
      | some v => bitSet (u8 v.body 11) 0 | none => false))).length
    let fwd := lastN (170 - (keptN - pinned.length)) pinned
    let jobs := fwd.filterMap (fun r => r.a.map (fun v =>
      ({ cls := 2, items := [.record 0x0080 r.key v.body], after := .repair, logOnly := true } : Job)))
    s.onStore (fun t => { t with
      recs := t.recs.filter (fun r => !on r),
      pages := modAt (modAt t.pages pa Page.erased) pb
        Page.erased,
      queue := jobs ++ t.queue })
  | _, _ => s

/-- The oldest backlog entry is queued as a class 2 write (R472), unless one is queued already. A full log first frees its oldest
page, or makes a checkpoint due when that page is not covered (R470, R471). -/
def pumpLog (s : State) : State :=
  match s.evt.backlog with
  | [] => s
  | (_, e) :: _ =>
    if logQueued s then s
    else if logFull s.store.pages then
      match oldestLogPage false s.store.pages with
      | some p => if logPageCovered p s then reuseLogPage s
          else s.onSec (fun x => { x with ckptDue := some (x.ckptDue.getD none) })
      | none => s
    else queueJob { cls := 2, items := [.record 0x0080 (s.sec.logNext % 65536) (le32 s.sec.logNext ++ e)],
                    after := .logEntry, logOnly := true } s

/-- A log entry has committed (R469): its number is used, the chain moves on, the backlog shortens; every 256th entry makes a
checkpoint due (R471). -/
def logCommitted (s : State) : State :=
  match s.evt.backlog with
  | [] => s
  | (_, e) :: rest =>
    let entry := le32 s.sec.logNext ++ e
    let s := s.onEvt (fun v => match v.merged with
      | some (n, f, l) => { v with backlog := rest ++ [(true, le48 f ++ [0xFF, 1] ++ le16 0xFF05 ++ e.drop 10 |>.take 12 |> fun h =>
          h ++ le32 n ++ le48 f ++ le48 l)], merged := none }
      | none => { v with backlog := rest })
    let s := s.onSec (fun x => { x with
      logNext := x.logNext + 1, logHead := shake256 (ascii "ITF48-LOG-1" ++ x.logHead ++ entry) 32 })
    if s.sec.logNext ≥ s.sec.ckptFrom + 256 && s.sec.ckptDue.isNone then s.onSec (fun x => { x with ckptDue := some none }) else s

/-- A log entry that the store still holds (R470). -/
def logFind (n : Nat) (s : State) : Option Bytes :=
  match recBody s 0x0080 (n % 65536) with
  | some b => if u32 b 0 = n then some b else none
  | none => none

/-! ### Reclaim and wear (R384, R385) -/

/-- The page a reclaim picks: one a scrub asked for, the one worn least when the spread exceeds 2000, or the one with the fewest
live cells among those in use, the lower erase count deciding. -/
def reclaimPage (area : Nat) (copyB : Bool) (t : Store) : Option Nat :=
  let inUse := t.pages.zipIdx.filter (fun (p, _) => p.isOf area copyB && p.opened.isSome)
  let all := t.pages.filter (fun p => p.isOf area copyB)
  let hi := all.foldl (fun m p => max m p.erases) 0
  let lo := all.foldl (fun m p => min m p.erases) hi
  match t.toReclaim.find? (fun i => inUse.any (fun (_, j) => j == i)) with
  | some i => some i
  | none =>
    (if hi - lo > 2000 then (inUse.find? (fun (p, _) => p.erases == lo)).map (·.2) else none) <|>
    if erasedCount area copyB t.pages < 2 then
      (inUse.foldl (fun acc (p, i) =>
        let c := (liveCells i copyB t, p.erases)
        match acc with
        | some (b, j) => if c.1 < b.1 || (c.1 = b.1 && c.2 < b.2) then some (c, i) else some (b, j)
        | none => some (c, i)) (none : Option ((Nat × Nat) × Nat))).map (·.2)
    else none

/-- The rewriting of a page's live versions as class 3 writes. -/
def rewrites (page : Nat) (copyB : Bool) (t : Store) : List Job :=
  (t.recs.filter (liveOn page copyB)).filterMap (fun r => r.standing.map (fun v =>
    ({ cls := 3, items := [.record r.type r.key v.body], after := .repair } : Job))) ++
  (t.ctrs.filter (liveOn page copyB)).filterMap (fun r => r.standing.map (fun v =>
    ({ cls := 3, items := [.ctr r.key (leNat v.body)], after := .repair } : Job)))

/-- RECLAIM (R384): live versions of the page are written elsewhere, then the page is erased, for which R60 asks 4.0 mJ. -/
def execReclaim (area : Nat) (copyB : Bool) (s : State) : Out :=
  if !running s || s.store.erasing.isSome || area = 0 || area > 3 || s.pwr.holdBusy || !energyOk false 0 1 s || s.pwr.vbat < 5500 then next s else
  match reclaimPage area copyB s.store with
  | none => next s
  | some i =>
    next (s.onStore (fun t => { t with
      queue := t.queue ++ rewrites i copyB t,
      pages := modAt t.pages i (fun p => { p with bad := true }),
      erasing := some i,
      toReclaim := t.toReclaim.filter (· ≠ i) }))

/-- A spare page, the lowest first, replaces a retired one; with none left a worn page stays in use and one that failed does not
(R385). -/
def retire (i : Nat) (failed : Bool) (s : State) : State :=
  let p := s.store.pages.getD i {}
  let spare := (s.store.pages.zipIdx.find? (fun (q, _) => q.area == 0 && !q.retired)).map (·.2)
  let s := match spare with
    | some k => s.onStore (fun t => { t with
        pages := modAt (modAt t.pages k (fun q => { q with area := p.area, copyB := p.copyB })) i (fun q => { q with retired := true }) })
    | none => if failed then s.onStore (fun t => { t with pages := modAt t.pages i (fun q => { q with retired := true }) }) else s
  emit evStoreWear 1 (byte i :: le32 p.erases) s

/-- A class 1 or 2 write is queued or in progress, which suspends an erase (R384). -/
def urgentWrite (t : Store) : Bool := (t.queue.filter (fun j => !j.deferred) ++ t.cur.toList.map (·.job)).any (fun j => j.cls ≤ 2)
/-- PAGE_ERASE_DONE (R384, R385): the erase count rises; a failed erase or the hundred-thousandth retires the page. -/
def execPageEraseDone (page : Nat) (ok : Bool) (s : State) : Out :=
  if s.store.erasing ≠ some page || urgentWrite s.store then next s else
  let cB := (s.store.pages.getD page {}).copyB
  if liveCells page cB s.store ≠ 0 then next s
  else
    let s := s.onStore (fun t => { erasePage page cB t with erasing := none })
    let e := (s.store.pages.getD page {}).erases
    let noSpare := s.store.pages.all (fun q => q.area != 0 || q.retired)
    if !ok then next (retire page true s)
    else if e ≥ 100000 && (!noSpare || e % 1000 = 0) then next (retire page false s)
    else next s

/-- SCRUB (R386): pages in which a cell needed correction are reclaimed within the hour. -/
def execScrub (corrected : List Nat) (s : State) : Out :=
  if !running s then next s else
  next (s.onStore (fun t => { t with toReclaim := t.toReclaim ++ corrected.filter (fun i => i < 64 && !t.toReclaim.contains i) }))

/-- The copy in progress is written: 45 us a cell (R380). -/
def copyTime (w : Writing) (s : State) : State := monoAt (w.from_ + 45 * (if w.job.hasCopy w.aDone then w.job.copyCells else 0)) s
/-- STORE_COPY_DONE (R380). -/
def execStoreCopyDone (s : State) : Out :=
  match s.store.cur with
  | some w => next (if w.aDone then s else copyADone (copyTime w s))
  | none => next s

/-! ### Recovery (R387, R388) -/

/-- What recovery finds for one record: the standing version, whether its copies differ, and the copy to repair (`true` copy B). -/
def recoverRec (counter : Bool) (r : StRec) : Option Ver × Bool × Option Bool :=
  match r.a, r.b with
  | none, none => (none, false, none)
  | some a, none => (some a, false, some true)
  | none, some b => (some b, false, some false)
  | some a, some b =>
    if a.seq > b.seq then (some a, false, some true)
    else if b.seq > a.seq then (some b, false, some false)
    else if a.body = b.body then (some a, false, none)
    else if (if counter then leNat a.body ≥ leNat b.body else a.page ≤ b.page) then (some a, true, some true) else (some b, true, some false)

/-- One record's recovery: a twin is reported and both copies then read as the standing version; a repair of the other copy is queued. -/
def recoverOne (counter : Bool) (s : State) (r : StRec) : State :=
  match recoverRec counter r with
  | (some v, twin, repair) =>
    let ty := if counter then 0x8000 + r.key else r.type
    let s := if twin then emit evStoreTwin 1 (le16 ty ++ [byte ((r.a.map (·.page)).getD 0), byte ((r.b.map (·.page)).getD 0)]) s else s
    let fix := fun (x : StRec) => if twin then { x with a := x.a.map (fun a => { a with body := v.body }), b := x.b.map (fun b => { b with body := v.body }) } else x
    let s := s.onStore (fun t => if counter then { t with ctrs := t.ctrs.map (fun x => if x.key == r.key then fix x else x) }
      else { t with recs := t.recs.map (fun x => if x.type == r.type && x.key == r.key then fix x else x) })
    if repair.isSome then
      queueJob { cls := 3, items := [if counter then .ctr r.key (leNat v.body) else .record r.type r.key v.body], after := .repair, copies := repair } s
    else s
  | (none, _, _) => s

/-- The counters every device has, and those of its token records. -/
def expectedCounters (s : State) : List Nat :=
  recKeys s 0x0030 ++ [0x0200, 0x0201, 0x0202, 0x0203, 0x0204] ++ (List.range 16).map (fun f => 0x0210 + f)

/-- The recovery scan of R387, with the losses of R388 written to the security log. -/
def recover (s : State) : State :=
  let s := (s.store.pages.zipIdx.filter (fun (p, _) => p.torn)).foldl (fun s (_, i) =>
    emit evStoreTorn 0 (le16 0xFFFF ++ [byte i]) s) s
  let s := s.store.recs.foldl (recoverOne false) s
  let s := s.store.ctrs.foldl (recoverOne true) s
  (expectedCounters s).foldl (fun s id => if (ctrValue s id).isNone then logOnly 0xFF02 (le16 id) s else s) s

/-- The cells of the copy in progress that are written: 45 us each (R380). -/
def cellsDone (w : Writing) (s : State) : Nat := min w.job.copyCells ((s.clk.mono - w.from_) / 45)
/-- A reset waits for the end of the store cell being written (R69). -/
def cellEnds (s : State) : State :=
  match s.store.cur with
  | some w => if w.from_ ≤ s.clk.mono && cellsDone w s < w.job.copyCells then passUs (45 - (s.clk.mono - w.from_) % 45) s else s
  | none => s
/-- The items whose cells are all among `n`, and the cells of the next one. -/
def wholeItems : Nat → List Item → List Item × Nat
  | _, [] => ([], 0)
  | n, i :: r => if i.cells ≤ n then let x := wholeItems (n - i.cells) r; (i :: x.1, x.2) else ([], n)
/-- A write is cut (R69, R390): the items whose cells are complete stand, those of the item in progress are torn. -/
def cutWrite (w : Writing) (s : State) : State :=
  if !w.job.hasCopy w.aDone then s else
  let x := wholeItems (cellsDone w s) w.job.items
  let s := { s with store := writeItems w.aDone w.job x.1 s.store }
  match w.job.items.drop x.1.length with
  | i :: _ =>
    if x.2 = 0 then s else
    let y := takeRoom w.job.spares i.area w.aDone x.2 s.store
    { s with store := { y.2.2 with pages := modAt y.2.2.pages y.1 (fun p => { p with torn := true }) } }
  | [] => s
/-- The store at a reset: the write in progress is cut, paused ones keep their copy A, queued ones are lost; a page being erased lacks a
valid header and is erased again (R390), one whose live versions were still being rewritten stays. -/
def cutStore (s : State) : State :=
  let s := match s.store.cur with | some w => cutWrite w s | none => s
  let s := s.onStore (fun t => { t with queue := [], cur := none, paused := [], deferrals := 0, toReclaim := [] })
  match s.store.erasing with
  | some i => s.onStore (fun t =>
      let cB := (t.pages.getD i {}).copyB
      if liveCells i cB t = 0 then { erasePage i cB t with erasing := none }
      else { t with erasing := none, pages := modAt t.pages i (fun p => { p with bad := false }) })
  | none => s

end Sys2Proof.Machine
end

