-- ==== Sys2Proof/Machine/RngOps.lean ====
section
/-! DEFINITION. The DRBG and its pool (15_random_numbers, R361 to R370): CTR_DRBG with AES-256 and the derivation function, as
NIST SP 800-90A gives it (log 5, PRESUMED). -/

namespace Sys2Proof.Machine
open Sys2Proof

/-- The block-cipher chaining of the derivation function. -/
def bcc (key data : Bytes) : Bytes := (chunks 16 data).foldl (fun c x => aesEnc key (xorBytes c x)) (zeroBytes 16)
/-- `n` chained blocks of the derivation function. -/
def dfBlocks (key : Bytes) : Nat → Bytes → Bytes
  | 0, _ => []
  | n + 1, x => let y := aesEnc key x; y ++ dfBlocks key n y
/-- The derivation function to 48 bytes. -/
def df (input : Bytes) : Bytes :=
  let s := pad16 (beBytes 4 input.length ++ beBytes 4 48 ++ input ++ [0x80])
  let k := (List.range 32).map byte
  let t := (List.range 3).flatMap (fun i => bcc k (beBytes 4 i ++ zeroBytes 12 ++ s))
  dfBlocks (t.take 32) 3 (slice t 32 16)
/-- `n` counter blocks after V. -/
def ctrBlocks (key : Bytes) (v : Nat) : Nat → Nat → Bytes
  | 0, _ => []
  | n + 1, i => aesEnc key (beBytes 16 ((v + i) % 2 ^ 128)) ++ ctrBlocks key v n (i + 1)
/-- The update function. -/
def Drbg.update (d : Drbg) (data : Bytes) : Drbg :=
  let t := xorBytes (ctrBlocks d.key d.v 3 1) data
  { d with key := t.take 32, v := beNat (slice t 32 16) }
/-- Instantiation from entropy, nonce and personalisation. -/
def Drbg.make (entropy nonce pers : Bytes) : Drbg :=
  ({ key := zeroBytes 32, v := 0, counter := 0 } : Drbg).update (df (entropy ++ nonce ++ pers))
/-- A reseed. -/
def Drbg.reseed (d : Drbg) (entropy : Bytes) : Drbg := { d.update (df entropy) with counter := 0 }
/-- One generate call of at most 64 bytes. -/
def Drbg.gen (d : Drbg) (n : Nat) : Bytes × Drbg :=
  let m := (n + 15) / 16
  let out := (ctrBlocks d.key d.v m 1).take n
  let d' := ({ d with v := (d.v + m) % 2 ^ 128 } : Drbg).update (zeroBytes 48)
  (out, { d' with counter := d.counter + 1 })

/-- A fatal alarm stands, or is latched (R369, R370). -/
def rngDown (s : State) : Bool := s.rng.fatal.isSome || s.rng.latchedFatal

/-- The pooled block that filled first, and the pool without it (R362). -/
def takeBlock (r : Rng) : Option Bytes × Rng :=
  let i := if ((r.src.getD r.first {}).block).isSome then r.first else 1 - r.first
  match (r.src.getD i {}).block with
  | some b => (some b, { r with src := modAt r.src i (fun x => { x with block := none }), first := 1 - i })
  | none => (none, r)

/-- A reseed is wanted (R363): the counter has reached 2^16 - 4096, or a consumer asked for one. -/
def reseedWanted (r : Rng) : Bool :=
  r.reseedFrom.isSome || (match r.drbg with | some d => d.counter ≥ 61440 | none => false)

/-- Reseeds between generate calls when a reseed is wanted and the pool holds a block (R363); every request is served by it. -/
def tryReseed (s : State) : State :=
  match s.rng.drbg with
  | none => s
  | some d =>
    if !reseedWanted s.rng then s else
    match takeBlock s.rng with
    | (some b, r) => { s with rng := { r with
        drbg := some (d.reseed b), reseedFrom := none, fw := { r.fw with reseed := false }, ext := { r.ext with reseed := false } } }
    | (none, r) => { s with rng := { r with reseedFrom := some (r.reseedFrom.getD (now s)) } }

/-- The personalisation string of R362: 32 bytes. -/
def personal (s : State) : Bytes :=
  let b := s.sec.banks.getD s.sec.active {}
  Config.serial ++ le32 (startUps s) ++ [byte b.major, byte b.minor,
    byte (match s.pair.role with | .single => 0 | .headland => 1 | .lee => 2)] ++ zeroBytes 9

/-- Instantiates the DRBG once both first blocks are ready (R362, R370). -/
def tryInstantiate (s : State) : State :=
  if s.rng.drbg.isSome || s.rng.latchedFatal then s else
  match (s.rng.src.getD 0 {}).block, (s.rng.src.getD 1 {}).block with
  | some a, some b =>
    let s := s.onRng (fun r => { r with
      drbg := some (Drbg.make a b (personal s)),
      src := r.src.map (fun x => { x with block := none }),
      reseedFrom := none, fw := { r.fw with reseed := false }, ext := { r.ext with reseed := false } })
    let s := if s.rng.fatal.isSome then emitC evRngFatal 2 [] [] (s.onRng (fun r => { r with fatal := none })) else s
    emit evRngSeeded 0 [] s
  | _, _ => s

/-- A generate call, when the DRBG can make one (R363, R368): not before instantiation, not at 2^16. -/
def generate (n : Nat) (s : State) : Option Bytes × State :=
  match s.rng.drbg with
  | none => (none, s)
  | some d =>
    if d.counter ≥ 65536 then (none, s) else
    let (b, d) := d.gen n
    (some b, tryReseed (s.onRng (fun r => { r with drbg := some d })))

/-- A consumer draws bytes (R365); one that cannot be served waits (R367). -/
def draw (u : RngUser) (n : Nat) (s : State) : Option Bytes × State :=
  match generate n s with
  | (some b, s) => (some b, s.onRng (fun r => { r with waiting := r.waiting.filter (fun w => w.1 ≠ u) }))
  | (none, s) => (none, s.onRng (fun r => { r with
      waiting := if r.waiting.any (fun w => w.1 = u) then r.waiting else r.waiting ++ [(u, now s)] }))

/-- A key of the vault is drawn after a reseed of its own (R363, Table 15-2): it waits while no block is in the pool. A reseed or an
instantiation that followed its request serves it. -/
def drawKey (n : Nat) (s : State) : Option Bytes × State :=
  if s.rng.drbg.isNone || (s.rng.waiting.any (fun w => w.1 = .vault) && s.rng.reseedFrom.isNone) then draw .vault n s
  else
    let s := tryReseed (s.onRng (fun r => { r with reseedFrom := some (r.reseedFrom.getD (now s)) }))
    if s.rng.reseedFrom.isSome then
      (none, s.onRng (fun r => { r with
        waiting := if r.waiting.any (fun w => w.1 = .vault) then r.waiting else r.waiting ++ [(.vault, now s)] }))
    else draw .vault n s

/-- The DRBG state and the pool are zeroised (R369, R373, R374). -/
def zeroiseRng (s : State) : State :=
  s.onRng (fun r => { r with drbg := none, src := r.src.map (fun x => { x with block := none }), fw := { r.fw with fifo := [] },
                             ext := { r.ext with fifo := [] } })

/-- A port's instance. -/
def rngPort (s : State) (o : CoreId) : RngPort := match o with | .cc => s.rng.fw | .ext => s.rng.ext
/-- Changes a port. -/
def onRngPort (o : CoreId) (f : RngPort → RngPort) (s : State) : State :=
  s.onRng (fun r => match o with | .cc => { r with fw := f r.fw } | .ext => { r with ext := f r.ext })
/-- `READY` (Table 15-5). -/
def rngReady (s : State) (o : CoreId) : Bool := s.rng.drbg.isSome && !(rngPort s o).reseed

/-- A FIFO that is empty is refilled by one 64-byte generate call, while its port is ready (R371). -/
def refillPort (o : CoreId) (s : State) : State :=
  if !(rngPort s o).fifo.isEmpty || !rngReady s o then s else
  match generate 64 s with
  | (some b, s) => onRngPort o (fun p => { p with fifo := (chunks 4 b).map (fun c => BitVec.ofNat 32 (leNat c)) }) s
  | (none, s) => s

/-- A read of `RNG_DATA` (R372). -/
def readRngData (o : CoreId) (s : State) : Word × State :=
  if !rngReady s o then (0, onRngPort o (fun p => { p with err := true }) s)
  else
    let s := refillPort o s
    match (rngPort s o).fifo with
    | w :: r => (w, refillPort o (onRngPort o (fun p => { p with fifo := r }) s))
    | [] => (0, onRngPort o (fun p => { p with err := true }) s)

/-- A read of a port's register by its offset (R371, R7). -/
def readRngReg (o : CoreId) (off : Nat) (s : State) : Word × State :=
  let p := rngPort s o
  match off with
  | 0x00 => readRngData o s
  | 0x04 => (BitVec.ofNat 32 ((if rngReady s o then 1 else 0) + (if s.rng.fatal.isSome || s.rng.latchedFatal then 2 else 0) +
      (if p.err then 4 else 0) + (if s.rng.test.getLsbD 0 then 8 else 0) + p.fifo.length * 16), s)
  | 0x0C => (match o with | .cc => s.rng.test | .ext => 0, s)
  | _ => (0, s)

/-- `RESEED` (Table 15-6): the FIFO is flushed and a reseed is asked for. -/
def askReseed (o : CoreId) (s : State) : State :=
  let s := onRngPort o (fun p => { p with fifo := [], reseed := true }) s
  if s.rng.drbg.isNone then s
  else refillPort o (tryReseed (s.onRng (fun r => { r with reseedFrom := some (r.reseedFrom.getD (now s)) })))
/-- `FLUSH` (Table 15-6). -/
def flushPort (o : CoreId) (s : State) : State := refillPort o (onRngPort o (fun p => { p with fifo := [] }) s)

/-- A write of `RNG_TEST` (R373): in FACTORY only; writing it zeroises the DRBG and empties the pool. -/
def writeRngTest (v : Word) (s : State) : State :=
  if lifecycle s ≠ .factory then s
  else zeroiseRng (s.onRng (fun r => { r with test := v, lfsr := max 1 (v.toNat / 2) }))

/-- A write of a port's register by its offset. -/
def writeRngReg (o : CoreId) (off : Nat) (v : Word) (s : State) : State :=
  match off with
  | 0x04 => if v.getLsbD 2 then onRngPort o (fun p => { p with err := false }) s else s
  | 0x08 =>
    let s := if v.getLsbD 1 then flushPort o s else s
    if v.getLsbD 0 then askReseed o s else s
  | 0x0C => match o with | .cc => writeRngTest v s | .ext => s
  | _ => s

/-- One step of the test-pattern register: 31 bits, maximal length (R373; taps 31 and 28, log 11, PRESUMED). -/
def lfsrStep (x : Nat) : Nat :=
  let b := (x / 2 ^ 30 + x / 2 ^ 27) % 2
  (2 * x + b) % 2 ^ 31
/-- `n` bits of the pattern, and the register afterwards. -/
def lfsrBits : Nat → Nat → Nat × Nat
  | 0, x => (0, x)
  | n + 1, x => let y := lfsrStep x; let r := lfsrBits n y; (2 * r.1 + y % 2, r.2)

/-- A key of the vault (Table 14-2), none while the vault is unavailable (R334). -/
def vaultKey (s : State) (slot : Nat) : Option Bytes := if s.sec.vaultOk then (s.sec.vault.getD slot {}).key else none

/-- The answer of a `SECURE_OPEN` whose N_d has been drawn (R118). -/
def answerOpen (ref : CmdRef) (nH nD : Bytes) (s : State) : State :=
  match vaultKey s 1 with
  | none => respond ref stNotInState [] s
  | some k =>
    let okm := shake256 (ascii "ITF48-MBX-2" ++ [byte (s.box ref.member).ifv] ++ k ++ nH ++ nD) 68
    let s := s.onBox ref.member (fun b => { b with
      waitOpen := none,
      pending := some { chan := { kGcm := okm.take 32, salt := slice okm 32 4 }, hostProof := slice okm 52 16, at_ := now s } })
    reply ref (nD ++ slice okm 36 16) s

/-- Serves the `SECURE_OPEN` commands that wait for N_d (R365, R367). -/
def serveOpens (s : State) : State :=
  [false, true].foldl (fun s m =>
    match (s.box m).waitOpen with
    | some w =>
      match draw .nonce 32 s with
      | (some nD, s) => answerOpen w.ref w.nH nD s
      | (none, s) => s
    | none => s) s

end Sys2Proof.Machine
end

