-- ==== Sys2Proof/Machine/RelOps.lean ====
section
/-! DEFINITION. Release sessions and the signals they own (11_release_and_immobiliser, R260 to R276, R486): freshness, release
frames, LIN commands, release pins and the start outputs. -/

namespace Sys2Proof.Machine
open Sys2Proof

/-! ### Freshness (R273) -/

/-- Reserves the next freshness block by a class 1 counter write, once. -/
def reserveBlock (s : State) : State :=
  if s.rel.blockWait.isSome then s else
  let n := max (match s.rel.block with | some b => b + 1 | none => 0)
    (max ((ctrValue s 0x0200).getD 0) (s.pair.freshness.getD 0) + (if s.rel.block.isNone then 1 else 0))
  askCommit 0x0200 n (queueJob { cls := 1, items := [.ctr 0x0200 n], after := .freshness n } (s.onRel (fun r => { r with blockWait := some n })))

/-- A value is available from a committed block. -/
def haveFresh (s : State) : Bool :=
  match s.rel.fresh, s.rel.block with
  | some v, some b => v < (b + 1) * 4096
  | _, _ => false

/-- Takes the next value; when 256 values of the block remain, the next block is reserved. -/
def takeFresh (s : State) : Option Nat × State :=
  match s.rel.fresh, s.rel.block with
  | some v, some b =>
    if v < (b + 1) * 4096 then
      let s := s.onRel (fun r => { r with fresh := some (v + 1) })
      (some v, if v + 1 + 256 ≥ (b + 1) * 4096 then reserveBlock s else s)
    else (none, reserveBlock s)
  | _, _ => (none, s)

/-! ### Release frames (R271 to R275) -/

/-- The release key of slot 3 or 4: a path keeps the key it began with (R344). -/
def relKey (slot : Nat) (s : State) : Option Bytes :=
  if s.path.isNone then vaultKey s slot else if slot = 3 then s.rel.pathKeys.1 else s.rel.pathKeys.2
/-- The version frames are sent at under a `REL_FRAME_VERSION` (R275): the lower of it and the last version announced. -/
def frameVersion (v : Nat) (s : State) : Nat :=
  match s.rel.engVer with
  | some e => min v e
  | none => v

/-- A release frame before its MAC (Table 11-3). -/
def relBody (ver type session fresh permit : Nat) : Bytes :=
  if ver ≥ 2 then [2, byte type] ++ beBytes 2 session ++ beBytes 4 fresh ++ beBytes 2 permit ++ zeroBytes 6
  else [1, byte type] ++ beBytes 4 fresh ++ beBytes 2 permit
/-- A release frame with its MAC (R272). -/
def relFrame (key : Bytes) (ident : Nat) (body : Bytes) : Bytes := body ++ (cmac key (beBytes 4 ident ++ body)).take 8

/-- This device sends vehicle frames: a Lee does not (R432). -/
def drives (s : State) : Bool := s.pair.role ≠ .lee

/-- Hands one release frame to its controller: nothing without the key or a freshness value (R272, R273). -/
def sendRel (bus ident ver type session permit : Nat) (key : Option Bytes) (s : State) : State :=
  match key with
  | none => s
  | some k =>
    if !drives s then s else
    match takeFresh s with
    | (none, s) => s
    | (some f, s) =>
      canSend { bus := bus, ident := ident, rel := true,
                bytes := relFrame k ident (relBody (frameVersion ver s) type session f permit) } s

/-- A start-state frame of the open start session (R274). -/
def startFrame (permit : Bool) (s : State) : State :=
  match s.rel.start with
  | none => s
  | some st =>
    if st.bus = 0 then s else
    sendRel st.bus st.ident st.version 2 st.id ((if permit then 1 else 0) + (if permit && st.transponder then 2 else 0)) st.key s

/-- The door mask of a bus: every door on it that an open access session holds (R261). -/
def busMask (s : State) (bus : Nat) : Nat :=
  (s.rel.access.flatMap (·.doors)).foldl (fun m d =>
    if bitSet (u8 d.record 4) 0 && u8 d.record 5 = bus then setBit m d.door else m) 0

/-- A door release frame at each change of a bus's door mask (R261, R274). -/
def doorFrames (session : Nat) (s : State) : State :=
  [1, 2].foldl (fun s bus =>
    let m := busMask s bus
    let last := if bus = 1 then s.rel.masks.1 else s.rel.masks.2
    if m = last then s else
    let (ver, ident) := s.rel.doorFmt.getD (param s 0x0605, param s 0x0609)
    (sendRel bus ident ver 1 session m (match s.rel.doorKey with | some k => some k | none => vaultKey s 4) s).onRel (fun r => { r with masks := if bus = 1 then (m, r.masks.2) else (r.masks.1, m) })) s

/-! ### LIN commands and pins (R261, R486, R490) -/

/-- The newest STATUS of a handle module. -/
def linNode (s : State) (bus node : Nat) : LinNode :=
  (s.bus.nodes.find? (fun n => n.bus == bus && n.node == node)).getD { bus := bus, node := node }
/-- Changes or creates a node's entry. -/
def onNode (bus node : Nat) (f : LinNode → LinNode) (s : State) : State :=
  s.onBus (fun b => { b with nodes :=
    (if b.nodes.any (fun n => n.bus == bus && n.node == node) then
      b.nodes.map (fun n => if n.bus == bus && n.node == node then f n else n)
    else b.nodes ++ [f { bus := bus, node := node }]) })

/-- An unlock or lock COMMAND to a handle module (R486, Table 22-4); none while VBAT is in the reduced range (R51). -/
def linCommand (bus node : Nat) (unlock : Bool) (s : State) : State :=
  if !drives s || !s.pwr.vbatFull || (s.bus.bus.getD (1 + bus) {}).state = 0 || busFaulted s (1 + bus) || (linNode s bus node).silent then s else
  let b0 := (if unlock then 1 else 2) + 16 * node
  let ver := min (param s 0x0E16) ((linNode s bus node).version.getD (param s 0x0E16))
  let put := fun (d : Bytes) (s : State) => s.onBus (fun b => { b with linTx := lastN 16 (b.linTx ++ [(bus, d)]) })
  if ver < 2 then put (byte b0 :: zeroBytes 7) s
  else
    match (match s.rel.doorKey with | some k => some k | none => vaultKey s 4) with
    | none => s
    | some k =>
      match takeFresh s with
      | (none, s) => s
      | (some f, s) =>
        let mac := (cmac k ([9, byte bus, 0x50] ++ beBytes 4 f ++ [byte b0])).take 4
        put (byte b0 :: beBytes 3 f ++ mac) (s.onRel (fun r => { r with lastSent := some (max f (r.lastSent.getD 0)) }))

/-- Asserts or negates a release pin: asserted low, high-Z when negated (R490). -/
def relPin (pin : Nat) (on : Bool) (s : State) : State :=
  s.onBus (fun b => { b with pins := modAt b.pins pin (fun p => { p with out := on, level := !on }) })

/-- The pin part of a door's signal when it joins or restarts (R261). -/
def pinJoin (record : Bytes) (joins : Bool) (s : State) : State :=
  if !bitSet (u8 record 4) 2 then s else
  let pin := u8 record 8
  let form := u8 record 9
  if form = 0 then (if joins then relPin pin true s else s)
  else (relPin pin true s).onRel (fun r => { r with
    pulses := r.pulses.filter (fun p => p.1 ≠ pin) ++ [(pin, now s + form * 10000)] })

/-- A release pin stays asserted: a door held by an open access session has it as its level, or a pulse runs on it (R261). -/
def pinWanted (s : State) (pin : Nat) : Bool :=
  (s.rel.access.flatMap (·.doors)).any (fun d => bitSet (u8 d.record 4) 2 && u8 d.record 8 == pin && u8 d.record 9 == 0) ||
  s.rel.pulses.any (fun p => p.1 == pin)
/-- A door's signals when it leaves its session (R261, R262): lock on LIN, level negated. -/
def doorLeaves (d : DoorHold) (s : State) : State :=
  let s := if bitSet (u8 d.record 4) 1 then linCommand (u8 d.record 6) (u8 d.record 7) false s else s
  if bitSet (u8 d.record 4) 2 && u8 d.record 9 = 0 && !pinWanted s (u8 d.record 8) then relPin (u8 d.record 8) false s else s

/-- A door's timeout in base ticks (R262). -/
def doorTimeout (s : State) (record : Bytes) : Nat :=
  1000000 * (if u16 record 12 = 0 then param s 0x0602 else u16 record 12)

/-- The next free session ID (R260): never 0x0000 or 0xFFFF, never that of an open session. -/
def idAfter (n : Nat) : Nat := if n ≥ 0xFFFE then 1 else n + 1
/-- Skips the IDs of open sessions. -/
def freeId (used : List Nat) : Nat → Nat → Nat
  | 0, n => n
  | k + 1, n => if used.contains n then freeId used k (idAfter n) else n
/-- Takes a session ID. -/
def takeId (s : State) : Nat × State :=
  let used := s.rel.access.map (·.id) ++ s.rel.start.toList.map (·.id)
  let n := freeId used 18 s.rel.nextId
  (n, s.onRel (fun r => { r with nextId := idAfter n }))

/-- Clears what open access sessions began with once none is open (R286, R344). -/
def forgetDoorFmt (s : State) : State :=
  if s.rel.access.isEmpty then s.onRel (fun r => { r with doorFmt := none, doorKey := none }) else s

/-- Ends an access session (R262): its doors leave the release signals, and the record gives the reason and the command's `tag`. -/
def closeAccess (id reason : Nat) (tag : Option Nat) (s : State) : State :=
  match s.rel.access.find? (fun a => a.id == id) with
  | none => s
  | some a =>
    let s := s.onRel (fun r => { r with access := r.access.filter (fun x => x.id ≠ id) })
    let s := doorFrames id s
    let s := a.doors.foldl (fun s d => doorLeaves d s) s
    mirrorSessions [id] (emitT tag evSessionEnd 0 (le16 id ++ [byte reason]) (activity (forgetDoorFmt s)))

/-- One door leaves its session by its timeout; with its last door the session ends with reason 1 (R262). -/
def dropDoor (door : Nat) (s : State) : State :=
  match s.rel.access.find? (fun a => a.doors.any (fun d => d.door == door)) with
  | none => s
  | some a =>
    if a.doors.length ≤ 1 then closeAccess a.id 1 none s
    else
      let s' := s.onRel (fun r => { r with access := r.access.map (fun x =>
        if x.id = a.id then { x with doors := x.doors.filter (fun d => d.door ≠ door) } else x) })
      let s' := doorFrames a.id s'
      mirrorSessions [] ((a.doors.filter (fun d => d.door == door)).foldl (fun s d => doorLeaves d s) s')

/-! ### The transponder ports (R283) -/

/-- A transponder port's diagnoses, bit 1 ground, 2 battery, 3 open. -/
def tpDiags (port : Nat) (s : State) : Nat := if port = 1 then s.rel.tpDiag.1 else s.rel.tpDiag.2
/-- A diagnosis of a transponder port is found or clears (R46, R283). -/
def tpFault (port code : Nat) (clear : Bool) (s : State) : State :=
  if bitSet (tpDiags port s) code != clear then s else
  let put := fun (x : Nat) => if clear then clrBit x code else setBit x code
  let s := s.onRel (fun r => { r with tpDiag := if port = 1 then (put r.tpDiag.1, r.tpDiag.2) else (r.tpDiag.1, put r.tpDiag.2) })
  if clear then emitC evTransponderDiag 1 [byte port, byte code] [byte port, byte code] s
  else emitF evTransponderDiag 1 [byte port, byte code] [byte port, byte code] s

/-! ### Start outputs (R23, R264 to R270) -/

/-- START_A may be energised: no diagnosis but an on-state open, VREL valid (R269). -/
def startAOk (s : State) : Bool := (s.rel.diagA.1 = 0 || (s.rel.diagA.1 = 8 && s.rel.diagA.2)) && s.pwr.vrelValid
/-- Energises the start outputs in the order of R23: START_B, then START_A. -/
def energise (s : State) : State :=
  match s.rel.start with
  | none => s
  | some st =>
    if !drives s then s else
    let b : Bool := s.rel.diagB.1 == 0 && !st.bKilled
    let a := startAOk s && !st.aKilled
    let s := if b && !s.rel.startB then erodeAdd 8 2 1 s else s
    let s := if a && !s.rel.startA then erodeAdd 8 1 1 s else s
    s.onRel (fun r => { r with startB := r.startB || b, startA := r.startA || a })
/-- Withdraws START_A, then START_B; the off-state checks follow within 2 ms (R268). -/
def withdrawOutputs (s : State) : State :=
  s.onRel (fun r => { r with startA := false, startB := false, checkAt := if r.startA || r.startB then min r.checkAt (now s + 2000) else r.checkAt })

/-- Ends the start session (R265): the outputs and the frame are withdrawn in the reverse order of R23. -/
def closeStart (reason : Nat) (tag : Option Nat) (s : State) : State :=
  match s.rel.start with
  | none => s
  | some st =>
    let s := startFrame false (withdrawOutputs s)
    let s := s.onRel (fun r => { r with start := none })
    mirrorSessions [st.id] (emitX evSessionEnd 0 (le16 st.id ++ [byte reason]) { log := true, tag := tag } (activity s))

/-- Ends every session (R262, R265). -/
def closeAll (reason : Nat) (tag : Option Nat) (s : State) : State :=
  closeStart reason tag ((s.rel.access.map (·.id)).foldl (fun s id => closeAccess id reason tag s) s)


/-! ### Door-open sources (R262, R265) -/

/-- A door's record: the one its session began with (R285), else the stored one. -/
def doorRecord (s : State) (door : Nat) : Option Bytes :=
  match (s.rel.access.flatMap (·.doors)).find? (fun d => d.door == door) with
  | some d => some d.record
  | none => recBody s 0x0022 door

/-- A door's change to open or closed as its source reads it: an opening ends its session with reason 0, and the start session once
ignition has been seen on and then off. -/
def doorReads (door : Nat) (isOpen : Bool) (s : State) : State :=
  if !isOpen then s else
  let s := match s.rel.access.find? (fun a => a.doors.any (fun d => d.door == door)) with
    | some a => closeAccess a.id 0 none s
    | none => s
  match s.rel.start with
  | some st => if st.ignSeen && st.ignOff then closeStart 0 none s else s
  | none => s

/-- Every door whose source matches has turned open or closed. -/
def doorSource (isSrc : Bytes → Bool) (isOpen : Bool) (s : State) : State :=
  (List.range 16).foldl (fun s d =>
    match doorRecord s d with
    | some r => if isSrc r then doorReads d isOpen s else s
    | none => s) s

/-! ### Ignition and running (R266) -/

/-- Contact input `n`, 1 to 8. -/
def contact (s : State) (n : Nat) : Contact := s.sen.cin.getD (n - 1) {}

/-- The contact that confirms engine running, 0 for none: an open session keeps its own (R266, R286). -/
def runInput (s : State) : Nat := match s.rel.start with | some t => t.runInput | none => param s 0x060B
/-- The contact that decides ignition, 0 for none. -/
def ignInput (s : State) : Nat := match s.rel.start with | some t => t.ignInput | none => param s 0x060C
/-- Ignition now (R266): the contact that decides it, else the frame's bit. -/
def ignNow (s : State) : Bool := if ignInput s = 0 then s.rel.engine.2 else (contact s (ignInput s)).asserted
/-- Ignition as read: once seen on, then off, a door opening ends the start session (R265). -/
def ignitionReads (on : Bool) (s : State) : State :=
  s.onRel (fun r => { r with start := r.start.map (fun st => if on then { st with ignSeen := true, ignOff := false } else { st with ignOff := st.ignSeen }) })

/-- Engine running is confirmed (R265, R266). -/
def runningConfirmed (s : State) : State :=
  closeStart 2 none (s.onRel (fun r => { r with engine := (true, r.engine.2) }))

/-! ### Grants (R260, R264) -/

/-- A start grant: opens the session, or extends it (R264). `cands` are the granting tokens with the order of R222. -/
def grantStart (cands : List (Nat × Nat × Nat)) (pick : List (Nat × Nat × Nat) → Nat) (tp : Bool) (ref : Nat × Nat) (tag : Option Nat)
    (s : State) : State :=
  match s.rel.start with
  | some st =>
    let all := cands ++ st.cands.filter (fun c => !cands.any (fun x => x.1 == c.1))
    let drv := if tp then (cands.headD (0, 0, 0)).1 else pick all
    let s := s.onRel (fun r => { r with start := some { st with
      cands := all, driver := drv, due := now s + st.span, transponder := tp } })
    mirrorSessions [] (emitX evStartPermit 0 (le16 st.id ++ le16 drv) { ref := ref, tag := tag } (startFrame true s))
  | none =>
    let (id, s) := takeId s
    let drv := pick cands
    let rep := 10 * param s 0x060A
    let st : Start := {
      id := id, driver := drv, span := 1000000 * param s 0x0603, due := now s + 1000000 * param s 0x0603, transponder := tp, repeatMs := rep,
      nextRepeat := now s + 1000 * rep, bus := param s 0x0606, ident := param s 0x0607, rxIdent := param s 0x0608,
      version := param s 0x0605, runInput := param s 0x060B, ignInput := param s 0x060C,
      key := relKey 3 s, cands := cands, ignSeen := ignNow s, bKilled := s.rel.diagB.1 != 0 }
    let f0 := s.rel.fresh.getD 0
    let s := s.onRel (fun r => { r with start := some { st with openFresh := f0 } })
    let s := energise (startFrame true s)
    mirrorSessions [] (emitX evStartPermit 0 (le16 id ++ le16 drv) { ref := ref, tag := tag } s)

/-- A token's grant of doors (R260): held doors restart, the others form a new session; the signals follow in R20's order. -/
def grantAccess (token : Nat) (doors : List Nat) (authRef : Nat × Nat) (commitSeq : Nat) (tag : Option Nat) (s : State) :
    List Nat × State :=
  let s := if s.rel.access.isEmpty then
      s.onRel (fun r => { r with doorFmt := some (param s 0x0605, param s 0x0609), doorKey := relKey 4 s }) else s
  let held := doors.filter (fun d => s.rel.access.any (fun a => a.doors.any (fun h => h.door == d)))
  let fresh := doors.filter (fun d => !held.contains d)
  let restart := fun (h : DoorHold) => if held.contains h.door then { h with due := now s + h.span } else h
  let touched := (s.rel.access.filter (fun a => a.doors.any (fun h => held.contains h.door))).map (fun a =>
    (a.id, (a.doors.filter (fun h => held.contains h.door)).foldl (fun m h => setBit m h.door) 0))
  let s := s.onRel (fun r => { r with access := r.access.map (fun a => { a with doors := a.doors.map restart }) })
  let holds := fresh.filterMap (fun d => (recBody s 0x0022 d).map (fun r =>
    ({ door := d, record := r, span := doorTimeout s r, due := now s + doorTimeout s r } : DoorHold)))
  let (touched, s) := if holds.isEmpty then (touched, s) else
    let (id, s) := takeId s
    (touched ++ [(id, holds.foldl (fun m h => setBit m h.door) 0)],
     s.onRel (fun r => { r with access := r.access ++ [{ id := id, token := token, doors := holds }] }))
  let s := touched.foldl (fun s t => emitX evReleaseGranted 0
    (le16 t.1 ++ le16 t.2 ++ [0x0E] ++ le16 commitSeq) { ref := authRef, tag := tag } s) s
  let s := doorFrames ((touched.getLastD (0, 0)).1) s
  let s := holds.foldl (fun s h => if bitSet (u8 h.record 4) 1 then linCommand (u8 h.record 6) (u8 h.record 7) true s else s) s
  let s := holds.foldl (fun s h => pinJoin h.record true s) s
  let s := (s.rel.access.flatMap (·.doors)).foldl (fun s h => if held.contains h.door then pinJoin h.record false s else s) s
  (touched.map (·.1), mirrorSessions [] s)

end Sys2Proof.Machine
end

