-- ==== Sys2Proof/Machine/LfOps.lean ====
section
/-! DEFINITION. The LF field engine's operations (07_lf_field_engine): usability (R143), durations (R151, R152), dissipation,
the checks of R170, the thermal account and duty, bursts, diagnoses and the validation of R158. Phasor arithmetic is done on
integers: milliamperes, millivolts, milliohms (log 21). -/

namespace Sys2Proof.Machine
open Sys2Proof

/-- LF channel `c`, 1 to 48. -/
def lfChan (s : State) (c : Nat) : LfChan := s.lf.chans.getD (c - 1) {}
/-- Changes an LF channel. -/
def onChan (c : Nat) (f : LfChan → LfChan) (s : State) : State := s.onLf (fun l => { l with chans := modAt l.chans (c - 1) f })
/-- A channel's supply group, 0 to 3 (R33). -/
def vlfGroup (c : Nat) : Nat := (c - 1) / 12
/-- A channel's regulatory current cap: 0 while the record is absent (R168, R290). -/
def lfCap (s : State) (c : Nat) : Nat := match s.lf.reg with | some r => u8 r (363 + c) | none => 0
/-- A supply group is valid (R143). -/
def groupValid (s : State) (g : Nat) : Bool :=
  s.pwr.vlfValid.getD g false && !s.pwr.vlfOv.getD g false && !s.pwr.vbatOv
/-- A channel is usable (R143). -/
def usable (s : State) (c : Nat) : Bool :=
  1 ≤ c && c ≤ 48 && !(lfChan s c).disabled && (lfChan s c).diag = 0 && groupValid s (vlfGroup c) && lfCap s c ≠ 0

/-! ### Carrier, windows and coding (R144, R151, R152) -/

/-- The configured carrier increment. -/
def carrierInc (s : State) : Nat := param s 0x0201
/-- The increment that a burst is sent at: the configured one when its own field is 0. -/
def incOf (s : State) (inc : Nat) : Nat := if inc = 0 then carrierInc s else inc
/-- The carrier frequency of an increment, exactly, in units of 2^-20 Hz (R144). -/
def carrierF (inc : Nat) : Nat := inc * 15625
/-- The duration of whole carrier periods, in us. -/
def perUs (inc n : Nat) : Nat := (n * 67108864 + inc - 1) / max 1 inc
/-- The fewest periods that last `us`. -/
def periodsFor (inc us : Nat) : Nat := (us * inc + 67108863) / 67108864
/-- The most whole periods that fit in `us`. -/
def periodsIn (inc us : Nat) : Nat := us * inc / 67108864
/-- Settle, in periods: at least 100 us and at least 4 (R151). -/
def settlePer (inc : Nat) : Nat := max 4 (periodsFor inc 100)
/-- Brake, in periods: at least 60 us and at least 2 (R151). -/
def brakePer (inc : Nat) : Nat := max 2 (periodsFor inc 60)
/-- A window of `us` microseconds in periods: settle, measurement, brake; a preamble has no brake, and that of a carrier burst follows
its requested duration (R151, Table 7-2). -/
def windowPer (inc us : Nat) (preamble : Bool) : Nat × Nat × Nat :=
  let b := if preamble then 0 else brakePer inc
  (settlePer inc, periodsIn inc us - settlePer inc - b, b)
/-- A refresh slot (R151). -/
def slotUs (inc : Nat) : Nat := max 250 (perUs inc (settlePer inc + 10 + brakePer inc))
/-- The bits of a wake frame at a version (Table 9-1). -/
def frameBits (version : Nat) : Nat := if version ≤ 1 then 88 else 96
/-- A wake burst's preamble and frame. -/
def frameUs (inc version : Nat) : Nat := 500 + perUs inc (16 * frameBits version)
/-- The half-bits of a frame, 8 periods each, carrier on or off: most significant bit first, a 1 on then off, a 0 off then on (R152). -/
def halfBits (frame : Bytes) : List Bool :=
  frame.flatMap (fun b => ((List.range 8).reverse).flatMap (fun k => [b.getLsbD k, !b.getLsbD k]))

/-! ### Dissipation, thermal account and duty -/

/-- P_ch of one drive, in uW, at the burst's carrier. -/
def chPower (s : State) (inc : Nat) (d : Drive) : Nat :=
  (1500 * d.amp) * (1500 * d.amp) * (lfChan s d.chan).rbr / (65025 * 2000) +
    carrierF inc * s.pwr.vlf.getD (vlfGroup d.chan) 0 / (40000 * 1048576)
/-- Energy of drives over a time, in uJ. -/
def driveUj (s : State) (inc us : Nat) (ds : List Drive) : Nat := (ds.map (chPower s inc)).sum * us / 1000000
/-- E_th now, in uJ (R167). -/
def ethNow (s : State) : Nat := s.lf.eth - s.lf.ethLeak * (s.clk.mono - s.lf.ethAt) / 100
/-- Energy joins the thermal account; from now on it falls at the leak in effect. -/
def addEth (uj : Nat) (s : State) : State :=
  s.onLf (fun l => { l with eth := ethNow s + uj, ethAt := s.clk.mono, ethLeak := param s 0x0207 })
/-- A changed `LF_THERMAL_LEAK` applies from now on. -/
def settleEth (s : State) : State := if s.lf.ethLeak = param s 0x0207 then s else addEth 0 s
/-- Used LF duty in ms. -/
def lfDutyUsed (s : State) : Nat := s.lf.duty.sum
/-- The record's LF duty cap. -/
def lfDutyCap (s : State) : Nat := match s.lf.reg with | some r => u32 r 8 | none => 0
/-- Started milliseconds. -/
def startedMs (us : Nat) : Nat := (us + 999) / 1000
/-- The milliseconds that a time from `a` to `b` touches (R169, R315). -/
def touchedMs (a b : Nat) : Nat := if b ≤ a then 0 else (b - 1) / 1000 - a / 1000 + 1
/-- Drive time joins the present duty bin (R169). -/
def addLfDuty (ms : Nat) (s : State) : State := s.onLf (fun l => { l with duty := modAt l.duty 0 (· + ms) })
/-- A drive from `a` to `b` on the retained clock is counted: each started millisecond once, by whatever bursts touch it (R169). -/
def addDrive (a b : Nat) (s : State) : State :=
  let n := touchedMs (max (1000 * s.lf.dutyLast) a) b
  (addLfDuty n s).onLf (fun l => { l with dutyLast := if n = 0 then l.dutyLast else (b - 1) / 1000 + 1 })
/-- The duty check of R169. -/
def lfDutyOk (s : State) (path : Bool) (ms : Nat) : Bool :=
  if path then lfDutyUsed s + ms ≤ lfDutyCap s else 10 * (lfDutyUsed s + ms) ≤ 9 * lfDutyCap s
/-- The thermal check of R167. -/
def thermalOk (s : State) (path : Bool) (uj : Nat) : Bool := ethNow s + uj ≤ (if path then 120000 else 30000)
/-- `EV_LF_THERMAL`, at most once a second (R167). -/
def thermalEvent (uj us : Nat) (s : State) : State :=
  let (ok, s) := rateLimit 0x040400 1000000 s
  if ok then emit evLfThermal 1 (le16 (sat 65535 (1000 * uj / max 1 us))) s else s
/-- The predicted energy of a channel's sounding: P_ch at the 0.5 A and over the 1.5 ms that bound it (R165, log 89). -/
def soundUj (s : State) (c : Nat) : Nat := driveUj s (carrierInc s) 1500 [{ chan := c, amp := 85, phase := 0 }]

/-- The limits of R142 on channels that drive together. -/
def r142 (chans : List Nat) : Bool :=
  chans.length ≤ 8 && (List.range 4).all (fun g => (chans.filter (fun c => vlfGroup c == g)).length ≤ 4)

/-- The checks of R170 in their order, but for the thermal one: the status of the first failure. -/
def lfCheck (path : Bool) (groups : List (List Drive)) (uj us : Nat) (s : State) : Option Nat :=
  let perChan := groups.flatten.findSome? (fun d =>
    if (lfChan s d.chan).disabled || s.pair.role = .lee then some stNotInState
    else if (lfChan s d.chan).diag ≠ 0 then some stHwFault
    else if !groupValid s (vlfGroup d.chan) then some stNotInState
    else if d.amp > lfCap s d.chan then some stRegulatory
    else none)
  match perChan with
  | some st => some st
  | none =>
    if groups.any (fun g => !r142 (g.map (·.chan))) || uj > 6 * us then some stBadParam
    else if !lfDutyOk s path (startedMs us) then some stRegulatory
    else none

/-! ### Diagnoses (R161) -/

/-- A diagnosis of Table 7-7 is set and reported once, with the channel's diagnosis bits (DEDUCED, log 22). One that off-state scans
clear needs 3 clean ones from now on. -/
def setLfDiag (c bit : Nat) (s : State) : State :=
  let s := if bit = 1 || bit = 2 || bit = 4 then onChan c (fun x => { x with clean := 0 }) s else s
  if bitSet (lfChan s c).diag bit then s else
  let s := onChan c (fun x => { x with diag := setBit x.diag bit }) s
  emitF evLfDiag 1 [byte c, byte bit] [byte c, byte (lfChan s c).diag] s
/-- A diagnosis clears, reported once (R46). -/
def clrLfDiag (c bit : Nat) (s : State) : State :=
  if !bitSet (lfChan s c).diag bit then s else
  let s := onChan c (fun x => { x with diag := clrBit x.diag bit }) s
  emitC evLfDiag 1 [byte c, byte bit] [byte c, byte (lfChan s c).diag] s
/-- The diagnoses a host enable or a passing sounding clears: open, short across the coil, overcurrent, detuned, implausible. -/
def clrDriveDiags (c : Nat) (s : State) : State :=
  onChan c (fun x => { x with implaus := 0 }) ([0, 3, 5, 6, 7].foldl (fun s b => clrLfDiag c b s) s)

/-- Detuning of a resonance estimate, in 10 Hz, against a carrier in 2^-20 Hz: in 0.01 % (R148). -/
def detuning (res f : Nat) : Int := roundDivI (10000 * (10485760 * (res : Int) - f)) (max 1 f)
/-- Every channel's detuning against a newly written carrier, with those beyond 8 % flagged (R145), and the matrix emptied (R176): the
records still under validation are of the carrier before the write. -/
def retune (s : State) : State :=
  let f := carrierF (carrierInc s)
  let det := fun (c : LfChan) => if c.res = 0 then c else { c with det := detuning c.res f }
  let s := s.onLf (fun l => { l with
    model := [], pendCoup := [], retuneDue := false, valid := l.valid.map (fun v => ({ v.1 with inc := v.1.carrier }, v.2)), pendChan := l.pendChan.map (fun e => (e.1, det e.2)), chans := l.chans.map det })
  ((List.range 48).map (· + 1)).foldl (fun s c =>
    if (lfChan s c).res ≠ 0 && (lfChan s c).det.natAbs > 800 then setLfDiag c 6 s else s) s

/-! ### The coupling matrix (R176) -/

/-- An entry of the committed matrix. -/
def coup (s : State) (i j : Nat) : Option Coup := s.lf.model.find? (fun c => c.row == i && c.col == j)
/-- `num / den` ohms as a 32-bit floating point number, in units of 2^-40 ohm (R177): 24 significant bits, ties to even. -/
def ohms (num : Int) (den : Nat) : Int :=
  let n := num.natAbs * 2 ^ 40
  let e := Nat.log2 (n / max 1 den) - 23
  let m := roundEven n (den * 2 ^ e) * 2 ^ e
  if num < 0 then -(m : Int) else (m : Int)
/-- The nearest whole number of 1/k ohm. -/
def inOhms (k : Nat) (z : Int) : Int := roundDivI (k * z) (2 ^ 40)
/-- Square of a complex magnitude. -/
def mag2 (x y : Int) : Int := x * x + y * y

/-- The reactance omega L of a channel at a frequency in 2^-20 Hz, in mOhm, from its stored inductance. -/
def omegaL (c : LfChan) (f : Nat) : Nat := roundDiv (6283185307 * f * c.ind) (10000000000000 * 1048576)
/-- |Z|^2 of a channel at a carrier, from its stored estimate, in 2^-80 ohm^2: Z_jj at the configured carrier, else what its sounded
loop resistance, inductance and resonance give; 0 when nothing is stored (log 92). -/
def selfZ2 (s : State) (inc c : Nat) : Nat :=
  match (if inc = carrierInc s then coup s c c else none) with
  | some e => (mag2 e.re e.im).toNat
  | none =>
    let x := lfChan s c
    if x.ind = 0 || x.res = 0 then 0 else
    let f := carrierF inc
    let w := omegaL x f
    let fr := 10485760 * x.res
    let im : Int := (w : Int) - w * fr * fr / (f * f)
    (mag2 (10 * x.rdc) im).toNat * 2 ^ 80 / 1000000
/-- A drive's target is reachable at a supply in mV (R147). -/
def reachable (s : State) (inc v : Nat) (d : Drive) : Bool :=
  (1500 * d.amp) * (1500 * d.amp) * selfZ2 s inc d.chan ≤ (306 * v) * (306 * v) * 2 ^ 80

/-- Puts entries into a matrix. -/
def putCoups (new old : List Coup) : List Coup :=
  old.filter (fun o => !new.any (fun n => n.row == o.row && n.col == o.col)) ++ new

/-- The pending quantities take effect at a burst boundary (R156): the exchange of the two model buffers. Neither row nor column of
a channel flagged implausible is updated (R159). The pre-emphasis of R149 is chosen within 0 to 6 periods by no stated formula:
free (log 8). -/
def modelCommit (s : State) : State :=
  if !s.lf.commitDue then s else
  let flagged := fun (c : Nat) => bitSet (lfChan s c).diag 7
  let new := s.lf.pendCoup.filter (fun c => !flagged c.row && !flagged c.col)
  let s := mirror (new.map (fun c => .coupling c.row c.col c.re c.im ((now s - c.at_) / 1000) c.temp)) s
  let chans := s.lf.pendChan
  let s := s.onLf (fun l => { l with model := putCoups new l.model, pendCoup := [], pendChan := [], commitDue := false })
  chans.foldl (fun s e =>
    let (a, s) := drawFree s
    let (b, s) := drawFree s
    onChan e.1 (fun x => { x with res := e.2.res, q := e.2.q, ind := e.2.ind, rdc := e.2.rdc, cable := e.2.cable, det := e.2.det,
                                  rbr := e.2.rbr, temp := e.2.temp, kOnOff := (a % 7, b % 7) })
      (if e.2.res = 0 then s else erodeAdd 2 e.1 e.2.q s)) s

/-- Nothing uses the engine. -/
def lfIdle (s : State) : Bool := !lfRuns s

/-- `LF_CHANNEL_ENABLE` takes effect (R163). -/
def applyEnable (c : Nat) (on : Bool) (s : State) : State :=
  if on then clrDriveDiags c (onChan c (fun x => { x with disabled := false }) s)
  else onChan c (fun x => { x with disabled := true }) s

/-- The committed regulatory record takes effect for the LF engine at the end of the burst in progress, a sounding burst too (R291). -/
def takeLfRecord (s : State) : State :=
  if s.lf.cur.isSome || s.lf.soundMask ≠ 0 then s else
  let reg := (recBody s 0x0050 0).map (fun b => b.take 416)
  s.onLf (fun l => { l with reg := reg })

/-- Live parameters, and the enables and disables that waited, take effect (R24, R163, R167). -/
def lfLive (s : State) : State :=
  let s := settleEth (boundaryM .burst s)
  (s.lf.pendEnable.foldl (fun s e => applyEnable e.1 e.2 s) s).onLf (fun l => { l with pendEnable := [] })
/-- Once the engine has stopped, what still waits takes effect, frozen parameters too, and a written carrier with its consequences
(R24, R145, R176). -/
def lfStopped (s : State) : State :=
  if !lfIdle s then s else
  let s := boundaryM .frozenLf (takeLfRecord (lfLive s))
  if s.lf.retuneDue then retune s else s
/-- An off-state scan that fell due while a burst was sent waits for the next interval (Table 7-8). -/
def postponeScan (s : State) : State :=
  let every := 100000 * param s 0x0206
  s.onLf (fun l => { l with lastScan := l.lastScan + (now s - l.lastScan) / max 1 every * every })

/-- A burst boundary (R24, R156, R291): commits, live parameters and a committed regulatory record take effect; the frozen ones once
the engine has stopped. -/
def lfBoundary (s : State) : State := lfStopped (takeLfRecord (lfLive (postponeScan (modelCommit s))))
/-- A burst boundary may commit now (R156): no burst is sent, and no sounding burst either, unless a path interrupts it. -/
def betweenBursts (s : State) : Bool := s.lf.cur.isNone && (s.lf.soundMask = 0 || s.lf.soundHeld)

/-- Which of a window's channels are off target because their target is not reachable (R147). -/
def unreached (s : State) (inc : Nat) (w : Window) : List Nat :=
  (w.drives.filter (fun d => !reachable s inc (s.pwr.vlf.getD (vlfGroup d.chan) 0) d)).map (·.chan)
/-- The channels of the preamble that the frame's envelope limits do not cover (R149): Q outside 5 to 60, detuned, or not reachable.
A channel with no estimate yet is not judged (log 92). -/
def frameOffs (s : State) (inc : Nat) (w : Window) : List Nat :=
  let far := unreached s inc w
  (w.drives.filter (fun d => let c := lfChan s d.chan
    far.contains d.chan || (c.q ≠ 0 && (c.q < 500 || c.q > 6000)) || (c.res ≠ 0 && (detuning c.res (carrierF inc)).natAbs > 800))).map (·.chan)

/-- A burst begins: the commit due at this boundary comes first, then what the burst starts from is noted (R143, R147, R149). -/
def startBurst (b : Burst) (s : State) : State :=
  let s := modelCommit s
  let inc := incOf s b.inc
  s.onLf (fun l => { l with cur := some { b with
    carrier := inc, started := now s, vlf := s.pwr.vlf, chans := ((List.range 48).map (· + 1)).filter (usable s),
    windows := b.windows.map (fun w => { w with offTarget := w.offTarget || !(unreached s inc w).isEmpty }),
    frameOff := if b.frame.isEmpty then [] else frameOffs s inc (b.windows.headD {}) } })

/-- Where window `k` of a burst begins and ends, in us from its start (R151): the preamble's is the first 500 us, before the frame. -/
def windowSpan (b : Burst) (k : Nat) : Nat × Nat :=
  let n := b.windows.length
  match b.kind with
  | .wake | .locate =>
    let f := b.durUs - 500 * (n - 1)
    if k = 0 then (0, 500) else (f + 500 * (k - 1), f + 500 * k)
  | _ => (k * b.durUs / max 1 n, (k + 1) * b.durUs / max 1 n)
/-- What a burst drives and when, in us from its start: its windows, and the frame after the preamble's with the same channels. -/
def segments (b : Burst) : List (Nat × Nat × List Drive) :=
  let w := b.windows.zipIdx.map (fun x => ((windowSpan b x.2).1, (windowSpan b x.2).2, x.1.drives))
  if b.frame.isEmpty then w else w ++ [(500, (windowSpan b 1).1, (b.windows.headD {}).drives)]
/-- When a channel stops in the burst being sent, if it does before `t`. -/
def stopOf (b : Burst) (c t : Nat) : Nat := (b.faults.filter (fun f => f.1 == c)).foldl (fun m f => min m f.2.2) t
/-- The energy of the periods that the burst being sent has driven so far, in uJ (R167). -/
def drivenUj (s : State) (b : Burst) : Nat :=
  let t := now s - b.started
  ((segments b).map (fun g => (g.2.2.map (fun d =>
    chPower s b.carrier d * (min g.2.1 (stopOf b d.chan t) - g.1))).sum)).sum / 1000000
/-- The times in which the burst being sent has driven a bridge join the duty (R169). -/
def burstDuty (b : Burst) (s : State) : State :=
  let t := now s - b.started
  let t0 := s.clk.mono - t
  (segments b).foldl (fun s g =>
    let e := (g.2.2.map (fun d => min g.2.1 (stopOf b d.chan t))).foldl max g.1
    if e ≤ g.1 then s else addDrive (t0 + g.1) (t0 + e) s) s

/-- The burst being sent ends, with its drive time and energy counted (R167, R169), and the boundary follows. A keep-fresh burst does
not keep Flood (R171). -/
def finishBurst (uj : Nat) (s : State) : State :=
  match s.lf.cur with
  | none => s
  | some b =>
    let keeps := b.keeps s
    let s := burstDuty b (addEth uj s)
    let s := lfBoundary (s.onLf (fun l => { l with cur := none, lastEnd := now s }))
    if keeps then activity s else s
/-- The burst in progress stops and counts as not sent (R53, R71, R157): it adds the energy of the periods it drove. -/
def cutBurst (s : State) : State :=
  match s.lf.cur with
  | none => s
  | some b => finishBurst (drivenUj s b) s

/-- The measurement time `t`, in us from the burst's start, falls in the measurement of a window (R151). -/
def measures (b : Burst) (t : Nat) : Bool :=
  (List.range b.windows.length).any (fun k =>
    let sp := windowSpan b k
    let (st, me, _) := windowPer b.carrier (sp.2 - b.brakeUs - sp.1) ((!b.frame.isEmpty && k = 0) || b.kind = .carrier)
    sp.1 + perUs b.carrier st ≤ t && t ≤ sp.1 + perUs b.carrier (st + me))

/-- A channel stops in the burst being sent: the windows it misses are degraded (R162), and its records from the window in which the
diagnosis was found are discarded (R160). A detuned channel finishes its window, and after the preamble's the frame. -/
def degrade (c : Nat) (afterWindow : Bool) (s : State) : State :=
  s.onLf (fun l => { l with cur := l.cur.map (fun b =>
    let t := now s - b.started
    let k := ((List.range b.windows.length).filter (fun k => (windowSpan b k).2 ≤ t)).length
    let stop := if !afterWindow then t else if !b.frame.isEmpty && k = 0 then (windowSpan b 1).1 else (windowSpan b k).2
    { b with
      faults := b.faults ++ [(c, k, stop)]
      windows := b.windows.zipIdx.map (fun (wk : Window × Nat) =>
        let sp := windowSpan b wk.2
        if wk.1.drives.any (fun d => d.chan == c) && (if afterWindow then t < sp.1 else t < sp.2)
        then { wk.1 with degraded := true } else wk.1) }) })
/-- A record is spoilt: a diagnosis was found in its window or before, or its supply group was lost (R160, Table 7-8). -/
def spoiltRec (b : Burst) (c w : Nat) : Bool :=
  b.faults.any (fun f => f.1 == c && f.2.1 ≤ w) || b.lostGroups.contains (vlfGroup c)

/-- The channels a burst drives, as a mask of 6 bytes. -/
def burstMask (b : Burst) : Nat := (b.windows.flatMap (·.drives)).foldl (fun m d => setBit m (d.chan - 1)) 0

/-! ### Measurement and plausibility (R155 to R160) -/

/-- A channel's latest estimates, those that wait for a commit among them. -/
def latest (s : State) (c : Nat) : LfChan := (((s.lf.pendChan.filter (fun e => e.1 == c)).getLast?).map (·.2)).getD (lfChan s c)

/-- What one driven record gives (Table 7-5): the channel with the estimates that pass, its self impedance, whether that passes, and
whether every test of Table 7-6 does. A measurement that fails is discarded alone (R158): the impedance stands without a resonance. -/
structure DriveEst where
  chan : LfChan := {}
  z : Int × Int := (0, 0)
  zOk : Bool := false
  ok : Bool := false
/-- The estimates of a driven record at the burst's carrier and supplies. -/
def driveEstimate (s : State) (inc : Nat) (vlf : List Nat) (r : WinRec) : DriveEst :=
  let c := lfChan s r.chan
  let base := latest s r.chan
  let f := carrierF inc
  let i2 := (mag2 r.curRe r.curIm).toNat
  let dot := r.volRe * r.curRe + r.volIm * r.curIm
  let cross := r.volIm * r.curRe - r.volRe * r.curIm
  let v2 := (mag2 r.volRe r.volIm).toNat
  if i2 = 0 || 4 * v2 < i2 || v2 > 4000000 * i2 then { chan := base } else
  let re := roundDivI (1000 * dot) i2
  let im := roundDivI (1000 * cross) i2
  let i := isqrt i2
  let v := isqrt v2
  let drop : Int := (4 * vlf.getD (vlfGroup r.chan) 0 * r.conduction * 1000000000 / (6283185307 * 500) : Nat)
  let base := { base with rbr := (roundDivI (1000 * (drop - v)) (max 1 i)).toNat }
  let z := (ohms dot i2, ohms cross i2)
  let wl := omegaL c f
  if c.ind = 0 || wl = 0 then { chan := base, z := z, zOk := true, ok := true } else
  let ratio : Int := (wl : Int) - im
  let fr := isqrt ((f * f * ratio.toNat) / wl)
  let q := if re ≤ 0 then 0 else roundDiv (omegaL c fr * 100) re.toNat
  let res := roundDiv fr 10485760
  let resOk : Bool := ratio > 0 && (c.res = 0 || (r.temp - c.temp).natAbs ≥ 20 || 100 * ((res : Int) - c.res).natAbs ≤ 3 * c.res)
  let qOk : Bool := 300 ≤ q && q ≤ 20000
  let base := if resOk then { base with temp := r.temp, res := res, det := detuning res (carrierF (carrierInc s)) } else base
  { chan := if resOk && qOk then { base with q := sat 65535 q } else base, z := z, zOk := true, ok := resOk && qOk }

/-- One measurement's verdict: the channel it counts against. -/
structure Verdict where
  chan : Nat := 0
  ok : Bool := true

/-- An entry measured in a window, with the outcome of its tests of Table 7-6: range, and reciprocity where it applies. -/
structure Entry where
  z : Coup := {}
  rangeOk : Bool := true
  recip : Option Bool := none

/-- What the records of one window give before the reciprocity tests of the burst are weighed (R155, R158). -/
structure WinOut where
  diag : List Coup := []
  entries : List Entry := []
  chans : List (Nat × LfChan) := []
  verdicts : List Verdict := []

/-- Predicted voltage of idle channel `i` from the driven records of a window, in 2^-40 mV; `none` unless every entry is at most 5 s old. -/
def superpose (s : State) (i : Nat) (driven : List WinRec) : Option (Int × Int) :=
  driven.foldl (fun acc r => match acc, coup s i r.chan with
    | some (x, y), some z => if now s > z.at_ + 5000000 then none else
        some (x + z.re * r.curRe - z.im * r.curIm, y + z.re * r.curIm + z.im * r.curRe)
    | _, _ => none) (some (0, 0))

/-- The reciprocity test of an entry (Table 7-6), where it applies. -/
def reciprocal (s : State) (z : Coup) : Option Bool :=
  match coup s z.col z.row with
  | some o =>
    if now s > o.at_ + 5000000 || 400 * mag2 z.re z.im < 2 ^ 80 || 400 * mag2 o.re o.im < 2 ^ 80 then none
    else some (decide (10000 * mag2 (z.re - o.re) (z.im - o.im) ≤ 225 * max (mag2 z.re z.im) (mag2 o.re o.im)))
  | none => none

/-- The records of window `w` (R155, R158, R160): an idle channel is one that was usable when the burst began; a record spoilt by a
diagnosis, and those of a stopped channel or a lost supply group, are discarded untested. An entry carries the base tick at which
its window began (DESIGN CHOICE, log 112: the section does not say which tick of the window). -/
def validateWindow (s : State) (b : Burst) (w : Nat) (recs : List WinRec) : WinOut :=
  let at_ := b.started + (windowSpan b w).1
  let drives := (b.windows.getD w {}).drives.map (·.chan)
  let good := recs.filter (fun r => !spoiltRec b r.chan w)
  let driven := good.filter (fun r => r.driven && drives.contains r.chan)
  let idle := good.filter (fun r => !r.driven && b.chans.contains r.chan && !drives.contains r.chan)
  let ests := driven.map (fun r => (r, driveEstimate s b.carrier b.vlf r))
  let pass := ests.filter (fun e => e.2.zOk)
  let out : WinOut := {
    diag := pass.map (fun e => { row := e.1.chan, col := e.1.chan, re := e.2.z.1, im := e.2.z.2, at_ := at_, temp := e.1.temp })
    chans := pass.map (fun e => (e.1.chan, e.2.chan))
    verdicts := ests.map (fun e => { chan := e.1.chan, ok := e.2.ok }) }
  match drives, driven with
  | [_], [j] =>
    let i2 := (mag2 j.curRe j.curIm).toNat
    if i2 = 0 then out else
    { out with entries := idle.map (fun u =>
      let z : Coup := { row := u.chan, col := j.chan, re := ohms (u.volRe * j.curRe + u.volIm * j.curIm) i2,
                        im := ohms (u.volIm * j.curRe - u.volRe * j.curIm) i2, at_ := at_, temp := u.temp }
      { z := z, rangeOk := mag2 u.volRe u.volIm ≤ 1600000000, recip := reciprocal s z }) }
  | _, _ =>
    { out with verdicts := out.verdicts ++ idle.map (fun u =>
      let rangeOk : Bool := mag2 u.volRe u.volIm ≤ 1600000000
      match (if drives.all (fun c => driven.any (fun r => r.chan == c)) then superpose s u.chan driven else none) with
      | some (x, y) =>
        { chan := u.chan, ok := rangeOk && (mag2 x y < 400 * 2 ^ 80 ||
            16 * mag2 (u.volRe * 2 ^ 40 - x) (u.volIm * 2 ^ 40 - y) ≤ mag2 x y) }
      | none => { chan := u.chan, ok := rangeOk }) }

/-- The verdicts of a burst's coupling entries (Table 7-6): a failed reciprocity test counts against the column's driven channel when
more than half of the column's tests in the burst failed, else against the idle channel. -/
def entryVerdicts (es : List Entry) : List Verdict :=
  let cols := (es.map (·.z.col)).eraseDups
  let bad := cols.filter (fun j =>
    let t := es.filterMap (fun e => if e.z.col = j then e.recip else none)
    2 * (t.filter (· == false)).length > t.length)
  es.map (fun e => { chan := e.z.row, ok := e.rangeOk && (bad.contains e.z.col || e.recip ≠ some false) }) ++
    bad.map (fun j => { chan := j, ok := false })

/-- The consecutive-implausible count of R159, and the flag at 8. -/
def countImplausible (failed : Bool) (c : Nat) (s : State) : State :=
  let s := onChan c (fun x => { x with implaus := if failed then sat 255 (x.implaus + 1) else 0 }) s
  if failed && (lfChan s c).implaus ≥ 8 && !bitSet (lfChan s c).diag 7 then
    setLfDiag c 7 (emit evLfImplausible 1 [byte c, byte (lfChan s c).implaus] s)
  else s

/-- Validation of a burst's records (R158 to R160): a burst with a carrier override commits nothing to the matrix (R176); of
several estimates of a channel the last window's stands, of its on-resistance the mean (Table 7-5). -/
def validateBurst (b : Burst) (recs : List WinRec) (s : State) : State :=
  let outs := (List.range b.windows.length).map (fun w => validateWindow s b w (recs.filter (fun r => r.window == w)))
  let es := outs.flatMap (·.entries)
  let vs := outs.flatMap (·.verdicts) ++ entryVerdicts es
  let chans := outs.flatMap (·.chans)
  let meanR := fun (c : Nat) => let l := (chans.filter (fun e => e.1 == c)).map (fun e => e.2.rbr); roundDiv l.sum (max 1 l.length)
  let last := (List.range 48).filterMap (fun k => ((chans.filter (fun e => e.1 == k + 1)).getLast?).map (fun e =>
    (e.1, { e.2 with rbr := meanR e.1 })))
  let entries := if b.inc ≠ 0 || b.carrier ≠ carrierInc s then [] else
    outs.flatMap (·.diag) ++ (es.filter (fun e => e.rangeOk && e.recip ≠ some false)).map (·.z)
  let s := s.onLf (fun l => { l with
    pendCoup := entries.foldl (fun l e => putCoups [e] l) l.pendCoup, pendChan := l.pendChan ++ last, commitDue := true })
  let s := last.foldl (fun s e => erodeAdd 1 e.1 e.2.rbr s) s
  ((List.range 48).map (· + 1)).foldl (fun s c =>
    let mine := vs.filter (fun v => v.chan == c)
    if mine.isEmpty then s else countImplausible (mine.any (fun v => !v.ok)) c s) s

/-- A row's coupling age in ms and its temperature change (R178), which is reckoned to the Cliff die temperature last read at a burst
(DESIGN CHOICE, log 113: `COUPLING_READ` takes no reading of its own). -/
def rowAge (s : State) (row : Nat) : Nat × Int :=
  let l := s.lf.model.filter (fun c => c.row == row && c.col ≠ row)
  if l.isEmpty then (0xFFFFFFFF, 0) else
  (min 0xFFFFFFFE ((l.map (fun c => (now s - c.at_) / 1000)).foldl max 0),
   (l.map (fun c => s.lf.temp - c.temp)).foldl (fun a d => if d.natAbs > a.natAbs then d else a) 0)

/-- `LF_CHANNEL_STATUS` bytes 6 to 15 of a channel. -/
def chanFields (c : LfChan) : Bytes := le16 (sat 65535 c.res) ++ le16 (sat 65535 c.q) ++ le16 (sat 65535 c.ind) ++
  le16 (sat 65535 c.rdc) ++ le16 c.cable

/-! ### Soundings under way (R154, R165, R473) -/

/-- The path in progress still has an LF step ahead of it or under way. -/
def pathNeedsLf (s : State) : Bool :=
  match s.path with
  | some p => !p.ended && (p.step = .toFlood || p.step = .refresh || p.step = .burst) && p.req.kind ≠ .transponder
  | none => false
/-- The path in progress still has an LF or radio step ahead of it or under way, or a queued one comes next (R230): a locate poll waits. -/
def pathAhead (s : State) : Bool :=
  match s.path with
  | some p => !p.ended && !(p.step = .commitRange || p.step = .decision || p.step = .signal)
  | none => !s.paths.isEmpty
/-- A part of the running `SOUNDING_RUN` is over; with the last one its completion record follows. -/
def soundPart (bit : Nat) (failed : Bool) (s : State) : State :=
  match s.soundRun with
  | none => s
  | some r =>
    if !bitSet r.left bit then s else
    let r := { r with left := clrBit r.left bit, failed := if failed then setBit r.failed bit else r.failed }
    if r.left ≠ 0 then { s with soundRun := some r } else
    let valid := ((s.pwr.vlf.zip s.pwr.vlfValid).filter (·.2)).map (·.1)
    let low := match valid with | [] => 0 | v :: l => l.foldl min v
    cmdDone r.ref stOk ([byte r.mask, byte r.failed] ++ le16 r.feederCm ++ le16 (s.pwr.vbat / 10) ++ le16 (low / 10) ++
      [byte (if s.pair.role = .single then 0 else s.pair.version)]) { s with soundRun := none }
/-- A sounding begins, or waits while an automatic one runs, which is not cut (R154). -/
def beginSounding (mask : Nat) (ref : Option CmdRef) (s : State) : State :=
  s.onLf (fun l => if l.soundMask ≠ 0 then { l with soundWait := some (mask, ref) }
    else { l with soundMask := mask, soundRef := ref, soundAuto := false })
/-- The sounding under way is over, with its status: its parameters take effect, who asked for it hears of it, and one that waits
begins. -/
def soundOver (status : Nat) (s : State) : State :=
  let ref := s.lf.soundRef
  let auto := s.lf.soundAuto
  let wait := s.lf.soundWait
  let s := boundaryM .sounding (s.onLf (fun l => { l with
    soundMask := 0, soundHeld := false, soundRef := none, soundAuto := false, soundWait := none }))
  let s := lfBoundary s
  let s := match ref with
    | some r => cmdDone r status [] s
    | none => if auto then s else soundPart 1 (status ≠ stOk) s
  match wait with
  | some w => beginSounding w.1 w.2 s
  | none => s
/-- A channel's sounding has driven: its duty and energy are counted (R165, R167). -/
def soundDrove (c : Nat) (s : State) : State := addLfDuty 1 (addEth (soundUj s c) s)

end Sys2Proof.Machine
end

