-- ==== Sys2Proof/Machine/Synth.lean ====
section
/-! DEFINITION. Field synthesis (08_field_synthesis_and_zones, R179 to R189): building a group's weights from a snapshot of the
committed model, with exact rational arithmetic (log 21), remapping, and the windows of a wake burst. -/

namespace Sys2Proof.Machine
open Sys2Proof

/-- A complex number of exact rationals. -/
structure Cx where
  re : Rat := 0
  im : Rat := 0

def cxAdd (a b : Cx) : Cx := ⟨a.re + b.re, a.im + b.im⟩
def cxSub (a b : Cx) : Cx := ⟨a.re - b.re, a.im - b.im⟩
def cxMul (a b : Cx) : Cx := ⟨a.re * b.re - a.im * b.im, a.re * b.im + a.im * b.re⟩
def cxConj (a : Cx) : Cx := ⟨a.re, -a.im⟩
def cxScale (k : Rat) (a : Cx) : Cx := ⟨k * a.re, k * a.im⟩
def cxMag2 (a : Cx) : Rat := a.re * a.re + a.im * a.im
/-- Division, for a divisor that is not 0. -/
def cxDiv (a b : Cx) : Cx := cxScale (1 / cxMag2 b) (cxMul a (cxConj b))

/-- Gauss-Jordan elimination of column `k` on augmented rows; `none` when no pivot is left. -/
def eliminate (k : Nat) (rows : List (List Cx)) : Option (List (List Cx)) :=
  match (rows.drop k).find? (fun r => cxMag2 (r.getD k {}) ≠ 0), (rows.drop k).findIdx? (fun r => cxMag2 (r.getD k {}) ≠ 0) with
  | some p, some i =>
    let rest := rows.take k ++ (rows.drop k).eraseIdx i
    let piv := p.map (fun x => cxDiv x (p.getD k {}))
    let clean := rest.map (fun r => (r.zip piv).map (fun q => cxSub q.1 (cxMul (r.getD k {}) q.2)))
    some (clean.take k ++ [piv] ++ clean.drop k)
  | _, _ => none
/-- Solves a square system given as augmented rows; `none` when it is singular. -/
def solveRows (n : Nat) (rows : List (List Cx)) : Option (List Cx) :=
  ((List.range n).foldl (fun a k => a.bind (eliminate k)) (some rows)).map (fun r => r.map (fun x => x.getD n {}))

/-- The cosine of `k` phase codes (1.40625 degrees each), times 10^9, over the first quarter. -/
def cosTable : List Nat := [
  1000000000, 999698819, 998795456, 997290457, 995184727, 992479535, 989176510, 985277642, 980785280, 975702130,
  970031253, 963776066, 956940336, 949528181, 941544065, 932992799, 923879533, 914209756, 903989293, 893224301,
  881921264, 870086991, 857728610, 844853565, 831469612, 817584813, 803207531, 788346428, 773010453, 757208847,
  740951125, 724247083, 707106781, 689540545, 671558955, 653172843, 634393284, 615231591, 595699304, 575808191,
  555570233, 534997620, 514102744, 492898192, 471396737, 449611330, 427555093, 405241314, 382683432, 359895037,
  336889853, 313681740, 290284677, 266712757, 242980180, 219101240, 195090322, 170961889, 146730474, 122410675,
  98017140, 73564564, 49067674, 24541229, 0]
/-- The cosine of a phase code, times 10^9. -/
def cosCode (k : Nat) : Int :=
  let k := k % 256
  let k := if k > 128 then 256 - k else k
  if k ≤ 64 then (cosTable.getD k 0 : Int) else -(cosTable.getD (128 - k) 0 : Int)
/-- The sine of a phase code, times 10^9. -/
def sinCode (k : Nat) : Int := cosCode (k + 192)
/-- The phase code nearest to a complex number's argument; 0 for 0. -/
def phaseCode (z : Cx) : Nat :=
  if cxMag2 z = 0 then 0 else
  ((List.range 256).foldl (fun (b : Nat × Rat) k =>
    let v := z.re * (cosCode k : Rat) + z.im * (sinCode k : Rat)
    if v > b.2 then (k, v) else b) (0, z.re * 1000000000)).1
/-- The integer nearest to the square root of a rational that is not negative. -/
def roundSqrt (x : Rat) : Nat := (isqrt (4 * x).floor.toNat + 1) / 2

/-! ### Group definitions (R179) -/

/-- The stored payload of `SYNTH_GROUP_WRITE`. -/
def groupDef (s : State) (g : Nat) : Option Bytes := recBody s 0x0021 g
/-- The members of a definition. -/
def gMembers (b : Bytes) : List Nat := (List.range (u8 b 1)).map (fun k => u8 b (4 + k))
/-- The targets: channel, kind, weight, value. -/
def gTargets (b : Bytes) : List (Nat × Nat × Nat × Nat) :=
  (List.range (u8 b 20)).map (fun k => (u8 b (24 + 8 * k), u8 b (25 + 8 * k), u8 b (26 + 8 * k), u16 b (28 + 8 * k)))

/-- The remapped membership (R188): each member with what drives in its place, `none` when it is dropped. -/
def remap (s : State) (b : Bytes) : List (Nat × Option Nat) :=
  let ms := gMembers b
  let ts := (gTargets b).map (·.1)
  ms.zipIdx.foldl (fun acc (mk : Nat × Nat) =>
    let (m, k) := mk
    if usable s m then acc ++ [(m, some m)] else
    let sub := u8 b (12 + k)
    let others := acc.filterMap (·.2) ++ (ms.drop (k + 1))
    if sub ≠ 0 && usable s sub && !ms.contains sub && !ts.contains sub &&
        ((others.filter (fun c => vlfGroup c == vlfGroup sub)).length < 4)
    then acc ++ [(m, some sub)] else acc ++ [(m, none)]) []

/-- A remap is reported when its membership is first used, and again with `CLEAR` when the member itself drives again (R189). -/
def reportRemaps (g : Nat) (rm : List (Nat × Option Nat)) (s : State) : State :=
  let used : List (Nat × Nat × Nat) := (rm.filter (fun r => r.2 ≠ some r.1)).map (fun r => (g, r.1, r.2.getD 0))
  let old := s.zon.remaps.filter (fun r => r.1 == g)
  let s := s.onZon (fun z => { z with remaps := z.remaps.filter (fun r => r.1 ≠ g) ++ used })
  let s := (old.filter (fun o => rm.any (fun r => r.1 == o.2.1 && r.2 == some r.1))).foldl (fun s o =>
    emitC evChannelRemapped 1 [byte g, byte o.2.1] [byte o.2.1, byte o.2.2] s) s
  (used.filter (fun o => !old.contains o)).foldl (fun s o =>
    emitF evChannelRemapped 1 [byte g, byte o.2.1] [byte o.2.1, byte o.2.2] s) s

/-- `EV_SYNTH_REFUSED`, at most once a second for each group and reason (R182). -/
def synthRefused (g reason : Nat) (s : State) : State :=
  let (ok, s) := rateLimit (0x050200 + 16 * g + reason) 1000000 s
  if ok then emit evSynthRefused 1 [byte g, byte reason] s else s

/-- Steps 2 to 4 of R181 on a remapped membership: the reason of a refusal. -/
def groupRefusal (s : State) (b : Bytes) (mem : List Nat) (endAt : Nat) : Option Nat :=
  let ts := gTargets b
  let nulls := (ts.filter (fun t => t.2.1 == 0)).length
  if ts.any (fun t => !usable s t.1) || mem.length < nulls + 1 then some 3 else
  let pairs := ts.flatMap (fun t => mem.map (fun m => (t.1, m))) ++ mem.map (fun m => (m, m))
  if pairs.any (fun p => match coup s p.1 p.2 with
      | some e => endAt > e.at_ + 100000 * param s 0x0301
      | none => true) then some 1
  else if pairs.any (fun p => match coup s p.1 p.2 with
      | some e => (s.lf.temp - e.temp).natAbs > 10 * param s 0x0302
      | none => false) then some 2
  else none

/-- An entry as a complex number, in mOhm. -/
def zOf (s : State) (i j : Nat) : Cx :=
  match coup s i j with
  | some e => ⟨(1000 * e.re : Int) / (2 ^ 40 : Nat), (1000 * e.im : Int) / (2 ^ 40 : Nat)⟩
  | none => {}

/-- A member's limit as an amplitude code at a burst's carrier (R147, R184). -/
def ampLimit (s : State) (inc m : Nat) : Nat :=
  let z2 := selfZ2 s inc m
  let v := s.pwr.vlf.getD (vlfGroup m) 0
  let reach := if z2 = 0 then 255 else isqrt ((306 * v) * (306 * v) * 2 ^ 80 / (1500 * 1500 * z2))
  min 255 (min (lfCap s m) reach)

/-- The exact weights of R183, in amperes: the constrained minimum from its conditions, G x + mu a_f^H = 0 and a_f x = V_f with G the
null power's matrix and the ridge; `none` when the minimum is not unique or the focus cannot be met. With no null the ridge
cancels: the smallest currents that meet the focus. -/
def weights (s : State) (b : Bytes) (mem : List Nat) : Option (List Cx) :=
  let ts := gTargets b
  let n := mem.length
  let nulls := (ts.filter (fun t => t.2.1 == 0)).map (fun t => (t.2.2.1, mem.map (zOf s t.1)))
  match ts.find? (fun t => t.2.1 == 1) with
  | none => none
  | some f =>
    let af := mem.map (zOf s f.1)
    let gram := fun (i j : Nat) => nulls.foldl (fun a r =>
      cxAdd a (cxScale ((r.1 : Rat) / 255) (cxMul (cxConj (r.2.getD i {})) (r.2.getD j {})))) ({} : Cx)
    let tr := (List.range n).foldl (fun (t : Rat) i => t + (gram i i).re) 0
    let lam : Rat := if nulls.isEmpty then 1 else (param s 0x0303 : Rat) / 10000 * tr / max 1 n
    let rows := (List.range n).map (fun i =>
      (List.range n).map (fun j => if i = j then cxAdd (gram i j) ⟨lam, 0⟩ else gram i j) ++ [cxConj (af.getD i {}), {}])
    (solveRows (n + 1) (rows ++ [af ++ [{}, ⟨(f.2.2.2 : Rat), 0⟩]])).map (fun x => x.take n)

/-- The predicted null power of a set of drives, on a fixed scale. -/
def nullPower (s : State) (b : Bytes) (ds : List Drive) : Int :=
  ((gTargets b).filter (fun t => t.2.1 == 0)).foldl (fun (p : Int) t =>
    let v := ds.foldl (fun (a : Int × Int) d =>
      match coup s t.1 d.chan with
      | some z =>
        let c := (d.amp : Int) * cosCode d.phase
        let q := (d.amp : Int) * sinCode d.phase
        (a.1 + z.re * c - z.im * q, a.2 + z.re * q + z.im * c)
      | none => a) (0, 0)
    p + (t.2.2.1 : Int) * mag2 v.1 v.2) 0

/-- The refinement of R185: the rounded pair, or the neighbour with the lowest predicted null power. -/
def refine (s : State) (b : Bytes) (lim : List Nat) (ds : List Drive) : List Drive :=
  ((List.range ds.length).drop 1).foldl (fun ds k =>
    let d := ds.getD k {}
    let near : List Drive := [(0, 1), (0, -1), (1, 0), (-1, 0), (1, 1), (1, -1), (-1, 1), (-1, -1)].map (fun (p : Int × Int) =>
      { d with amp := min (lim.getD k 255) (((d.amp : Int) + p.1).toNat), phase := (((d.phase : Int) + p.2) % 256).toNat })
    (near.foldl (fun (best : List Drive × Int) n =>
      let t := ds.set k n
      let p := nullPower s b t
      if p < best.2 then (t, p) else best) (ds, nullPower s b ds)).1) ds

/-- The amplitude and phase codes of a group with the scale applied, in 2^-32 (R183 to R185); with no solution the codes and the scale
are free within the limits (log 8). -/
def groupCodes (s : State) (inc : Nat) (b : Bytes) (mem : List Nat) : (List Drive × Nat) × State :=
  let lim := mem.map (ampLimit s inc)
  match weights s b mem with
  | some xs =>
    let x1 := xs.getD 0 {}
    let ref : Cx := if cxMag2 x1 = 0 then ⟨1, 0⟩ else x1
    let a2 := xs.map (fun x => 28900 * cxMag2 x)
    let rho2 := (a2.zip lim).foldl (fun (r : Rat) p =>
      let l2 : Rat := ((p.2 * p.2 : Nat) : Rat)
      if p.1 > l2 then min r (l2 / p.1) else r) 1
    let ds : List Drive := mem.zipIdx.map (fun (mk : Nat × Nat) =>
      { chan := mk.1, amp := min (lim.getD mk.2 0) (roundSqrt (a2.getD mk.2 0 * rho2)),
        phase := if mk.2 = 0 then 0 else phaseCode (cxMul (xs.getD mk.2 {}) (cxConj ref)) })
    ((refine s b lim ds, roundSqrt (rho2 * (2 ^ 64 : Nat))), s)
  | none =>
    let (k, s) := drawFree s
    let (ds, s) := mem.zipIdx.foldl (fun (acc : List Drive × State) mk =>
      let (a, s) := drawFree acc.2
      let (p, s) := drawFree s
      (acc.1 ++ [{ chan := mk.1, amp := a % (lim.getD mk.2 0 + 1), phase := if mk.2 = 0 then 0 else p % 256 }], s)) (([], s) : List Drive × State)
    ((ds, k % 4294967297), s)

/-- What the cached weights of a group rest on (R186). -/
def cacheKey (s : State) (inc : Nat) (b : Bytes) (mem : List Nat) : Bytes :=
  let ts := (gTargets b).map (·.1)
  let es := (ts.flatMap (fun t => mem.map (fun m => (t, m))) ++ mem.map (fun m => (m, m))).filterMap (fun p => coup s p.1 p.2)
  b ++ mem.map byte ++ (mem.map (ampLimit s inc)).map byte ++
    es.flatMap (fun e => leBytes 8 (twos 64 e.re) ++ leBytes 8 (twos 64 e.im) ++ le48 e.at_) ++ le16 (param s 0x0303)

/-- The null targets of a definition with their tolerances. -/
def nullTargets (b : Bytes) : List (Nat × Nat) := ((gTargets b).filter (fun t => t.2.1 == 0)).map (fun t => (t.1, t.2.2.2))
/-- Builds a group's window for a burst's carrier and planned end (R181): its drives and their scale, or the reason of the refusal,
which has been reported (R182). -/
def buildGroup (g endAt inc : Nat) (s : State) : Sum Nat Window × State :=
  match groupDef s g with
  | none => (.inl 0, s)
  | some b =>
    let s := boundaryM .synth s
    let rm := remap s b
    let mem := rm.filterMap (·.2)
    match groupRefusal s b mem endAt with
    | some r => (.inl r, synthRefused g r s)
    | none =>
      let s := reportRemaps g rm s
      let key := cacheKey s inc b mem
      let window := fun (ds : List Drive) (k : Nat) => ({ drives := ds, group := some g, scale := k, nulls := nullTargets b } : Window)
      match s.zon.cache.find? (fun c => c.1 == g && c.2.1 == key) with
      | some c => (.inr (window c.2.2.1 c.2.2.2), s)
      | none =>
        let (ds, s) := groupCodes s inc b mem
        (.inr (window ds.1 ds.2), s.onZon (fun z => { z with cache := z.cache.filter (fun c => c.1 ≠ g) ++ [(g, key, ds.1, ds.2)] }))

/-! ### Tone plans and wake bursts (R205 to R207) -/

/-- The tones of a plan. -/
def planTones (s : State) (p : Nat) : List Nat :=
  if p ≥ 32 then [] else
  (le32 (param s (0x0410 + 2 * p)) ++ le32 (param s (0x0411 + 2 * p))).map (·.toNat) |>.takeWhile (· ≠ 0)
/-- The tones sent at a version (Table 9-1). -/
def sentTones (s : State) (p version : Nat) : List Nat :=
  if version ≤ 1 then [] else if version = 2 then (planTones s p).take 4 else planTones s p
/-- Where a tone byte's group stands. -/
def toneGroup (t : Nat) : Option Nat := if t ≥ 0x80 then some (t - 0x80) else none

/-- One tone's window: its channel alone, its group's weights, or silent (R206). -/
def toneWindow (endAt inc : Nat) (t : Nat) (s : State) : Window × State :=
  match toneGroup t with
  | some g =>
    match buildGroup g endAt inc s with
    | (.inr w, s) => (w, s)
    | (.inl _, s) => ({ group := some g, silent := true }, s)
  | none =>
    if usable s t then ({ drives := [{ chan := t, amp := min (param s 0x0202) (lfCap s t), phase := 0 }] }, s)
    else ({ silent := true }, s)

/-- Every tone's window. -/
def toneWindows (endAt inc : Nat) (ts : List Nat) (s : State) : List Window × State :=
  ts.foldl (fun (acc : List Window × State) t => let (w, s) := toneWindow endAt inc t acc.2; (acc.1 ++ [w], s)) ([], s)

/-- A wake or locate burst, `own` its override of the carrier or 0: preamble window first, then the tones; the energy counts the frame
as one driven window. -/
def wakeBurst (s : State) (kind : BurstKind) (ref : Option CmdRef) (own version : Nat) (pre : Window) (tones : List Window)
    (frame : Bytes) (plan : Nat) : Burst :=
  let inc := incOf s own
  { kind := kind, ref := ref, windows := pre :: tones, frame := frame, preGroup := pre.group, plan := plan,
    durUs := frameUs inc version + 500 * tones.length,
    energyUj := driveUj s inc (frameUs inc version) pre.drives + (tones.map (fun w => driveUj s inc 500 w.drives)).sum,
    inc := own }

/-- A refresh burst of channels at `LF_REFRESH_AMPLITUDE` (R171, R172), within each channel's cap. -/
def refreshBurst (s : State) (chans : List Nat) : Burst :=
  let inc := carrierInc s
  let ws : List Window := chans.map (fun c => { drives := [{ chan := c, amp := min (param s 0x0204) (lfCap s c), phase := 0 }] })
  { kind := .refresh, windows := ws, durUs := chans.length * slotUs inc,
    energyUj := (ws.map (fun w => driveUj s inc (slotUs inc) w.drives)).sum }

/-- The Cliff die temperature as a burst is built (R181). -/
def cliffReads (temp : Int) (s : State) : State := s.onLf (fun l => { l with temp := temp })
/-- The drives that run together in a burst, for the checks of R170. -/
def burstGroups (b : Burst) : List (List Drive) := b.windows.map (·.drives)

/-! ### Marks of a sent burst (R162, R187, R191) -/

/-- When a burst planned now would begin: after the burst being sent, and after the sounding under way (R153, R165). -/
def lfFree (s : State) : Nat :=
  (match s.lf.cur with | some b => max (now s) (b.started + b.durUs) | none => now s) + 1500 * (bitsOf 48 s.lf.soundMask).length

/-- The marks of a window from its records: a stopped channel degrades it; confinement by R187, which needs the record of every member
and of every null target; a single channel's current. -/
def markWindow (measured : Bool) (recs : List WinRec) (w : Window) : Window :=
  let rec1 := fun c => recs.find? (fun r => r.chan == c)
  let off := w.offTarget || w.drives.any (fun d => match rec1 d.chan with | some r => r.offTarget | none => false)
  match w.group with
  | some _ =>
    let nullsOk := w.nulls.all (fun t => match rec1 t.1 with
      | some r => mag2 r.volRe r.volIm ≤ ((t.2 * t.2 : Nat) : Int)
      | none => false)
    { w with offTarget := off, confined := measured && !w.silent && !w.degraded && !off && nullsOk &&
      w.drives.all (fun d => (rec1 d.chan).isSome) }
  | none =>
    let cur := match w.drives with
      | [d] => (match rec1 d.chan with
        | some r => if measured then isqrt (mag2 r.curRe r.curIm).toNat else d.amp * 1500 / 255
        | none => d.amp * 1500 / 255)
      | _ => 0
    { w with offTarget := off, curMa := cur }

/-- The marks of every window of a burst, without the records that a diagnosis spoilt. -/
def markWindows (b : Burst) (measured : Bool) (recs : List WinRec) : List Window :=
  b.windows.zipIdx.map (fun (wk : Window × Nat) => markWindow measured (recs.filter (fun r => r.window == wk.2 && !spoiltRec b r.chan wk.2)) wk.1)

end Sys2Proof.Machine
end

