-- ==== Sys2Proof/Machine/RadOps.lean ====
section
/-! DEFINITION. The sub-GHz radio's operations (12_sub_ghz_radio): channels and caps of the regulatory record, the power table,
calibration states, the checks of R301, the coexistence wires, duty and the tuner. -/

namespace Sys2Proof.Machine
open Sys2Proof

/-! ### The record and the power table in effect (R291, R306) -/

/-- `EV_RADIO_CAL`: an entry was invalidated (R296). -/
def calGone (n : Nat) (s : State) : State := emit evRadioCal 0 (le16 n ++ [1]) s
/-- Every calibration entry is invalidated together (R296). -/
def invalidateAll (s : State) : State :=
  calGone 0xFFFF (s.onRad (fun r => { r with cal := [], run := if r.run.any (·.mandatory) then r.run else none, locked := none }))
/-- A channel of a record is allowed. -/
def maskAllows (reg : Bytes) (n : Nat) : Bool := bitSet (u8 reg (76 + n / 8)) (n % 8)

/-- The committed regulatory record and power table take effect (R291, R306): a changed band plan invalidates every entry and
tuner setting, a power table write every entry, a cleared mask bit its entry, which is no longer calibrated either (R294). -/
def takeRadioRecords (s : State) : State :=
  let reg := (recBody s 0x0050 0).map (fun b => b.take 416)
  let table := recBody s 0x0051 0
  let newT := s.rad.newPower
  let s := s.onRad (fun r => { r with newTable := false, newPower := false })
  let bands := s.rad.reg.map (fun r => slice r 12 64) ≠ reg.map (fun r => slice r 12 64) && s.rad.reg.isSome
  let s := s.onRad (fun r => { r with reg := reg, table := table, tuners := if bands then [] else r.tuners })
  let s := if bands || newT then invalidateAll s else s
  match reg with
  | none => s
  | some r =>
    let s := (s.rad.cal.filter (fun c => !maskAllows r c.chan)).foldl (fun s c =>
      calGone c.chan (s.onRad (fun x => { x with cal := x.cal.filter (fun e => e.chan ≠ c.chan) }))) s
    let asked := s.rad.calReq
    let s := s.onRad (fun x => { x with
      calReq := asked.filter (maskAllows r)
      run := match x.run with | some c => if maskAllows r c.chan then some c else none | none => none })
    if !asked.isEmpty && s.rad.calReq.isEmpty then
      cmdDoneO s.rad.calRef stOk [] (s.onRad (fun x => { x with calRef := none })) else s

/-! ### Channels (R287, R292) -/

/-- The channel frequencies of a record in order, in kHz. -/
def chanFreqs (reg : Bytes) : List Nat :=
  (List.range (min 8 (u8 reg 1))).flatMap (fun b =>
    (List.range (u16 reg (18 + 8 * b))).map (fun k => u32 reg (12 + 8 * b) + k * u16 reg (16 + 8 * b)))
/-- The allowed channel with a centre frequency. -/
def chanOf (s : State) (kHz : Nat) : Option Nat :=
  match s.rad.reg with
  | none => none
  | some r => match (chanFreqs r).findIdx? (· == kHz) with
    | some n => if maskAllows r n then some n else none
    | none => none
/-- The band of a channel. -/
def bandOf (s : State) (n : Nat) : Nat :=
  match s.rad.reg with
  | none => 0
  | some r => ((List.range 8).foldl (fun (acc : Nat × Nat) b =>
      if acc.2 ≤ n then (b, acc.2 + u16 r (18 + 8 * b)) else acc) (0, 0)).1
/-- A channel's conducted cap, in 0.5 dBm. -/
def powerCap (s : State) (n : Nat) : Int := match s.rad.reg with | some r => signed 8 (u8 r (108 + n)) | none => -128
/-- A channel is allowed by the record in effect (R290, R294). -/
def allowed (s : State) (n : Nat) : Bool := s.rad.reg.any (fun r => maskAllows r n)
/-- The PA stage of a power table entry: the default table's are trimmed at manufacture (R306, log 8). -/
def paStageOf (s : State) (i : Nat) : Nat := match s.rad.table with | some t => u8 t (4 * i + 1) % 4 | none => Config.paStage i % 4
/-- The drive code of a power table entry. -/
def driveOf (s : State) (i : Nat) : Nat := match s.rad.table with | some t => u8 t (4 * i + 2) | none => Config.paDrive i % 256
/-- A power table entry's target, in 0.5 dBm (R306). -/
def entryTarget (s : State) (i : Nat) : Int :=
  match s.rad.table with
  | some t => signed 8 (u8 t (4 * i))
  | none => if i = 0 then -40 else 2 * ((i : Int) - 15)
/-- The highest entry at or below the request, the cap and the mismatch limit (R301, R311). -/
def pickEntry (s : State) (n asked : Nat) : Option Nat :=
  let lim := min (entryTarget s (min 31 asked)) (min (powerCap s n) (if s.rad.mismatch then 12 else 127))
  ((List.range 32).filter (fun i => entryTarget s i ≤ lim)).getLast?

/-! ### Duty (R315) -/

/-- Used sub-GHz duty in ms. -/
def radDutyUsed (s : State) : Nat := s.rad.duty.sum
/-- The duty check. -/
def radDutyOk (s : State) (path : Bool) (ms : Nat) : Bool :=
  let b := match s.rad.reg with | some r => u32 r 4 | none => 0
  if path then radDutyUsed s + ms ≤ b else 10 * (radDutyUsed s + ms) ≤ 9 * b
/-- A transmission of the last `us` microseconds is counted: each started millisecond once, by whatever transmissions touch it (R315). -/
def addAir (us : Nat) (s : State) : State :=
  let n := touchedMs (max (1000 * s.rad.dutyLast) (s.clk.mono - us)) s.clk.mono
  s.onRad (fun r => { r with duty := modAt r.duty 0 (· + n), dutyLast := if n = 0 then r.dutyLast else (s.clk.mono - 1) / 1000 + 1 })
/-- `EV_RADIO_DUTY_LIMIT`, at most once a minute. -/
def dutyEvent (s : State) : State :=
  let (ok, s) := rateLimit 0x090200 60000000 s
  if ok then emit evRadioDutyLimit 1 (le32 (radDutyUsed s)) s else s

/-- The three checks of R301: the channel and the entry, or `none` for `ST_REGULATORY`. -/
def radChecks (freq asked airUs prec : Nat) (s : State) : Option (Nat × Nat) × State :=
  match chanOf s freq with
  | none => (none, s)
  | some n => match pickEntry s n asked with
    | none => (none, s)
    | some e => if radDutyOk s (prec = 1) (startedMs airUs) then (some (n, e), s) else (none, dutyEvent s)

/-! ### Calibration (R293 to R298) -/

/-- The states of R295. -/
inductive CalState where
  | invalid | expired | stale | fresh
deriving DecidableEq, Repr

/-- A calibration entry's state. -/
def calState (s : State) (n : Nat) : CalState :=
  match s.rad.cal.find? (fun c => c.chan == n) with
  | none => .invalid
  | some c =>
    let dt := (s.rad.temp - c.temp).natAbs
    if dt ≥ 150 then .expired
    else if now s ≥ c.at_ + 1000000 * param s 0x0702 || dt ≥ 10 * param s 0x0703 then .stale
    else .fresh
/-- An entry is used as stored. -/
def calUsable (s : State) (n : Nat) : Bool := calState s n = .fresh || calState s n = .stale
/-- The nonzero `TW_FREQ_n`, in order. -/
def twFreqs (s : State) : List Nat := ((List.range 4).map (fun k => param s (0x0409 + k))).filter (· ≠ 0)
/-- The working set (R298). -/
def workingSet (s : State) : List Nat := (twFreqs s).filterMap (chanOf s)
/-- The Strand die temperature as read before a use of the radio (R295). -/
def strandReads (temp : Int) (s : State) : State := s.onRad (fun r => { r with temp := temp })
/-- The next entry of the background scheduler (R298); only an allowed channel is calibrated (R294). -/
def nextCal (s : State) : Option Nat :=
  let old := fun (l : List Nat) => l.foldl (fun (b : Option (Nat × Nat)) n =>
    match s.rad.cal.find? (fun c => c.chan == n), b with
    | some c, some (m, t) => if c.at_ < t then some (n, c.at_) else some (m, t)
    | some c, none => some (n, c.at_)
    | none, b => b) none
  match (workingSet s).find? (fun n => !calUsable s n) with
  | some n => some n
  | none => match s.rad.calReq.filter (allowed s) with
    | n :: _ => some n
    | [] => match old ((workingSet s).filter (fun n => calState s n = .stale)) with
      | some e => some e.1
      | none => (old ((s.rad.cal.map (·.chan)).filter (fun n => allowed s n && calState s n = .stale))).map (·.1)
/-- The fifth step stores the shadow entry in one operation (R293). -/
def storeCal (r : CalRun) (s : State) : State :=
  let asked := s.rad.calReq.contains r.chan
  let s := s.onRad (fun x => { x with
    run := none, calReq := x.calReq.filter (· ≠ r.chan),
    cal := x.cal.filter (fun c => c.chan ≠ r.chan) ++ [{ r.shadow with chan := r.chan, at_ := now s, temp := x.temp }] })
  let tag := if asked then s.rad.calRef.map (·.tag) else none
  let s := if asked || r.mandatory then emitT tag evRadioCal 0 (le16 r.chan ++ [0]) s else s
  if asked && s.rad.calReq.isEmpty then
    cmdDoneO s.rad.calRef stOk [] (s.onRad (fun x => { x with calRef := none }))
  else s
/-- One entry is invalidated (R296). -/
def invalidateCal (n : Nat) (s : State) : State :=
  calGone n (s.onRad (fun r => { r with cal := r.cal.filter (fun c => c.chan ≠ n), locked := none }))

/-! ### Transmission (R301, R302, R313) -/

/-- Raises `COEX_REQ` and sets `COEX_PRI` (R313). -/
def coexRaise (prec : Nat) (s : State) : State :=
  if param s 0x0704 = 1 then s.onRad (fun r => { r with coex := (true, prec ≤ 2) }) else s
/-- Negates them. -/
def coexDrop (s : State) : State :=
  s.onRad (fun r => { r with coex := (false, false), coexOff := if r.coex.1 then some (now s) else r.coexOff })
/-- Raises them for an activity that begins in 40 us (R313), which then pass, unless they are high already or an activity has ended just
now; a start that was known in advance was announced in time. -/
def coexLead (prec : Nat) (s : State) : State :=
  if param s 0x0704 = 1 && !s.rad.coex.1 && s.rad.coexOff ≠ some (now s) then passUs 40 (coexRaise prec s) else coexRaise prec s

/-- A mandatory calibration of a channel begins (R295, Table 12-5). -/
def mandatoryCal (n : Nat) (s : State) : State :=
  s.onRad (fun r => { r with run := some { chan := n, mandatory := true, stepFrom := some (now s) } })
/-- The synthesiser comes to a channel: at a hop the DC-offset DACs are loaded from the entry's code for the gain step in use. Offset
tracking restarts at each hop and at each turnaround, gain and frequency offset free again (R305). -/
def hopTo (n : Nat) (s : State) : State :=
  let code := (s.rad.cal.find? (fun c => c.chan == n)).bind (fun c => c.dc[s.rad.rx.gainStep]?)
  s.onRad (fun r => { r with
    locked := some n, rx := { r.rx with dac := if r.locked = some n then r.rx.dac else code, frozen := false, loopHz := 2000 } })
/-- The sync word of a frame ends: the AGC gain and the frequency offset found on the preamble are frozen, and tracking narrows to
50 Hz (R305). What the receiver found is free (log 8). -/
def rxSync (s : State) : State :=
  let (g, s) := drawFree s
  let (o, s) := drawFree s
  s.onRad (fun r => { r with rx := { r.rx with gainStep := g % 8, freqOff := signed 32 (o % 2 ^ 32), frozen := true, loopHz := 50 } })

/-- The setting of a band. -/
def tunerOf (s : State) (b : Nat) : Tuner := (s.rad.tuners.find? (fun t => t.band == b)).getD { band := b }
/-- The tuner's codes on a band (R307, Table 12-8): its setting, and mid-scale when it has none or the tuner is bypassed. -/
def tunerCodes (s : State) (b : Nat) : List Nat :=
  let l := (tunerOf s b).codes
  if param s 0x0707 = 0 || l.isEmpty then (List.range 3).map Config.tunerMid else l
/-- The transmission begins, at its entry's stage and drive and the band's tuner setting, or waits for the grant (R313). -/
def radiate (s : State) : State :=
  match s.rad.tx with
  | none => s
  | some t =>
    let s := hopTo t.chan (coexLead t.prec s)
    if param s 0x0704 = 1 && !s.rad.grant then s.onRad (fun r => { r with tx := some { t with waiting := true, since := now s } })
    else s.onRad (fun r => { r with
      tx := some { t with
        waiting := false, radiating := true, since := now s, stage := paStageOf s t.entry, drive := driveOf s t.entry,
        tuner := tunerCodes s (bandOf s t.chan) },
      lastTx := stOk, lastFrame := t.frame, band := some (bandOf s t.chan) })

/-- The packet's boundary (R24, R291, R306); the wires are low once coexistence is off (R313). -/
def packetBoundary (s : State) : State :=
  let s := boundaryM .packet s
  let s := if param s 0x0704 = 0 && s.rad.coex.1 then coexDrop s else s
  if s.rad.newTable then takeRadioRecords s else s

/-- A frame has been received: its sync word froze gain and offset until its end, which is a packet's boundary (R24, R305). -/
def rxFrame (s : State) : State :=
  packetBoundary ((rxSync s).onRad (fun r => { r with rx := { r.rx with frozen := false, loopHz := 2000 } }))

/-- The transmission in progress ends, whole or not: its duty is counted and the wires are negated (R313, R315). -/
def endTx (s : State) : State :=
  match s.rad.tx with
  | none => s
  | some t =>
    let s := if t.radiating then addAir (now s - t.since) s else s
    activity (packetBoundary (coexDrop (s.onRad (fun r => { r with tx := none }))))

/-- The radio's lower-precedence work gives way to a request for channel `n` (R300, R302): a background calibration is abandoned, and a
lower-precedence transmission or locate window ends, the former with `ST_BUSY` (DEDUCED, log 23), with its calibration unless it is of the same channel. -/
def makeWay (prec n : Nat) (s : State) : State :=
  let s := s.onRad (fun r => { r with run := r.run.filter (·.mandatory) })
  let keep := fun (s : State) => s.onRad (fun r => { r with run := r.run.filter (fun c => c.chan == n) })
  let s := if prec = 1 && s.zon.poll.any (·.opened) then keep (s.onZon (fun z => { z with poll := none })) else s
  match s.rad.tx with
  | some t =>
    if t.prec > prec then cmdDoneO t.ref stBusy [] (endTx ((keep s).onRad (fun r => { r with lastTx := stBusy })))
    else s
  | none => s

/-- A transmission that waits for its synthesiser goes out when its entry can be used, and else calibrates it (R301, R302). -/
def txGo (s : State) : State :=
  match s.rad.tx with
  | none => s
  | some t => if calUsable s t.chan then radiate s
      else if s.rad.run.any (·.mandatory) then s.onRad (fun r => { r with tx := some { t with waiting := true } })
      else mandatoryCal t.chan (s.onRad (fun r => { r with tx := some { t with waiting := true } }))

/-- A window of precedence 1 or 2 in which the receiver is open (R302). -/
def windowOpen (s : State) : Bool := s.path.any (fun p => p.step = .window && !p.ended) || s.zon.poll.any (·.opened)

/-- A request to transmit (R301): `ST_OK` when it goes out, `ST_ACCEPTED` when it waits for a calibration, the grant, or, asked for
internally, for a packet or window of equal or higher precedence (Table 12-5). -/
def txRequest (t : Tx) (s : State) : Nat × State :=
  let fail := fun (st : Nat) (s : State) => (st, s.onRad (fun r => { r with lastTx := st }))
  match radChecks t.freq t.asked t.airUs t.prec s with
  | (none, s) => fail stRegulatory s
  | (some (n, e), s) =>
    let s := makeWay t.prec n s
    if s.pair.role = .lee || riding s || s.pwr.state ≠ .flood then fail stBusy s
    else if s.rad.tx.isSome || ((t.prec ≠ 1 || t.plugin.isSome) && windowOpen s) then
      if t.ref.isSome then fail stBusy s else (stAccepted, s.onRad (fun r => { r with waits := r.waits ++ [t] }))
    else
      let s := txGo (s.onRad (fun r => { r with tx := some { t with chan := n, entry := e } }))
      (if (s.rad.tx.getD {}).radiating then stOk else stAccepted, s)

/-- A mandatory calibration has ended: the three checks run again, then the transmission goes on (R301). The status is
`ST_REGULATORY` when they now fail, otherwise `ST_OK`. -/
def txAfterCal (s : State) : Nat × State :=
  match s.rad.tx with
  | none => (stOk, s)
  | some t =>
    match radChecks t.freq t.asked t.airUs t.prec s with
    | (none, s) => (stRegulatory, endTx (s.onRad (fun r => { r with lastTx := stRegulatory })))
    | (some (n, e), s) => (stOk, txGo (s.onRad (fun r => { r with tx := some { t with chan := n, entry := e } })))

/-- The receiver opens on a frequency at a precedence, in kHz (R301, R305, R313): whether its channel is allowed. With an entry that
cannot be used, a mandatory calibration comes first. -/
def rxOpen (freq prec : Nat) (s : State) : Bool × State :=
  match chanOf s freq with
  | none => (false, s)
  | some n =>
    let s := coexLead prec (makeWay prec n s)
    (true, if calUsable s n then hopTo n s else if s.rad.run.any (fun c => c.mandatory && c.chan = n) then s else mandatoryCal n s)
/-- A transmission of equal or higher precedence keeps a window waiting (Table 12-5). -/
def txHolds (prec : Nat) (s : State) : Bool := s.rad.tx.any (fun t => t.prec ≤ prec)
/-- A reception is over: the wires are negated (R313) and the packet's boundary follows (R24). -/
def rxClose (s : State) : State := packetBoundary (coexDrop s)

/-- The radio stops at once (R71, R313, R316): transmission and calibration are abandoned, the wires low, entries kept. -/
def radioStop (s : State) : State := (coexDrop (endTx s)).onRad (fun r => { r with run := none, waits := [] })

/-! ### Tuner (R307 to R311) -/

/-- Changes a band's setting. -/
def onTuner (b : Nat) (f : Tuner → Tuner) (s : State) : State :=
  let t := f (tunerOf s b)
  s.onRad (fun r => { r with tuners := r.tuners.filter (fun x => x.band ≠ b) ++ [t] })
/-- The tuner state of Table 12-8, of the band used last. -/
def tunerCode (s : State) : Nat :=
  if param s 0x0707 = 0 then 5 else
  match s.rad.band with
  | some b => if (s.rad.tx.toList ++ s.rad.waits).any (fun t => t.probe == some b) then 2 else (tunerOf s b).state
  | none => 0
/-- The forward power of a packet, in 0.01 dB from its entry's target, joins the mean of its PA stage (R306, Table 21-7). -/
def paMeasured (t : Tx) (fwd : Int) (s : State) : State := erodeAdd 6 (paStageOf s t.entry + 1) fwd s
/-- The tuner state after a measurement on a band with a setting (Table 12-8): one measured above 6:1 outside the mismatch state reads best
effort, which is the nearest of the table's states (DEDUCED, log 122). -/
def tunerAfter (s : State) (was vswr : Nat) : Nat :=
  if s.rad.mismatch && was = 4 then 4 else if vswr ≤ param s 0x0706 then 1 else 3
/-- Codes of a correction step or an acquisition, which follow no stated formula: free (log 8). -/
def drawCodes (s : State) : List Nat × State :=
  let (a, s) := drawFree s
  let (b, s) := drawFree s
  let (c, s) := drawFree s
  ([a, b, c], s)
/-- The reflection measured on a packet (R307, R309, R311): a band with a setting takes one correction step. -/
def tunerPacket (band vswr : Nat) (s : State) : State :=
  let s := s.onRad (fun r => { r with vswr := sat 255 vswr })
  let s := if s.rad.mismatch && vswr ≤ 50 then
      emitC evRadioMismatch 1 [] [byte (sat 255 vswr)] (s.onRad (fun r => { r with mismatch := false })) else s
  if param s 0x0707 = 0 then s else
  let (c, s) := drawCodes s
  let acquired := (tunerOf s band).state ≠ 0
  let s := onTuner band (fun t => { t with
    codes := if acquired then c else t.codes,
    high := if vswr > param s 0x0706 then t.high + 1 else 0,
    over_ := if vswr > 60 && acquired then t.over_ + 1 else 0,
    state := if acquired then tunerAfter s t.state vswr else 0 }) s
  if (tunerOf s band).over_ ≥ 2 && !s.rad.mismatch then
    emitF evRadioMismatch 1 [] [byte (sat 255 vswr)]
      (onTuner band (fun t => { t with state := 4 }) (s.onRad (fun r => { r with mismatch := true })))
  else s

/-! ### Tideway airtimes (Tables 9-3 and 9-4) -/

/-- Bits per second of `TW_RATE`. -/
def twRate (s : State) : Nat := match param s 0x0404 with | 0 => 100000 | 1 => 38400 | _ => 9600
/-- The airtime of a frame of whole bytes, in us. -/
def twAirUs (s : State) (bytes : Nat) : Nat := (bytes * 8000000 + twRate s - 1) / twRate s
/-- A slot, in us (Table 9-3). -/
def twSlotUs (s : State) : Nat := match param s 0x0404 with | 0 => 4000 | 1 => 10000 | _ => 38000

end Sys2Proof.Machine
end

