-- ==== Sys2Proof/Machine/UwbOps.lean ====
section
/-! DEFINITION. Token records (R200, R228, R336), the UWB ports and their availability (R234, R253), the arithmetic of a round
(R244 to R248) and the port set (R240). -/

namespace Sys2Proof.Machine
open Sys2Proof

/-! ### Token records: priority, flags, last version, plug-in slot, token ID (4, little-endian), wrapped K_token (24) -/

/-- A learned token's record. -/
def tokenRec (s : State) (idx : Nat) : Option Bytes := if idx < 512 then recBody s 0x0030 idx else none
/-- A record's token ID. -/
def tokId (b : Bytes) : Nat := u32 b 4
/-- The index of a learned token ID. -/
def tokenOf (s : State) (id : Nat) : Option Nat :=
  (recKeys s 0x0030).find? (fun k => match tokenRec s k with | some b => tokId b == id | none => false)
/-- K_token, unwrapped under TKEK; `none` when slot 5 is empty or the wrap does not verify (R336). -/
def tokenKey (s : State) (idx : Nat) : Option Bytes :=
  match tokenRec s idx, vaultKey s 5 with
  | some b, some k => keyUnwrap k (slice b 8 24)
  | _, _ => none
/-- The version limit of a record, a raise that has not committed included (R201). -/
def tokVersion (s : State) (idx : Nat) : Nat :=
  match s.raised.find? (fun r => r.1 == idx), tokenRec s idx with
  | some r, _ => r.2
  | none, some b => u8 b 2
  | none, none => 0
/-- The stored rolling counter; an absent one reads 0xFFFF_FFFF (R388). -/
def tokCounter (s : State) (idx : Nat) : Nat := (ctrValue s idx).getD 0xFFFFFFFF

/-! ### Zones and doors -/

/-- A zone's definition from its byte 0 (Table 8-4). -/
def zoneDef (s : State) (z : Nat) : Option Bytes := recBody s 0x0020 z
/-- The zones named by a mask that are defined with a use bit (R259). -/
def zonesOf (s : State) (mask use : Nat) : List Nat :=
  (bitsOf 32 mask).filter (fun z => match zoneDef s z with | some d => bitSet (u8 d 0) use | none => false)
/-- A door's record as paths use it: a running path keeps the door map it began with (R285). -/
def doorRec (s : State) (d : Nat) : Option Bytes :=
  match s.path with
  | some p => (p.doorMap.getD d none)
  | none => recBody s 0x0022 d
/-- The access zones that the doors of a mask name. -/
def doorZones (s : State) (doors : Nat) : Nat :=
  (bitsOf 16 doors).foldl (fun m d => match doorRec s d with | some r => m ||| u32 r 0 | none => m) 0
/-- The zones a path is concerned with (R240, R259). -/
def pathZones (s : State) (kind : PathKind) (doors : Nat) : List Nat :=
  match kind with
  | .start | .attribution => zonesOf s (param s 0x0604) 1
  | _ => zonesOf s (doorZones s doors) 0

/-! ### Ports (R234, R240, R253) -/

/-- The stored cable delay of a port, 1 to 4. -/
def storedDelay (s : State) (p : Nat) : Option Nat := (recBody s 0x0052 p).map (fun b => u16 b 0)
/-- The delay in use: the newest one held until reset, else the stored one (R236). -/
def delayOf (s : State) (p : Nat) : Nat :=
  match (s.uwb.ports.getD (p - 1) {}).delay with
  | some d => d
  | none => (storedDelay s p).getD 0
/-- A port is enabled. -/
def portEnabled (s : State) (p : Nat) : Bool := bitSet (param s 0x0504) (p - 1)
/-- A port is usable (R234). -/
def portUsable (s : State) (p : Nat) : Bool :=
  let st := (s.uwb.ports.getD (p - 1) {}).state
  portEnabled s p && (st = 1 || st = 4) && (storedDelay s p).isSome
/-- The ports that a list of zones needs: distance ports, and the lower port of an angle pair (Table 8-4). -/
def zonePorts (s : State) (zs : List Nat) (skipCovered : Bool) : List Nat :=
  let ds := zs.filterMap (zoneDef s)
  let dist := (ds.filter (fun d => bitSet (u8 d 13) 0)).map (fun d => u8 d 12)
  let ang := (ds.filter (fun d => bitSet (u8 d 13) 1)).map (fun d => 2 * u8 d 18 - 1)
  let all := dist ++ ang.filter (fun a => !skipCovered || !(dist.contains a || dist.contains (a + 1))) ++ [param s 0x0518]
  (List.range 5).filter (fun p => all.contains p)
/-- The port set of a path (R240). -/
def portSet (s : State) (kind : PathKind) (doors : Nat) : List Nat := zonePorts s (pathZones s kind doors) true
/-- Every defined zone. -/
def definedZones (s : State) : List Nat := (List.range 32).filter (fun z => (zoneDef s z).isSome)
/-- The reasons of Table 10-8 that hold now, bit r for reason r. -/
def unavailNow (s : State) : Nat :=
  (if (zonePorts s (definedZones s) false).any (fun p => !portUsable s p) then 2 else 0) + (if s.uwb.failed then 4 else 0) +
  (if s.rng.fatal.isSome || s.rng.latchedFatal then 8 else 0) + (if !s.clk.xtal26 then 16 else 0)
/-- `EV_UWB_UNAVAILABLE` at each entry and end of a reason (R253), once the mailbox is ready. -/
def updateUwb (s : State) : State :=
  if s.pwr.phase ≠ .ready then s else
  let n := unavailNow s
  let old := s.uwb.unavail
  let s := s.onUwb (fun u => { u with unavail := n })
  [1, 2, 3, 4].foldl (fun s r =>
    if bitSet n r && !bitSet old r then emitF evUwbUnavailable 1 [byte r] [byte r] s
    else if !bitSet n r && bitSet old r then emitC evUwbUnavailable 1 [byte r] [byte r] s
    else s) s
/-- UWB is unavailable to every path and session: reasons 2 to 4 (R253). -/
def uwbGoneAll (s : State) : Bool := unavailNow s / 4 ≠ 0
/-- UWB is unavailable to a path with this port set (R253). -/
def uwbGone (s : State) (ports : List Nat) : Bool :=
  uwbGoneAll s || ports.any (fun p => !portUsable s p)

/-- The ranging allowance of a path, in us (R240). -/
def rangingUs (s : State) (ports : List Nat) : Nat :=
  (if param s 0x0502 = 0 then 500 else 850) + 1600 * (ports.length * param s 0x0505 + 1)

/-! ### A round (R244 to R248) -/

/-- The raw time of flight in femtoseconds: counter units of 1/(128 x 499.2 MHz). -/
def tofFs (tround1 tround2 treply1 treply2 : Nat) : Int :=
  let num : Int := (tround1 * tround2 : Nat) - (treply1 * treply2 : Nat)
  let den := tround1 + tround2 + treply1 + treply2
  if den = 0 then 0 else num * 10000000000 / ((den * 638976 : Nat) : Int)
/-- The distance in thousandths of a centimetre, 0 when negative (R244). -/
def distOf (fs : Int) (delayPs internalPs : Nat) : Nat :=
  ((fs - 1000 * ((delayPs + internalPs : Nat) : Int)) * 29979245800 / 1000000000000).toNat

/-- x in units of 10^-15 rad for `n` twentieths of a degree. -/
def radOf (n : Int) : Int := n * 3141592653589793 / 3600
/-- The terms x^(2i+1)/(2i+1)! of a sine, times 10^15. -/
def sinTerms (x : Int) : Nat → Nat → Int → List Int
  | 0, _, _ => []
  | k + 1, i, t => t :: sinTerms x k (i + 1) (t * x / 1000000000000000 * x / 1000000000000000 / (((2 * i + 2) * (2 * i + 3) : Nat) : Int))
/-- A sine times 10^15. -/
def sin15 (n : Int) : Int :=
  ((sinTerms (radOf n) 14 0 (radOf n)).zipIdx).foldl (fun (a : Int) p => if p.2 % 2 = 0 then a + p.1 else a - p.1) 0
/-- arcsin of `a / b` in 0.1 degree, rounded; `none` beyond 1 (R248). -/
def arcsin10 (a : Int) (b : Nat) : Option Int :=
  if a.natAbs > b || b = 0 then none else
  -- the least k with a / b < sin((k + 1/2) / 10 deg), by binary search over -900 .. 900
  let lo := (List.range 11).foldl (fun (r : Int × Int) _ =>
    if r.1 ≥ r.2 then r else
    let m := (r.1 + r.2) / 2
    if a * 1000000000000000 < sin15 (2 * m + 1) * (b : Int) then (r.1, m) else (m + 1, r.2)) ((-900 : Int), (900 : Int))
  some lo.1
/-- The angle of a round in 0.1 degree from the phase difference in 0.01 degree (R248). -/
def angleOf (s : State) (port : Nat) (phase : Int) : Option Int :=
  let pair := (port - 1) / 2
  let lam := if param s 0x0501 = 0 then 4620 else 3753
  let spacing := param s (0x0509 + pair)
  -- (phase/100 - P/10) deg x lam/100 mm / (360 deg x spacing/10 mm)
  arcsin10 ((phase - 10 * paramI s (0x050B + pair)) * lam) (360000 * spacing)

/-- Puts a number into a rising list. -/
def insertInt (x : Int) : List Int → List Int
  | [] => [x]
  | y :: r => if x ≤ y then x :: y :: r else y :: insertInt x r
/-- A list in rising order. -/
def sortInt (l : List Int) : List Int := l.foldl (fun r x => insertInt x r) []
/-- The median, the two middle values averaged for an even count (R246). -/
def medianInt (l : List Int) : Option Int :=
  let q := sortInt l
  let n := q.length
  if n = 0 then none
  else if n % 2 = 1 then some (q.getD (n / 2) 0)
  else some (roundDivI (q.getD (n / 2 - 1) 0 + q.getD (n / 2) 0) 2)

/-- A token's newest outcome on a port. -/
def resultOf (s : State) (token port : Nat) : Option RResult :=
  s.uwb.results.find? (fun r => r.token == token && r.port == port)
/-- The result that `RANGING_STATUS` and `ZONE_STATE` report (R246): `RD_PORT` first, else the lowest port that has one. -/
def chosenResult (s : State) (token : Nat) : Option RResult :=
  let has := fun (p : Nat) => (resultOf s token p).bind (fun r => if r.dist.isSome then some r else none)
  match has (param s 0x0518) with
  | some r => some r
  | none => [1, 2, 3, 4].findSome? has
/-- The newest angle measured on a pair of ports (R192, R246). -/
def pairAngle (s : State) (token pair : Nat) : Option (RResult × Int) :=
  let on := fun (p : Nat) => (resultOf s token p).bind (fun r => if r.dist.isSome then r.angle.map (fun a => (r, a)) else none)
  match on (2 * pair - 1), on (2 * pair) with
  | some x, some y => some (if x.1.at_ < y.1.at_ then y else x)
  | x, y => x.orElse (fun _ => y)

/-- A port's outcome of a burst (R246), from its rounds. -/
def portOutcome (s : State) (token port : Nat) (rounds : List Round) : RResult :=
  let rs := rounds.filter (fun r => r.port == port)
  let good := rs.filter (·.valid)
  let ang := medianInt (good.filterMap (·.angle))
  let heard := rs.filter (·.resp)
  let minQ := fun (l : List Round) => (l.map (·.quality)).foldl min 255
  if good.length ≥ 2 then
    { token := token, port := port, dist := (medianInt (good.filterMap (fun r => r.dist.map (fun d => (d : Int))))).map (fun d => sat 0xFFFE (roundDiv d.toNat 1000)),
      angle := ang, quality := minQ good, rounds := good.length, at_ := now s }
  else
    let fails := heard.filter (fun r => r.quality < r.stsMin || r.fpPs > 10 * r.fpMax)
    { token := token, port := port, quality := if heard.isEmpty then 0 else minQ heard, rounds := good.length, at_ := now s,
      unusable := !fails.isEmpty,
      fpPs := ((fails.filter (fun r => r.fpPs > 10 * r.fpMax)).map (·.fpPs)).foldl max 0 }

/-- `EV_RANGE_RESULT` of a port's outcome. -/
def rangeEvent (r : RResult) (s : State) : State :=
  emit evRangeResult 0 (le16 r.token ++ le16 (r.dist.getD 0xFFFF) ++
    le16 (match r.dist, r.angle with | some _, some a => twos 16 a | _, _ => 0x8000) ++ [byte r.quality, byte r.port]) s

/-- A token's carrier offset or clock ratio, in 0.01 ppm, joins the mean of the crystal's offset (Table 21-7 item 5). -/
def crystalSample (token : Nat) (x : Int) (s : State) : State :=
  let s := erodeAdd 5 1 x s
  { s with ero := s.ero.map (fun e => if e.item == 5 && !e.toks.contains token then { e with toks := e.toks ++ [token] } else e) }
/-- The clock ratio of a round whose report has come (Table 10-5): the token's time from POLL to FINAL against this one, less 1, in 0.01 ppm. -/
def clockRatio (r : Round) : Option Int :=
  match r.report with
  | some (reply1, round2) =>
    let own := r.tround1 + r.treply2
    if !r.resp || own = 0 then none else some (roundDivI (100000000 * ((reply1 + round2 : Nat) - (own : Int))) own)
  | none => none

end Sys2Proof.Machine
end

