-- ==== Sys2Proof/Machine/ZoneOps.lean ====
section
/-! DEFINITION. The zone engine (08_field_synthesis_and_zones, R190 to R197) and the relay-defence rules (R249 to R251). -/

namespace Sys2Proof.Machine
open Sys2Proof

/-! ### Checks of a definition (R190) -/

/-- Every field in use lies within its values; the definition has 24 + 4n bytes. -/
def zoneOk (d : Bytes) : Bool :=
  let use := u8 d 0
  let cond := u8 d 3
  let terms := u8 d 13
  let mask := u32 d 4
  let win := fun (k : Nat) =>
    let t := u8 d (24 + 4 * k)
    let r := u8 d (25 + 4 * k)
    let lo := u8 d (26 + 4 * k)
    let hi := u8 d (27 + 4 * k)
    1 ≤ t && t ≤ 8 && r ≤ 8 && r ≠ t && (if r = 0 then lo ≤ hi else signed 8 lo ≤ signed 8 hi)
  1 ≤ use && use ≤ 3 && cond ≤ 3 && terms ≤ 3 &&
  (!bitSet terms 0 || (u16 d 8 ≤ u16 d 10 && 1 ≤ u8 d 12 && u8 d 12 ≤ 4)) &&
  (!bitSet terms 1 || (-1800 ≤ s16 d 14 && s16 d 14 ≤ s16 d 16 && s16 d 16 ≤ 1800 && (u8 d 18 = 1 || u8 d 18 = 2))) &&
  u8 d 19 ≤ 20 && u16 d 20 ≤ 500 && zeros d 22 2 &&
  (cond ≠ 2 || (mask ≠ 0 && mask < 65536)) && (cond ≠ 3 || (mask ≠ 0 && mask % 65536 = 0 && mask < 16777216)) &&
  (!bitSet use 1 || bitSet terms 0) && (List.range (u8 d 2)).all win

/-! ### LF evidence (R191) -/

/-- `round(40 log10(t / m))` for positive `t` and `m`: the greatest n with 10^(2n-1) m^80 ≤ t^80. -/
def log40 (t m : Nat) : Int :=
  if t = 0 || m = 0 then 0 else
  let ok := fun (n : Int) =>
    let e := 2 * n - 1
    if e ≥ 0 then 10 ^ e.toNat * m ^ 80 ≤ t ^ 80 else m ^ 80 ≤ t ^ 80 * 10 ^ (-e).toNat
  ((List.range 9).foldl (fun (r : Int × Int) _ =>
    if r.1 ≥ r.2 then r else
    let k := (r.1 + r.2 + 1) / 2
    if ok k then (k, r.2) else (r.1, k - 1)) ((-200 : Int), (200 : Int))).1

/-- The target current of a window that one channel drives, in 1/255 mA. -/
def target255 (w : Window) : Nat := match w.drives with | [d] => d.amp * 1500 | _ => 0

/-- A tone's usable strength code, corrected for an off-target current (R191). -/
def usableCode (w : Option Window) (code : Nat) : Option Int :=
  match w with
  | none => none
  | some w =>
    if w.silent then none else
    match w.group with
    | some _ => if w.confined then some code else none
    | none =>
      if w.degraded then none
      else if w.offTarget then
        if 510 * w.curMa < target255 w || w.curMa = 0 then none else some ((code : Int) + log40 (target255 w) (255 * w.curMa))
      else some code

/-- One LF window of a zone on a report (R191), widened by `h` codes (R195). -/
def windowHolds (marks : List Window) (codes : List Nat) (w : Bytes) (h : Nat) : Bool :=
  let code := fun (t : Nat) => usableCode (marks[t]?) (codes.getD (t - 1) 0)
  match code (u8 w 0) with
  | none => false
  | some c =>
    if u8 w 1 = 0 then (u8 w 2 : Int) - h ≤ c && c ≤ (u8 w 3 : Int) + h
    else match code (u8 w 1) with
      | none => false
      | some r => codes.getD (u8 w 0 - 1) 0 ≠ 0 && codes.getD (u8 w 1 - 1) 0 ≠ 0 &&
          signed 8 (u8 w 2) - h ≤ c - r && c - r ≤ signed 8 (u8 w 3) + h

/-- The marks of the windows that an answer's version measures (Table 9-1): none at version 1, so that every LF window fails, and the
preamble with the first 4 tones at version 2, whose other codes are never zero evidence (DEDUCED, log 115). -/
def marksFor (version : Nat) (marks : List Window) : List Window :=
  if version ≤ 1 then [] else if version = 2 then marks.take 5 else marks

/-- The windows of a definition. -/
def zoneWindows (d : Bytes) : List Bytes := (List.range (u8 d 2)).map (fun k => slice d (24 + 4 * k) 4)

/-- A token of the located set. -/
def locatedOf (s : State) (idx : Nat) : Option Located := s.zon.located.find? (fun l => l.idx == idx)

/-- A contact input reads asserted (R324). -/
def contactAsserted (s : State) (n : Nat) : Bool := (s.sen.cin.getD (n - 1) {}).asserted
/-- A capacitive channel reads touched. -/
def touched (s : State) (c : Nat) : Bool := (s.sen.cap.getD c {}).touched

/-- The sensor condition of a zone (R192). -/
def condHolds (s : State) (d : Bytes) (trigger : Nat) : Bool :=
  let m := u32 d 4
  match u8 d 3 with
  | 0 => true
  | 1 => bitSet m trigger
  | 2 => (bitsOf 16 m).any (touched s)
  | _ => (bitsOf 32 m).all (fun b => contactAsserted s (b - 15))

/-- A result is usable and fresh (R192). -/
def freshResult (s : State) (r : RResult) : Bool := !r.unusable && now s ≤ r.at_ + 10000 * param s 0x0307

/-- The distance term, widened by `h` cm. -/
def distHolds (s : State) (d : Bytes) (idx h : Nat) : Bool :=
  match resultOf s idx (u8 d 12) with
  | some r => freshResult s r && (match r.dist with
      | some x => u16 d 8 ≤ x + h && x ≤ u16 d 10 + h
      | none => false)
  | none => false
/-- The angle term, on the pair's newest angle. -/
def angleHolds (s : State) (d : Bytes) (idx : Nat) : Bool :=
  match pairAngle s idx (u8 d 18) with
  | some (r, a) => freshResult s r && s16 d 14 ≤ a && a ≤ s16 d 16
  | none => false

/-- A zone is met by a located token (R191 to R195). `lenient`: the UWB terms are treated as holding (Table 10-9). -/
def zoneMet (s : State) (l : Located) (z : Nat) (lenient session : Bool) : Bool :=
  match zoneDef s z with
  | none => false
  | some d =>
    let keep := session && bitSet l.mask z
    let h := if keep then u8 d 19 else 0
    let hd := if keep then u16 d 20 else 0
    let rep := l.reports.find? (fun r => r.1 == u8 d 1)
    let lf := (zoneWindows d).isEmpty || (match rep with
      | some (_, at_, codes, _, marks) =>
        now s ≤ at_ + 100000 * param s 0x0306 && (zoneWindows d).all (fun w => windowHolds marks codes w h)
      | none => false)
    let synth := match rep with
      | some (_, at_, codes, _, marks) =>
        now s ≤ at_ + 100000 * param s 0x0306 && (zoneWindows d).any (fun w =>
          (match marks[u8 w 0]? with | some m => m.group.isSome | none => false) && windowHolds marks codes w h)
      | none => false
    let dist := distHolds s d l.idx hd
    lf && (lenient || ((!bitSet (u8 d 13) 0 || dist) && (!bitSet (u8 d 13) 1 || angleHolds s d l.idx))) &&
      condHolds s d l.trigger && (!bitSet (u8 d 0) 1 || ((lenient || dist) && synth))

/-- A token's mask over every defined zone; a revoked token meets none (R135). -/
def zoneMask (s : State) (l : Located) (lenient session : Bool) : Nat :=
  if (tokenRec s l.idx).isNone then 0 else
  (definedZones s).foldl (fun m z => if zoneMet s l z lenient session then setBit m z else m) 0

/-! ### The located set (R197, R227) -/

/-- A token holds a session. -/
def holdsSession (s : State) (idx : Nat) : Bool :=
  s.rel.access.any (fun a => a.token == idx) || (match s.rel.start with | some t => t.driver = idx | none => false)

/-- Sets a token's mask, with `EV_ZONE_CHANGE` when it changes (R194). -/
def setMask (idx mask : Nat) (s : State) : State :=
  match locatedOf s idx with
  | none => s
  | some l =>
    if l.mask = mask then s else
    emit evZoneChange 0 (le16 idx ++ le32 l.mask ++ le32 mask)
      (s.onZon (fun z => { z with located := z.located.map (fun x => if x.idx = idx then { x with mask := mask } else x) }))

/-- A token leaves the set: a new mask of 0, and its K_s is erased (R197, R227). -/
def leaveLocated (idx : Nat) (s : State) : State :=
  match locatedOf s idx with
  | none => s
  | some l =>
    let s := s.onZon (fun z => { z with located := z.located.filter (fun x => x.idx ≠ idx) })
    let s := s.onUwb (fun u => { u with results := u.results.filter (fun r => r.token ≠ idx) })
    emit evZoneChange 0 (le16 idx ++ le32 l.mask ++ le32 0) s

/-- Tokens without a session, oldest newest evidence first: the one that makes room (R197). -/
def leaver (s : State) : Option Nat :=
  ((s.zon.located.filter (fun l => !holdsSession s l.idx)).foldl (fun (b : Option Located) l =>
    match b with
    | some x => if l.newest < x.newest then some l else some x
    | none => some l) none).map (·.idx)

/-- A token that a path has authenticated joins the set, or renews its key and report (R197, R227); an exchange without a session key
or a report leaves those it has. With no room it stays out. -/
def joinLocated (idx trigger : Nat) (kS : Option Bytes) (report : Option (Nat × Nat × List Nat × Nat × List Window)) (s : State) : State :=
  let put := fun (l : Located) => { l with
    kS := kS.getD l.kS, trigger := trigger, newest := now s,
    reports := match report with
      | some r => l.reports.filter (fun x => x.1 ≠ r.1) ++ [r]
      | none => l.reports }
  match locatedOf s idx with
  | some _ => s.onZon (fun z => { z with located := z.located.map (fun x => if x.idx = idx then put x else x) })
  | none =>
    let s := if s.zon.located.length < 16 then s else
      match leaver s with
      | some v => leaveLocated v s
      | none => s
    if s.zon.located.length < 16 then s.onZon (fun z => { z with located := z.located ++ [put { idx := idx }] }) else s

/-! ### Relay defence (R249 to R251) -/

/-- r_LF of R250 as its 120th power, numerator over denominator: 10^(ref - code - 120) x mA^40. -/
structure RLf where
  num : Nat
  den : Nat
/-- The tone of R250: the highest code among single-channel tones that qualify, with its reference and current. -/
def rLf (s : State) (version : Nat) (pre : Nat) (codes : List Nat) (marks : List Window) : Option RLf :=
  let one := fun (w : Window) (code : Nat) =>
    match w.drives, w.group with
    | [d], none =>
      let ref := param s (0x0530 + d.chan)
      if (usableCode (some w) code).isSome && 1 ≤ code && code ≤ 254 && ref ≠ 0 && w.curMa ≠ 0 then some (code, ref, w.curMa) else none
    | _, _ => none
  let cands : List (Nat × Nat × Nat) :=
    if version ≤ 1 then (one (marks.getD 0 {}) pre).toList
    else (((marksFor version marks).drop 1).zip codes).filterMap (fun p => one p.1 p.2)
  (cands.foldl (fun (b : Option (Nat × Nat × Nat)) c => match b with
    | some x => if c.1 > x.1 then some c else some x
    | none => some c) none).map (fun c => { num := 10 ^ c.2.1 * c.2.2 ^ 40, den := 10 ^ (c.1 + 120) })
/-- `x / y` metres is at most r_LF. -/
def rLfGe (r : RLf) (x y : Nat) : Bool := x ^ 120 * r.den ≤ r.num * y ^ 120
/-- The ratio r_LF / d times 1000, rounded, for d in cm. -/
def ratio1000 (r : RLf) (d : Nat) : Nat :=
  ((List.range 33).foldl (fun (b : Nat × Nat) _ =>
    if b.1 ≥ b.2 then b else
    let m := (b.1 + b.2 + 1) / 2
    if rLfGe r ((2 * m - 1) * d) 200000 then (m, b.2) else (b.1, m - 1)) (0, 0xFFFFFFFD)).1

/-- The rules that fail for an authenticated token against a zone, with the values of Table 10-7. Without UWB only rule 4
applies, at `RD_SLOT_TOL_NO_UWB` (Table 10-9). -/
def relayFails (s : State) (a : Auth) (marks : List Window) (ports : List Nat) (zone : Option Nat) (noUwb : Bool) :
    List (Nat × Nat × Nat) :=
  let zd := zone.bind (zoneDef s)
  let (port, bound) := match zd with
    | some d => if bitSet (u8 d 13) 0 then (u8 d 12, u16 d 10) else (param s 0x0518, param s 0x0510)
    | none => (param s 0x0518, param s 0x0510)
  let res := (resultOf s a.ans.idx port).bind (fun r => if now s ≤ r.at_ + 10000 * param s 0x0307 then r.dist else none)
  let r1 : List (Nat × Nat × Nat) := match res with
    | some d => if d > bound then [(1, d, bound)] else []
    | none => [(1, 0xFFFFFFFF, bound)]
  let bad := ports.filterMap (fun p => (resultOf s a.ans.idx p).bind (fun r => if r.unusable then some r else none))
  let fp := (bad.map (·.fpPs)).foldl max 0
  let r2 : List (Nat × Nat × Nat) := if bad.isEmpty then []
    else if fp ≠ 0 then [(2, 0x80000000 + fp, 0x80000000 + 10 * param s 0x0512)]
    else [(2, (bad.map (·.quality)).foldl min 255, param s 0x0511)]
  let lo := param s 0x0513
  let hi := param s 0x0514
  let r3 : List (Nat × Nat × Nat) := match rLf s a.ans.version a.ans.pre a.ans.strengths marks, res with
    | none, _ => [(3, 0xFFFFFFFF, 10 * lo)]
    | some _, none => [(3, 0xFFFFFFFE, 10 * lo)]
    | some r, some d =>
      let d := max 1 d
      if !rLfGe r (lo * d) 10000 then [(3, ratio1000 r d, 10 * lo)]
      else if rLfGe r (hi * d) 10000 && !(r.num * 10000 ^ 120 == (hi * d) ^ 120 * r.den) then [(3, ratio1000 r d, 10 * hi)]
      else []
  let worst := if a.proofNs.natAbs > a.ans.offNs.natAbs then a.proofNs else a.ans.offNs
  let tol := 1000 * param s (if noUwb then 0x0517 else 0x0515)
  let r4 : List (Nat × Nat × Nat) := if worst.natAbs > tol then [(4, twos 32 worst, tol)] else []
  if noUwb then r4 else r1 ++ r2 ++ r3 ++ r4

end Sys2Proof.Machine
end

