-- ==== Sys2Proof/Machine/PathOps.lean ====
section
/-! DEFINITION. The path of 01_architecture and 09_tideway_protocol: its queue (R19), allowances (R16, Table 1-3), wake burst
(R203 to R207), windows and re-polls (R209 to R213), authentication (R216 to R222), counters (R224, R225) and denials (R284). -/

namespace Sys2Proof.Machine
open Sys2Proof

/-! ### Queueing (R19, R130) -/

/-- Start and transponder requests and the attribution poll, which comes after any start request already queued, go before the others
(R19, R223). -/
def pathRank : PathKind → Nat
  | .start | .transponder | .attribution => 0
  | _ => 1
/-- A trigger's coils join the waiting coil set: the lowest channels first, at most 8 and at most 4 of one supply group (R19). -/
def mergeCoils (a b : List Nat) : List Nat :=
  ((List.range 49).filter (fun c => a.contains c || b.contains c)).foldl (fun l c =>
    if l.length < 8 && (l.filter (fun x => vlfGroup x == vlfGroup c)).length < 4 then l ++ [c] else l) []
/-- A request is merged into the path whose preamble has not begun (R19), when it is of the same kind (DEDUCED, log 107): its coils and
doors join, and a command's completion follows that of the path. -/
def mergeReq (r : PathReq) (p : Path) (s : State) : Path :=
  let q := { p.req with coils := mergeCoils p.req.coils r.coils, doors := p.req.doors ||| r.doors, also := p.req.also ++ r.ref.toList }
  let zs := pathZones s q.kind q.doors
  { p with req := q, zones := zs.foldl setBit 0, noUwb := uwbGone s (portSet s q.kind q.doors),
           plan := match zs with | z :: _ => u8 ((zoneDef s z).getD []) 1 | [] => p.plan }
/-- A request joins the queue, or the path whose preamble has not begun (R19); the result says whether it was taken. A ninth
request is not. -/
def pushPath (r : PathReq) (s : State) : Bool × State :=
  let merges := s.path.any (fun p => (p.step = .toFlood || p.step = .refresh) && !p.ended && p.req.kind = r.kind &&
    (r.kind = .access || r.kind = .start || r.kind = .locate))
  if merges then (true, s.onPath (fun p => mergeReq r p s))
  else if s.paths.length ≥ 8 then (false, s)
  else (true, { s with paths := s.paths ++ [r] })
/-- The request served next. -/
def nextReq (l : List PathReq) : Option PathReq :=
  match l.find? (fun r => pathRank r.kind = 0) with
  | some r => some r
  | none => l.head?

/-! ### Allowances (R16, R17, Table 1-3), in microseconds -/

/-- The wake burst: preamble, frame and 8 tones. -/
def wakeUs (s : State) : Nat := frameUs (carrierInc s) (param s 0x0401) + 4000
/-- The guard and the response window. -/
def windowUs (s : State) : Nat := 500 + param s 0x0403 * twSlotUs s
/-- A re-poll, its guard and its window. -/
def repollUs (s : State) : Nat := 10000000 / twRate s * 10 + windowUs s
/-- Commit and ranging, concurrent. -/
def commitRangeUs (s : State) (p : Path) : Nat :=
  if p.noUwb || p.req.kind = .transponder then 1500 else max 1500 (rangingUs s (portSet s p.req.kind p.req.doors))
/-- The release signal. -/
def signalUs (s : State) (p : Path) : Nat :=
  match p.req.kind with
  | .access => if (bitsOf 16 p.req.doors).any (fun d => match doorRec s d with | some r => bitSet (u8 r 4) 1 | none => false)
      then 6500 else 500
  | .start | .transponder => 500
  | _ => 0
/-- Commit, ranging, decision and signal: what follows an authentication. -/
def tailUs (s : State) (p : Path) : Nat := commitRangeUs s p + 1000 + signalUs s p
/-- A step and all that remains end by the deadline. -/
def fits (s : State) (p : Path) (us : Nat) : Bool := now s + us ≤ p.deadline

/-! ### Ends (R16, R284) -/

/-- The path's own burst and transmission stop. -/
def stopPathWork (s : State) : State :=
  let s := match s.lf.cur with
    | some b => if (b.kind = BurstKind.wake && b.ref.isNone) || (b.kind = BurstKind.refresh && (match s.path with | some p => decide (p.step = PathStep.refresh) | none => false))
        then cutBurst s else s
    | none => s
  match s.rad.tx with
  | some t => if t.prec = 1 && t.plugin.isNone && t.probe.isNone then endTx s else s
  | none => s
/-- The door mask of a denial: 0 for a start or transponder path. -/
def deniedMask (p : Path) : Nat := match p.req.kind with | .access => p.req.doors | _ => 0
/-- The command's tag. -/
def pathTag (p : Path) : Option Nat := p.req.ref.map (·.tag)
/-- The path ends: what follows is PATH_END. -/
def closePath (outcome : Nat) (denied : Option Nat) (s : State) : State :=
  let s := (stopPathWork s).onPath (fun p => { p with
    step := .ended, ended := true, outcome := some outcome, denied := denied, since := now s, cur := none, todo := [] })
  let s := s.onLf (fun l => { l with soundHeld := false })
  if s.rad.tx.isNone && s.rad.coex.1 then rxClose s else s
/-- What a denial rests on (R87): the failed authentication, the failed commit, the relay suspicion, the refused group, the fault or the
revocation that the ITF48 has reported, else the token's authentication. -/
def denialRef (p : Path) (reason : Nat) (s : State) : Nat × Nat :=
  let auth := match p.auths.getLast? with | some a => (6, a.authSeq) | none => (0, 0)
  let or_ := fun (r : Nat × Nat) => if r = (0, 0) then auth else r
  match reason with
  | 2 => (6, lastSeq s 6)
  | 3 => or_ (match p.auths.find? (fun a => a.committed = some false) with
    | some a => newestRef evPairCommitFail (fun r => r.params.take 2 == le16 (0x8000 + a.ans.idx)) s
    | none => (0, 0))
  | 5 => refTo evRelaySuspect s
  | 6 => refTo evSynthRefused s
  | 8 => or_ (faultRef [evUwbUnavailable, evRngFatal] s)
  | 9 => or_ (faultRef [evStartOutputDiag] s)
  | 12 =>
    let f := faultRef [evTransponderDiag, evVbatLoss, evVbatOv, evVlfOv, evVrelLow, evVlfLow, evBusFault, evLinNoResponse, evLfDiag] s
    or_ (if f = (0, 0) && !s.pwr.vbatFull then newestRef evVbatReduced (fun _ => true) s else f)
  | 13 => or_ (match p.auths.find? (·.revoked) with
    | some a => newestRef evTokenRevoked (fun r => r.params.take 2 == le16 a.ans.idx) s
    | none => (0, 0))
  | _ => auth
/-- The path ends with a denial (R284), which depends on the record `why` when it is given; a locate-only or attribution path releases
nothing and raises no record. -/
def denyPathBy (why : Nat × Nat) (reason : Nat) (s : State) : State :=
  match s.path with
  | none => s
  | some p =>
    if p.ended then s else
    let ref := foreign evReleaseDenied (if why = (0, 0) then denialRef p reason s else why)
    let s := match p.req.kind with
      | .locate | .attribution => s
      | _ => emitX evReleaseDenied 0 (byte reason :: le16 (deniedMask p)) { tag := pathTag p, ref := ref } s
    closePath 1 (some reason) s
/-- A denial whose cause its reason tells. -/
def denyPath (reason : Nat) (s : State) : State := denyPathBy (0, 0) reason s
/-- The path ends under R16. The codes of the step reached are not given: free (log 8). -/
def deadlinePath (s : State) : State :=
  match s.path with
  | none => s
  | some p =>
    if p.ended then s else
    let (c, s) := drawFree s
    closePath 2 none (emitX evPathDeadline 0 [byte c, byte p.retries] { tag := pathTag p } s)
/-- The RNG is in fatal alarm: a waiting path ends (Table 15-3). -/
def rngDenies (s : State) : Option State :=
  if s.rng.fatal.isSome || s.rng.latchedFatal then
    some (denyPath (match s.path with | some p => if p.req.kind = .transponder then 15 else 8 | none => 8) s)
  else none

/-! ### Sub-GHz frames of a path (R214, R215) -/

/-- A downlink frame. -/
def twFrame (body : Bytes) : Bytes := [0xAA, 0x6B, 0x1D, 0xC4, 0xA7] ++ body ++ beBytes 2 (crc16 0x1021 0xFFFF body)
/-- The frequency that a nonce selects. -/
def freqOf (s : State) (nDev : Bytes) : Nat :=
  let l := twFreqs s
  l.getD (beNat nDev % max 1 l.length) 0
/-- Sends a frame on the path's frequency at precedence 1. -/
def pathTx (frame : Bytes) (s : State) : Nat × State :=
  match s.path with
  | none => (stBusy, s)
  | some p => txRequest { freq := p.freq, asked := param s 0x0701, airUs := twAirUs s frame.length, prec := 1, frame := frame } s
/-- A token's slot (R209). -/
def slotFor (s : State) (id : Nat) (nDev : Bytes) : Nat :=
  ((aesEnc (zeroBytes 16) (beBytes 4 id ++ nDev ++ zeroBytes 8)).headD 0).toNat % max 1 (param s 0x0403)
/-- The poll byte (R215). -/
def pollByte (poll slot : Nat) : Byte := byte (64 * poll + slot)

/-! ### Wake burst (R203 to R207, R21, R172) -/

/-- The wake frame's bits after the sync, most significant first (Tables 9-1 and 9-2). -/
def wakeBits (version kind tones group : Nat) (nDev : Bytes) (plan : Nat) : Bytes :=
  byte (64 * version + 16 * kind + tones) :: beBytes 3 group ++ nDev ++ (if version ≤ 1 then [] else [byte plan])
/-- The frame with its sync and CRC. -/
def wakeFrame (bits : Bytes) : Bytes := 0xB2 :: bits ++ beBytes 2 (crc16 0x1021 0xFFFF bits)
/-- The first group tone of a plan, at the version sent. -/
def planGroup (s : State) (plan : Nat) : Option Nat := (planTones s plan).findSome? toneGroup
/-- A refused burst denies the path: the LF limits with reason 7, a fault or supply with 12 (Table 11-9). -/
def lfDenial (st : Nat) : Nat := if st = stRegulatory || st = stBadParam then 7 else 12

/-- The preamble's window of a path: its coil set, or its synthesis group (R207). `none` when it is refused, which has been reported. -/
def preWindow (s : State) (p : Path) (endAt : Nat) : Option Window × State :=
  match p.group with
  | some g => match buildGroup g endAt (carrierInc s) s with
    | (.inr w, s) => (some w, s)
    | (.inl _, s) => (none, s)
  | none =>
    (some { drives := (p.req.coils.filter (fun c => lfCap s c ≠ 0)).map (fun c =>
      { chan := c, amp := min (param s 0x0202) (lfCap s c), phase := 0 }) }, s)

/-- The start group has a stale entry that a refresh may still mend (R172). -/
def wantsRefresh (s : State) (p : Path) : Bool :=
  match p.group.bind (groupDef s) with
  | some b =>
    let r := groupRefusal s b ((remap s b).filterMap (·.2)) (now s + wakeUs s)
    !p.refreshed && (r = some 1 || r = some 2)
  | none => false

/-- The path's next LF step: the refresh of a stale start group, then the wake burst (R170, R172). A thermal limit, or a nonce that
cannot be drawn yet, leaves the path waiting. -/
def beginPathBurst (s : State) : State :=
  match s.path with
  | none => s
  | some p =>
    let rest := wakeUs s + windowUs s + 5000 + tailUs s p
    if wantsRefresh s p then
      if !fits s p (8 * slotUs (carrierInc s) + 400 + rest) then deadlinePath s else
      let mem := match p.group.bind (groupDef s) with | some b => (remap s b).filterMap (·.2) | none => []
      let b := refreshBurst s mem
      match lfCheck true (burstGroups b) b.energyUj b.durUs s with
      | some st => denyPath (lfDenial st) s
      | none =>
        if !thermalOk s true b.energyUj then thermalEvent b.energyUj b.durUs s
        else startBurst b (s.onPath (fun p => { p with step := .refresh, refreshed := true }))
    else if !fits s p rest then deadlinePath s
    else
      let inc := carrierInc s
      let ver := param s 0x0401
      let sent := sentTones s p.plan ver
      let endAt := now s + frameUs inc ver + 500 * sent.length
      match preWindow s p endAt with
      | (none, s) => denyPath 6 s
      | (some pre, s) =>
        if pre.drives.isEmpty then denyPath 12 s else
        let (tones, s) := toneWindows endAt inc sent s
        let b := wakeBurst s .wake none 0 ver pre tones [] p.plan
        match lfCheck true (burstGroups b) b.energyUj b.durUs s with
        | some st => denyPath (lfDenial st) s
        | none =>
          if !thermalOk s true b.energyUj then thermalEvent b.energyUj b.durUs s else
          match draw .challenge 4 s with
          | (none, s) => (rngDenies s).getD s
          | (some nDev, s) =>
            let frame := wakeFrame (wakeBits ver 0 sent.length (param s 0x0402) nDev p.plan)
            startBurst { b with frame := frame } (s.onPath (fun p => { p with
              step := .burst, nDev := nDev, version := ver, freq := freqOf s nDev, poll := 0, slots := param s 0x0403 }))

/-- The wake burst has been sent: its marks are kept and the window opens after the guard (R209); a sounding that waited for the path's
last LF step goes on (R154). -/
def wakeSent (marks : List Window) (s : State) : State :=
  mirrorPath 0 ((s.onLf (fun l => { l with soundHeld := false })).onPath (fun p => { p with windows := marks, step := .guard, windowAt := now s + 500, slot := 0, collided := false, slotAns := false }))

/-! ### Authentication (R218 to R222) -/

/-- K_s of an answer. -/
def sessionKey (kTok : Bytes) (a : Ans) : Bytes := cmac kTok (a.nDev ++ a.nTok ++ beBytes 4 a.counter)
/-- The transcript T. -/
def transcript (group : Nat) (a : Ans) (cDev : Bytes) : Bytes :=
  byte a.version :: beBytes 3 group ++ a.nDev ++ beBytes 4 a.id ++ a.nTok ++ beBytes 4 a.counter ++ a.strengths.map byte ++
    [byte a.pre, pollByte a.poll a.slot] ++ cDev
/-- P_dev and P_tok. -/
def proofs (kS t : Bytes) : Bytes × Bytes :=
  let d := (cmac kS (2 :: t)).take 8
  (d, (cmac kS (1 :: t ++ d)).take 8)

/-- Sends CHALLENGE for the answer being authenticated (R219). While it is out `stepEnd` is 0, and from its end PROOF is awaited until 200 us
after its nominal end; one that is not sent counts as its first silence (R303). -/
def transmitChallenge (a : Ans) (cDev pDev : Bytes) (s : State) : State :=
  let frame := twFrame ([0x30, pollByte a.poll a.slot] ++ cDev ++ pDev)
  match pathTx frame s with
  | (st, s) =>
    if st = stRegulatory then denyPath 7 s
    else s.onPath (fun p => { p with step := .challenge, stepEnd := if st = stOk || st = stAccepted then 0 else now s })
/-- Draws C_dev and sends CHALLENGE; without a seed the step waits (Table 9-7). -/
def sendChallenge (s : State) : State :=
  match s.path with
  | none => s
  | some p => match p.cur with
    | none => s
    | some a => match tokenKey s a.idx with
      | none => s
      | some k => match draw .challenge 8 s with
        | (none, s) => (rngDenies s).getD (s.onPath (fun p => { p with step := .challenge, cDev := [] }))
        | (some cDev, s) =>
          let (pDev, _) := proofs (sessionKey k a) (transcript (param s 0x0402) a cDev)
          transmitChallenge a cDev pDev (s.onPath (fun p => { p with cDev := cDev, pDev := pDev, repeated := false }))

/-- Every authentication is over: the path denies, or commit and ranging are awaited (R15). `missed`: a token's step did not fit. -/
def afterAuths (missed : Bool) (s : State) : State :=
  match s.path with
  | none => s
  | some p =>
    if p.auths.isEmpty then
      (if p.authTried then denyPath 2 s else if p.tokenGone then denyPath 13 s else if missed then deadlinePath s else denyPath 1 s)
    else s.onPath (fun p => { p with step := .commitRange, cur := none, todo := [] })

/-- The slot holding a plug-in token's record may run a step for it (R31, R229). -/
def stepAllowance (s : State) (slot : Nat) : Nat := if slotLive s slot then 1000 * (slotOf s slot).allowance else 0

/-- The next authentication in the order of R221, each a step under R16; a step that does not fit is passed over, and so is a token
revoked since its answer (R135). -/
def nextAuthFrom (missed : Bool) : List Ans → State → State
  | [], s => afterAuths missed s
  | a :: rest, s =>
    match s.path with
    | none => s
    | some p =>
      if p.auths.length ≥ 8 then afterAuths missed s else
      match a.plugin with
      | some slot =>
        let us := stepAllowance s slot
        if us = 0 then nextAuthFrom missed rest s
        else if !fits s p (us + tailUs s p) then nextAuthFrom true rest s
        else
          let s := s.onPath (fun p => { p with step := .plugin, cur := some a, todo := rest, authTried := true, stepEnd := now s + us })
          let s := s.onExt (fun e => { e with step := some (slot, a.serial, a.idx, now s + us) })
          let (ok, s) := queueInvoc { slot := slot, event := 4, body := le16 a.serial ++ le16 a.idx ++ le48 (tide s + us) } s
          if ok || s.ext.queue.length < 16 then s else
          let s := countTrouble slot true s
          nextAuthFrom missed rest (emit evTokenAuthFail 1 (le16 a.idx ++ [2]) ((s.onExt (fun e => { e with step := none })).onPath (fun p =>
            { p with cur := none })))
      | none =>
        if (tokenRec s a.idx).isNone then nextAuthFrom missed rest (s.onPath (fun p => { p with tokenGone := true }))
        else if (tokenKey s a.idx).isNone then nextAuthFrom missed rest (s.onPath (fun p => { p with authTried := true }))
        else if !fits s p (5000 + tailUs s p) then nextAuthFrom true rest s
        else sendChallenge (s.onPath (fun p => { p with cur := some a, todo := rest, authTried := true }))
/-- Goes on to the next authentication. -/
def nextAuth (s : State) : State :=
  match s.path with
  | none => s
  | some p => if p.ended then s else nextAuthFrom false p.todo ((rxClose s).onPath (fun p => { p with cur := none }))
/-- The token being authenticated has been revoked, or its key is gone: the path goes on to the next (R135, R230). -/
def authGone (a : Ans) (s : State) : State :=
  nextAuth (if (tokenRec s a.idx).isNone then s.onPath (fun p => { p with tokenGone := true }) else s)
/-- The order of R221: answers that met the LF condition first, then slot order, earlier polls first. -/
def authOrder (l : List Ans) : List Ans :=
  let key := fun (a : Ans) => (if a.lfMet then 0 else 32) + 4 * a.slot + a.poll
  (List.range 64).flatMap (fun k => l.filter (fun a => key a == k))
/-- Authentication begins. -/
def beginAuths (s : State) : State :=
  match s.path with
  | none => s
  | some p =>
    let s := rxClose s
    if p.answers.isEmpty then denyPath 1 s
    else nextAuth (mirrorPath 1 (s.onPath (fun p => { p with todo := authOrder p.answers })))

/-! ### Window ends (R211 to R213) -/

/-- A REPOLL, its window and what remains end by the deadline (R16, R17). -/
def repollFits (s : State) (p : Path) : Bool := fits s p (repollUs s + 5000 + tailUs s p)
/-- REPOLL goes out (R213). Its window follows 0.5 ms after its end (R209); while it is out, or not sent, `windowAt` is 0. -/
def transmitRepoll (s : State) : State :=
  match s.path with
  | none => s
  | some p =>
    let (st, s) := pathTx (twFrame (byte (0x20 + p.poll) :: p.nDev)) s
    if st = stRegulatory then denyPath 7 s else s
/-- Sends REPOLL with a fresh nonce (R213); without a seed the step waits. -/
def sendRepoll (s : State) : State :=
  match draw .challenge 4 s with
  | (none, s) => (rngDenies s).getD (s.onPath (fun p => { p with step := .guard, windowAt := 0 }))
  | (some nDev, s) =>
    transmitRepoll (s.onPath (fun p => { p with
      retries := p.retries + 1, poll := p.retries + 1, nDev := nDev, freq := freqOf s nDev, step := .guard, windowAt := 0, slot := 0,
      collided := false, slotAns := false }))
/-- A window's end (R213, R17): a collision is reported with the retry it causes; one that does not fit ends the path. -/
def windowEnd (s : State) : State :=
  match s.path with
  | none => s
  | some p =>
    let s := rxClose s
    if !p.collided then beginAuths s else
    let ok := p.retries < 3 && repollFits s p
    let s := emit evTokenCollision 0 [byte (if ok then p.retries + 1 else 0)] s
    if ok then sendRepoll s
    else if p.retries < 3 then deadlinePath s
    else beginAuths s
/-- A path's transmission is out, or waits. -/
def pathFrameOut (s : State) : Bool := (s.rad.tx.toList ++ s.rad.waits).any (fun t => t.prec = 1 && t.plugin.isNone && t.probe.isNone)
/-- A REPOLL that was refused or aborted by coexistence, or met a ride-through, is sent again, under R16 (R303). -/
def resendRepoll (s : State) : State :=
  match s.path with
  | some p =>
    if p.ended || p.step ≠ .guard || p.windowAt ≠ 0 || p.poll = 0 || pathFrameOut s || riding s ||
      s.rng.waiting.any (fun w => w.1 = .challenge) then s
    else if !repollFits s p then deadlinePath s
    else transmitRepoll s
  | none => s
/-- A path step that waited for random numbers goes on once they are there, under R16. -/
def resumePath (s : State) : State :=
  match s.path with
  | none => s
  | some p =>
    if p.ended then s
    else if p.step = .challenge && p.cDev.isEmpty then
      (match p.cur with
       | some a => if (tokenKey s a.idx).isNone then authGone a s
           else if fits s p (5000 + tailUs s p) then sendChallenge s else nextAuth s
       | none => s)
    else if p.step = .guard && p.windowAt = 0 && s.rng.waiting.any (fun w => w.1 = .challenge) then
      (if repollFits s p then sendRepoll s else deadlinePath s)
    else s

/-! ### After authentication (R201, R224, R225) -/

/-- A token's record is to hold a higher version: a class 3 write, applied at once from SRAM (R201). -/
def raiseVersion (idx ver : Nat) (s : State) : State :=
  match tokenRec s idx with
  | none => s
  | some b =>
    if ver ≤ tokVersion s idx then s else
    let s := { s with raised := (idx, ver) :: s.raised.filter (fun r => r.1 ≠ idx) }
    queueJob { cls := 3, items := [.record 0x0030 idx (b.set 2 (byte ver))] } s

/-- The rolling counter's commit is queued (R225, R379), with the authentication it belongs to. -/
def commitCounter (idx value authSeq : Nat) (far : Bool) (s : State) : State :=
  let s := { s with awaited := s.awaited.filter (fun a => !(a.1 == idx && a.2.1 == value)) ++ [(idx, value, authSeq, far)] }
  askCommit idx value (queueJob { cls := 1, items := [.ctr idx value], after := .pathCounter idx value } s)

/-- Authentication completes (R219 step 5, R425): recorded, the token is located with its newest key (R227) and its record's version raised
(R201). The commit and ranging begin together (R15), when they and the release still fit (R16). -/
def authenticated (a : Ans) (kS : Option Bytes) (proofNs : Int) (ver slotByte : Nat) (s : State) : State :=
  match s.path with
  | none => s
  | some p =>
    let s := emitX evTokenAuth 0 (le16 a.idx ++ le32 a.counter ++ [byte slotByte, byte ver]) { tag := pathTag p } s
    let seq := lastSeq s 6
    let s := { s with lastAuth := (a.idx, tide s) :: s.lastAuth.filter (fun x => x.1 ≠ a.idx) }
    let s := joinLocated a.idx p.req.trigger kS
      (if p.req.kind = .transponder then none else some (p.plan, now s, a.strengths, a.pre, marksFor a.version p.windows)) (raiseVersion a.idx ver s)
    if !fits s p (tailUs s p) then deadlinePath s else
    let resync := a.counter > tokCounter s a.idx + param s 0x0406
    let none_ := p.noUwb || kS.isNone
    let auth : Auth := { ans := a, kS := kS.getD [], proofNs := proofNs, resync := resync, ranged := none_, noRange := none_, authSeq := seq }
    let s := mirrorPath 2 (s.onPath (fun p => { p with auths := p.auths ++ [auth], cur := none }))
    let s := commitCounter a.idx a.counter seq resync s
    if none_ then s else s.onUwb (fun u => { u with due := u.due.filter (fun d => d.1 ≠ a.idx) ++ [(a.idx, false)] })

/-- An old counter from a genuine key is logged (R224, Table 21-6). -/
def logOldCounter (idx got stored : Nat) (s : State) : State :=
  logOnly 0xFF03 (le16 idx ++ le32 got ++ le32 stored) s

/-! ### The located view of an authenticated token, and the decision (R194, R249, R259) -/

/-- The token as the zone engine sees it in this path: its entry of the located set, or this path's report alone. -/
def authLocated (s : State) (p : Path) (a : Auth) : Located :=
  match locatedOf s a.ans.idx with
  | some l => l
  | none => { idx := a.ans.idx, trigger := p.req.trigger, reports := [(p.plan, now s, a.ans.strengths, a.ans.pre, marksFor a.ans.version p.windows)] }

/-- The highest strength code on a confined synthesised tone of a token's last report (R222). -/
def confinedCode (l : Located) : Nat :=
  match l.reports.getLast? with
  | some (_, _, codes, _, marks) => (((marks.drop 1).zip codes).filter (fun x => x.1.group.isSome && x.1.confined)).foldl (fun m x => max m x.2) 0
  | none => 0
/-- The choice of R222: priority, confined strength, lowest index. -/
def pickDriver (l : List (Nat × Nat × Nat)) : Nat :=
  match l with
  | [] => 0xFFFF
  | c :: r => (r.foldl (fun b x =>
      if x.2.1 > b.2.1 || (x.2.1 = b.2.1 && (x.2.2 > b.2.2 || (x.2.2 = b.2.2 && x.1 < b.1))) then x else b) c).1

/-- What the decision finds for one token: the zones of the path it meets, the reasons against it, and its failed relay rules. -/
structure Finding where
  auth : Auth := {}
  met : List Nat := []
  reasons : List Nat := []
  relay : List (Nat × Nat × Nat) := []
  mask : Nat := 0

/-- A token's finding; one that found no room in the located set meets no zone (R197). -/
def findToken (s : State) (p : Path) (a : Auth) : Finding :=
  if a.committed ≠ some true then { auth := a, reasons := [3] }
  else if a.revoked || (tokenRec s a.ans.idx).isNone then { auth := a, reasons := [13] }
  else
    let zs := pathZones s p.req.kind p.req.doors
    let startLike := p.req.kind = .start || p.req.kind = .attribution
    let lenient := p.noUwb && p.req.kind = .access && param s 0x0516 = 1 && !p.foreign
    let mask := if a.resync || (locatedOf s a.ans.idx).isNone then 0 else zoneMask s (authLocated s p a) lenient false
    let met := zs.filter (fun z => bitSet mask z)
    let r4 := if met.isEmpty then [4] else []
    if p.req.kind = .locate then { auth := a, met := met, mask := mask }
    else if p.noUwb && (startLike || p.foreign || param s 0x0516 ≠ 1) then { auth := a, reasons := r4 ++ [8], mask := mask }
    else
      let ports := portSet s p.req.kind p.req.doors
      let fails := fun (z : Option Nat) => relayFails s a p.windows ports z p.noUwb
      let good := met.filter (fun z => (fails (some z)).isEmpty)
      if !good.isEmpty then { auth := a, met := good, mask := mask }
      else
        let f := fails (match met, zs with | z :: _, _ => some z | [], z :: _ => some z | [], [] => none)
        { auth := a, met := if f.isEmpty then met else [], reasons := r4 ++ (if f.isEmpty then [] else [5]), relay := f, mask := mask }

/-- The checks before signalling a door (R272, R273, R51, R488): the lowest reason against it (R284). A door is signalled on the channels that
are in order; it is refused when none is (DEDUCED, log 31), and for want of a key or a freshness value that a channel in order, or its CAN
channel, needs. -/
def doorBlocked (s : State) (d : Nat) : Option Nat :=
  match doorRec s d with
  | none => some 4
  | some r =>
    let ch := u8 r 4
    let can := bitSet ch 0 && canUp s (u8 r 5)
    let lin := bitSet ch 1 && s.pwr.vbatFull && (s.bus.bus.getD (1 + u8 r 6) {}).state = 1 && !busFaulted s (1 + u8 r 6) &&
      !(linNode s (u8 r 6) (u8 r 7)).silent
    let down := !can && !lin && !bitSet ch 2
    let signed_ := if down then bitSet ch 0 || (bitSet ch 1 && param s 0x0E16 ≥ 2) else can || (lin && param s 0x0E16 ≥ 2)
    if signed_ && (!haveFresh s || (relKey 4 s).isNone) then some 10
    else if down then some 12
    else none
/-- The checks before a start permission (R269, R272, R273). -/
def startBlocked (s : State) : List Nat :=
  (if s.rel.diagA.1 ≠ 0 && !(s.rel.diagA.1 = 8 && s.rel.diagA.2) then [9] else []) ++
  (if param s 0x0606 ≠ 0 && (!haveFresh s || (relKey 3 s).isNone) then [10] else []) ++
  (if (param s 0x0606 ≠ 0 && !canUp s (param s 0x0606)) || !s.pwr.vrelValid then [12] else [])

/-- The lowest of several reasons. -/
def lowest (l : List Nat) : Nat := l.foldl min 255

/-- The keys that a path's release signals are made with, as it begins (R344). -/
def takeRelKeys (s : State) : State := s.onRel (fun r => { r with pathKeys := (vaultKey s 3, vaultKey s 4) })
/-- Commit and ranging are over for every authenticated token (R15). -/
def pathSettled (p : Path) : Bool :=
  p.step = .commitRange && p.todo.isEmpty && p.cur.isNone && p.auths.all (fun a => a.committed.isSome && a.ranged)

/-- An attribution poll is asked for when the window closed early (R223). -/
def askAttribution (p : Path) (s : State) : State :=
  if p.early && param s 0x0407 = 1 then
    (pushPath { kind := .attribution, trigger := p.req.trigger, at_ := now s } s).2
  else s

/-- The path ends with a release and its session. -/
def releasePath (session : Nat) (s : State) : State :=
  (closePath 0 (some 0) s).onPath (fun p => { p with session := some session })

/-- The grants of an access decision. -/
def decideAccess (p : Path) (fs : List Finding) (s : State) : State :=
  let doorsOf := fun (f : Finding) => (bitsOf 16 p.req.doors).filter (fun d =>
    match doorRec s d with
    | some r => f.met.any (fun z => bitSet (u32 r 0) z)
    | none => false)
  let wanted := fs.flatMap doorsOf
  let blocked := (if wanted.isEmpty then bitsOf 16 p.req.doors else wanted).filterMap (doorBlocked s)
  let ok := fs.filterMap (fun f =>
    let ds := (doorsOf f).filter (fun d => (doorBlocked s d).isNone)
    if ds.isEmpty then none else some (f, ds))
  if ok.isEmpty then denyPath (lowest (fs.flatMap (·.reasons) ++ blocked)) s
  else
    let (ids, s) := ok.foldl (fun (acc : List Nat × State) (fd : Finding × List Nat) =>
      let (ids, s) := grantAccess fd.1.auth.ans.idx fd.2 (6, fd.1.auth.authSeq) fd.1.auth.commitSeq (pathTag p) acc.2
      (acc.1 ++ ids, s)) ([], s)
    releasePath (ids.headD 0xFFFF) s

/-- The candidates of R222 among findings. -/
def driverCands (s : State) (p : Path) (fs : List Finding) : List (Nat × Nat × Nat) :=
  (fs.filter (fun f => !f.met.isEmpty)).map (fun f =>
    (f.auth.ans.idx, u8 ((tokenRec s f.auth.ans.idx).getD []) 0, confinedCode (authLocated s p f.auth)))

/-- The grant of a start decision. -/
def decideStart (p : Path) (fs : List Finding) (s : State) : State :=
  let cands := driverCands s p fs
  let blocked := startBlocked s
  if cands.isEmpty || !blocked.isEmpty then denyPath (lowest (fs.flatMap (·.reasons) ++ blocked)) s
  else
    let d := pickDriver cands
    let seq := ((fs.find? (fun f => f.auth.ans.idx == d)).map (fun f => f.auth.authSeq)).getD 0
    let s := grantStart cands pickDriver false (6, seq) (pathTag p) s
    releasePath ((s.rel.start.map (·.id)).getD 0xFFFF) (askAttribution p s)

/-- The attribution poll's decision (R223): among the tokens of both paths, each with its last report, another driver raises the permit
again. -/
def decideAttribution (p : Path) (fs : List Finding) (s : State) : State :=
  let s := closePath 0 (some 0) s
  match s.rel.start with
  | none => s
  | some st =>
    let new := driverCands s p fs
    let all := new ++ st.cands.filter (fun c => !new.any (fun x => x.1 == c.1))
    let d := pickDriver all
    let s := s.onRel (fun r => { r with start := some { st with cands := all, driver := if all.isEmpty || st.transponder then st.driver else d } })
    if all.isEmpty || st.transponder || d = st.driver then s
    else emitX evStartPermit 0 (le16 st.id ++ le16 d) { ref := (6, ((fs.find? (fun f => f.auth.ans.idx == d)).map (fun f => f.auth.authSeq)).getD 0) } s

/-- The masks of a path's decision (R194, R195): every located token strictly, the path's own as found; a revoked token leaves (R135). -/
def pathMasks (fs : List Finding) (s : State) : State :=
  let s := (s.zon.located.filter (fun l => (tokenRec s l.idx).isNone)).foldl (fun s l => leaveLocated l.idx s) s
  s.zon.located.foldl (fun s l => setMask l.idx (match fs.find? (fun f => f.auth.ans.idx == l.idx && f.auth.committed = some true) with
    | some f => f.mask
    | none => zoneMask s l false false) s) s
/-- The decision of a path (R194, R249, R251, R284); UWB lost while it ran leaves it to the policy of Table 10-9 (R254). -/
def decidePath (s : State) : State :=
  match s.path with
  | none => s
  | some p =>
    let s := (boundaryM .decision s).onZon (fun z => { z with lastDecision := now s })
    let p := { p with noUwb := p.noUwb || uwbGone s (portSet s p.req.kind p.req.doors) }
    let fs := p.auths.map (findToken s p)
    let s := mirrorLocated (pathMasks fs s)
    let s := fs.foldl (fun s f => f.relay.foldl (fun s r =>
      emitX evRelaySuspect 1 (byte r.1 :: le32 r.2.1 ++ le32 r.2.2) { ref := (6, f.auth.authSeq) } s) s) s
    match p.req.kind with
    | .access => decideAccess p fs s
    | .start => decideStart p fs s
    | .attribution => decideAttribution p fs s
    | _ => closePath 1 none s

/-! ### The transponder path (R279 to R283) -/

/-- The transponder's grant once its counter has committed (R264, R281). -/
def transponderGrant (s : State) : State :=
  match s.path with
  | none => s
  | some p =>
    let idx := p.tpIdx.getD 0xFFFF
    if (tokenRec s idx).isNone then denyPath 13 s else
    let a := p.auths.head?.getD {}
    if a.resync then denyPath 4 s else
    if !fits s p (1000 + signalUs s p) then deadlinePath s else
    let blocked := startBlocked s
    if !blocked.isEmpty then denyPath (lowest blocked) s
    else
      let s := grantStart [(idx, u8 ((tokenRec s idx).getD []) 0, 0)] pickDriver true (6, a.authSeq) (pathTag p) s
      releasePath ((s.rel.start.map (·.id)).getD 0xFFFF) s

/-- A path counter's write has committed, or has been deferred (R14, R225): `EV_COUNTER_COMMITTED`, then `EV_TOKEN_RESYNC` (R224), whether
the path still runs or not. -/
def counterDone (idx value : Nat) (ok both : Bool) (s : State) : State :=
  let mine := s.awaited.find? (fun a => a.1 == idx && a.2.1 == value)
  let ref := match mine with | some a => (6, a.2.2.1) | none => (0, 0)
  let s := if ok then emitX evCounterCommitted 0 (le16 idx ++ le32 value ++ [if both then 2 else 1]) { ref := ref } s else s
  let seq := lastSeq s 0x0E
  let far : Bool := match mine with | some a => a.2.2.2 | none => false
  let s := if ok && far then emitX evTokenResync 0 (le16 idx ++ le32 value) { ref := (0x0E, seq) } s else s
  let s := { s with awaited := s.awaited.filter (fun a => !(a.1 == idx && a.2.1 == value)) }
  match s.path with
  | none => s
  | some p =>
    if !p.auths.any (fun a => a.ans.idx == idx && a.ans.counter == value) then s else
    let s := s.onPath (fun p => { p with auths := p.auths.map (fun a =>
      if a.ans.idx = idx then { a with committed := some ok, commitSeq := seq } else a) })
    let s := if ok then mirrorPath 3 s else s
    if p.req.kind = .transponder && !p.ended then (if ok then transponderGrant s else denyPath 3 s) else s

/-! ### Ends of transmissions -/

/-- A plug-in's frame is over: its buffer is free and its slot hears of it (R426, Table 19-3). -/
def transmitDone (buffer result : Nat) (s : State) : State :=
  match s.ext.txUsed.find? (fun b => b.2 == buffer) with
  | none => s
  | some b =>
    let s := s.onExt (fun e => { e with txUsed := e.txUsed.filter (fun x => x.2 ≠ buffer) })
    (queueInvoc { slot := b.1, event := 5, body := [byte buffer, byte result] } s).2

/-- What follows a transmission's end (R303, Table 12-9): the completion of its command, its plug-in's event, and for a path frame
the denial, the REPOLL that waits for the grant, or the window and the PROOF that its end starts (R209, R219). -/
def txEnded (t : Tx) (status : Nat) (s : State) : State :=
  let s := cmdDoneO t.ref status [] s
  let s := match t.plugin with
    | some b => transmitDone b (if status = stOk then 0 else if status = stRegulatory then 1 else 3) s
    | none => s
  if t.prec ≠ 1 || t.plugin.isSome then s
  else if status = stRegulatory then denyPath 7 s
  else match s.path with
    | some p =>
      if p.ended then s
      else if p.step = .challenge then
        (if status = stOk then
          match rxOpen p.freq 1 s with
          | (true, s) => s.onPath (fun p => { p with stepEnd := now s + 300 + twAirUs s 18 + 200 })
          | (false, s) => denyPath 7 s
         else s.onPath (fun p => { p with stepEnd := now s }))
      else if p.step = .guard && p.poll ≠ 0 && status = stOk then s.onPath (fun p => { p with windowAt := now s + 500 })
      else s
    | none => s

/-- The internal requests that wait for the radio are made again, in their order of precedence (Table 12-5). -/
def serveTx (s : State) : State :=
  (List.range s.rad.waits.length).foldl (fun s _ =>
    match [1, 2, 3, 4].findSome? (fun k => s.rad.waits.find? (fun t => t.prec == k)) with
    | none => s
    | some t =>
      if s.rad.tx.isSome || ((t.prec ≠ 1 || t.plugin.isSome) && windowOpen s) then s else
      let (st, s) := txRequest t (s.onRad (fun r => { r with waits := r.waits.erase t }))
      if st = stOk || st = stAccepted then s else txEnded t st s) s
/-- A transmission that waits for the grant goes on; one whose channel is no longer allowed is refused (R294, R301). -/
def txResume (s : State) : State :=
  match s.rad.tx with
  | none => s
  | some t => if allowed s t.chan then txGo s
      else serveTx (txEnded t stRegulatory (endTx (s.onRad (fun r => { r with lastTx := stRegulatory }))))
/-- A transmission that waits for its calibration or the grant is refused once its channel is no longer allowed (R291); with coexistence
off it waits for no grant (R313). -/
def txRecheck (s : State) : State :=
  match s.rad.tx with
  | some t => if !t.radiating && t.waiting && (!allowed s t.chan || (param s 0x0704 = 0 && !s.rad.run.any (·.mandatory) && !riding s)) then txResume s else s
  | none => s
/-- A transmission that a loss of VBAT cut is made again under the checks of R301 (R71). -/
def txAgain (s : State) : State :=
  match s.rad.tx with
  | some t =>
    if t.radiating || s.rad.run.any (·.mandatory) then s else
    let (st, s) := txAfterCal s
    if st = stOk then s else serveTx (txEnded t st s)
  | none => s

end Sys2Proof.Machine
end

