-- ==== Sys2Proof/Machine/SlotOps.lean ====
section
/-! DEFINITION. Loading, unloading and suspending plug-ins (R417, R418, R422, R428) and what that does to a path step. -/

namespace Sys2Proof.Machine
open Sys2Proof

/-- The step a slot holds ends without a verdict (R424, Table 19-9): stage 2, then the next authentication. -/
def stepFails (s : State) : State :=
  match s.ext.step with
  | none => s
  | some (_, _, idx, _) =>
    let s := s.onExt (fun e => { e with step := none })
    match s.path with
    | some p => if p.step = .plugin && !p.ended then nextAuth (emit evTokenAuthFail 1 (le16 idx ++ [2]) s) else s
    | none => s
/-- The slot holds a step. -/
def holdsStep (s : State) (i : Nat) : Bool := match s.ext.step with | some x => x.1 == i | none => false
/-- A trap or overrun is counted (R422); the token whose step the slot holds has no Tideway record and is denied (R31, Table 19-9). -/
def trouble (i : Nat) (overrun : Bool) (s : State) : State :=
  let s := countTrouble i overrun s
  if holdsStep s i then stepFails s else s

/-- A size rounded up to 1 KiB. -/
def round1k (n : Nat) : Nat := (n + 1023) / 1024 * 1024
/-- A slot's footprint (R417). -/
def footprint (x : Slot) : Nat := if x.state = 0 then 0 else round1k x.codeSize + round1k x.dataSize
/-- The slots packed from address 0 in their order (R417). -/
def packSlots : Nat → List Slot → List Slot
  | _, [] => []
  | at_, x :: r =>
    if x.state = 0 then x :: packSlots at_ r
    else { x with codeBase := at_, dataBase := at_ + round1k x.codeSize } :: packSlots (at_ + footprint x) r
/-- Places every loaded image, the new one with its initialised and zeroed data, the others with the data they hold. -/
def relayout (new : Nat) (s : State) : State :=
  let old := s.ext.slots
  let packed := packSlots 0 old
  let put := fun (m : List Host.Cell) (x : Slot × Nat) =>
    if x.1.state = 0 then m else
    let data := if x.2 = new then padTo x.1.dataSize (x.1.image.drop x.1.codeSize)
      else memReadN s.xc.mem (old.getD x.2 {}).dataBase x.1.dataSize
    memPut (memPut m x.1.codeBase (x.1.image.take x.1.codeSize)) x.1.dataBase data
  onExtMem (fun m => packed.zipIdx.foldl put (memClear m 0 0x18000)) (s.onExt (fun e => { e with slots := packed }))

/-- A slot is emptied (R418): its timers reset, its volatile keys go, its queued invocations and their buffers too. -/
def unloadSlot (i : Nat) (s : State) : State :=
  let x := slotOf s i
  let s := { s with timers := s.timers.zipIdx.map (fun (t, n) => if n ≥ 16 && bitSet x.timers (n - 16) then {} else t) }
  let gone := s.ext.queue.filter (fun v => v.slot == i)
  let s := s.onExt (fun e => { e with queue := e.queue.filter (fun v => v.slot ≠ i),
                                      rxUsed := e.rxUsed.filter (fun k => !gone.any (fun v => v.buffer == some k)) })
  let s := if holdsStep s i then stepFails (onSlot i (fun _ => {}) s) else s
  onSlot i (fun _ => {}) s

/-- A load or an unload takes effect (R417): the image placed, `EV_EXT_LOADED`, the Loaded event and the family counter's write. -/
def applySlot (i : Nat) (x : Slot) (ref : Option CmdRef) (s : State) : State :=
  let s := unloadSlot i s
  if x.state = 0 then cmdDoneO ref stOk [] (relayout 4 s) else
  let s := relayout i (onSlot i (fun _ => x) s)
  let s := emitT (ref.map (·.tag)) evExtLoaded 0 (byte i :: le32 x.version) s
  let s := if x.seq > (ctrValue s (0x0210 + x.family)).getD 0 then
      queueJob { cls := 3, items := [.ctr (0x0210 + x.family) x.seq], after := .family x.family } s else s
  cmdDoneO ref stOk [] (queueInvoc { slot := i, event := 1 } s).2
/-- The slot runs. -/
def slotRuns (s : State) (i : Nat) : Bool := match s.ext.cur with | some v => v.slot == i | none => false
/-- A load or unload, put off while the slot runs (Table 19-9). -/
def changeSlot (i : Nat) (x : Slot) (ref : Option CmdRef) (s : State) : State :=
  if slotRuns s i then s.onExt (fun e => { e with pendLoad := e.pendLoad ++ [(i, x, ref)] }) else applySlot i x ref s
/-- The loads and unloads that waited. -/
def applyPending (s : State) : State :=
  let l := s.ext.pendLoad
  l.foldl (fun s (i, x, r) => applySlot i x r s) (s.onExt (fun e => { e with pendLoad := [] }))

/-- The extension core stops (Table 19-9): requests and queue are discarded, volatile keys are erased. -/
def stopExtCore (s : State) : State :=
  let s := eraseVol { s with xc := { s.xc with stopped := true, idle := false } }
  applyPending (s.onExt (fun e => { e with queue := [], cur := none, requests := [], step := none, rxUsed := [], txUsed := [], aesBusy := false, aesOut := none }))

end Sys2Proof.Machine
end

