-- ==== Sys2Proof/Machine/Timers.lean ====
section
/-! DEFINITION. The Tidemark timers (17_tidemark_timers): arming, matching, capturing and their registers. -/

namespace Sys2Proof.Machine
open Sys2Proof

/-- Timer `n`. -/
def timer (s : State) (n : Nat) : Timer := s.timers.getD n {}
/-- Changes timer `n`; a number above 23 names no timer. -/
def onTimer (n : Nat) (f : Timer → Timer) (s : State) : State := { s with timers := modAt s.timers n f }

/-- `ARM`: COUNT from LOAD, then counting (Table 17-2). -/
def Timer.arm (t : Timer) : Timer := { t with count := t.load, run := true }
/-- A match fires (R395, R396): MATCH set, the count stays at COMPARE and the timer stops. -/
def Timer.fire (t : Timer) : Timer :=
  { t with count := t.compare, run := false, matched := true, ended := t.ended || t.compare = 0xFFFFFFFF }
/-- A capture (R398): a value not yet read is overwritten with OVR, unless it is read in the same clock. -/
def Timer.take (same : Bool) (t : Timer) : Timer :=
  { t with capture := t.count, cap := true, ovr := t.ovr || (t.cap && !same) }

/-- The timer a `LINK` target names within its owner's set (Table 17-5). -/
def linkTarget (n : Nat) (t : Timer) : Nat :=
  if n < 16 then t.link.toNat % 16 else 16 + t.link.toNat % 8
/-- The `LINK` action field. -/
def linkAction (t : Timer) : Nat := t.link.toNat / 16 % 4

/-- A timer's link action (R395, R397): reset changes the target's count, arm restarts the target. -/
def applyLink (n : Nat) (s : State) : State :=
  let t := timer s n
  match linkAction t with
  | 1 => onTimer (linkTarget n t) (fun x => { x with count := x.load }) s
  | 2 => onTimer (linkTarget n t) Timer.arm s
  | _ => s

/-- Timers of the same owner that capture the match of their own link target (Table 17-6 source 13). -/
def captureMatch (n : Nat) (s : State) : State :=
  { s with timers := s.timers.zipIdx.map (fun (t, k) =>
      if (k < 16) == (n < 16) && t.ctrl.toNat / 256 % 16 = 13 && linkTarget k t = n then t.take false else t) }

/-- The match of timer `n` with everything it brings about. -/
def matchTimer (n : Nat) (s : State) : State := timerEvent n (applyLink n (captureMatch n (onTimer n Timer.fire s)))

/-- Microseconds until a running timer has counted `ticks` more of its clock: whole base ticks, a CORE remainder dropped (log 1). -/
def usOfTicks (s : State) (t : Timer) (ticks : Nat) : Nat :=
  match t.ctrl.toNat / 4 % 4 with
  | 0 => ticks / 200
  | 1 => ticks
  | _ => ((slowEdges s (now s) + ticks) * s.clk.slowPeriod + 65535) / 65536 - now s

/-- A write of `STATUS` (Table 17-4): W1C bits. A write in the same clock as a match, an end or a capture is that command's
`w1c`: the bits are cleared first, so what hardware sets stands (R5). -/
def writeStatus (v : Word) (t : Timer) : Timer :=
  { t with matched := t.matched && !v.getLsbD 1, ended := t.ended && !v.getLsbD 2, ovr := t.ovr && !v.getLsbD 4,
           late := t.late && !v.getLsbD 5, werr := t.werr && !v.getLsbD 6 }

/-- TIMER_ARM (Table 17-2). -/
def execTimerArm (n : Nat) (s : State) : Out := next (if coreClock s then onTimer n Timer.arm s else s)
/-- TIMER_STOP (Table 17-2): RUN cleared, COUNT holds. -/
def execTimerStop (n : Nat) (s : State) : Out := next (if coreClock s then onTimer n (fun t => { t with run := false }) s else s)
/-- TIMER_COMPARE_WRITE (R393, R396): live; what the comparison then gives is a match of its own. -/
def execTimerCompareWrite (n : Nat) (value : Word) (s : State) : Out :=
  next (if coreClock s then onTimer n (fun t => { t with compare := value }) s else s)
/-- TIMER_CAPTURE_READ (R398): a read clears CAP. -/
def execTimerCaptureRead (n : Nat) (s : State) : Out :=
  next (if coreClock s then onTimer n (fun t => { t with cap := false }) s else s)

/-- A write of `CTRL` (Table 17-2, R393): frozen or reserved fields stay and set WERR, ARM then STOP act. -/
def writeCtrl (n : Nat) (v : Word) (t : Timer) : Timer :=
  let old := t.ctrl.toNat
  let w := v.toNat
  let fld := fun (x sh wd : Nat) => x / 2 ^ sh % 2 ^ wd
  let keep := fun (sh wd : Nat) (frozen reserved : Bool) =>
    let a := fld old sh wd
    let b := fld w sh wd
    if b = a then (a, false) else if (frozen && t.run) || reserved then (a, true) else (b, false)
  let clk := keep 2 2 true (fld w 2 2 = 3)
  let sel := keep 8 4 true false
  let edge := keep 12 2 true (fld w 12 2 = 3)
  let wake := if n < 16 then fld w 6 1 else 0
  let ctrl := clk.1 * 4 + fld w 4 2 * 16 + wake * 64 + fld w 7 1 * 128 + sel.1 * 256 + edge.1 * 4096
  let t := { t with ctrl := BitVec.ofNat 32 ctrl, werr := t.werr || clk.2 || sel.2 || edge.2 }
  let t := if v.getLsbD 0 then t.arm else t
  if v.getLsbD 1 then { t with run := false } else t

/-- A software write of timer `k`'s `CTRL` in the clock of a match (Table 17-7): frozen fields are judged by RUN as it was in `s0`, and ARM
or STOP act after the match and its action. -/
def sameClockCtrl (ctl : Option (Nat × Word)) (s0 s : State) : State :=
  match ctl with
  | none => s
  | some (k, v) => onTimer k (fun t =>
      let w := writeCtrl k v { t with run := (timer s0 k).run }
      { w with run := if v.getLsbD 1 then false else v.getLsbD 0 || t.run }) s
/-- TIMER_END (R396): a count that COMPARE no longer meets reaches 0xFFFF_FFFF and stops with END; `w1c` is written to STATUS in the
same clock (R5). -/
def execTimerEnd (n : Nat) (w1c : Word) (s : State) : Out :=
  let t := timer s n
  if t.run && t.compare.toNat < t.count.toNat && !timerFrozen s n t && coreClock s then
    let s := passUs (usOfTicks s t (0xFFFFFFFF - t.count.toNat)) s
    next (onTimer n (fun t => { writeStatus w1c t with count := 0xFFFFFFFF, run := false, ended := true }) s)
  else next s

/-- TIMER_CAPTURE (R398): the timer's capture source gives an edge; source 0 and the reserved codes capture nothing. `w1c` is
written to STATUS in the same clock (R5). -/
def execTimerCapture (n : Nat) (sameClockRead : Bool) (w1c : Word) (s : State) : Out :=
  let c := (timer s n).ctrl.toNat / 256 % 16
  if c = 0 || c ≥ 14 || (c = 11 && n < 16) || !coreClock s then next s
  else next (onTimer n (fun t => (writeStatus w1c t).take sameClockRead) s)

/-- A write of `LINK` (Table 17-5): a reserved action leaves the field and sets WERR. -/
def writeLink (n : Nat) (v : Word) (t : Timer) : Timer :=
  let target := if n < 16 then v.toNat % 16 else v.toNat % 8
  let a := v.toNat / 16 % 4
  if a = 3 then { t with link := BitVec.ofNat 32 (target + 16 * linkAction t), werr := true }
  else { t with link := BitVec.ofNat 32 (target + 16 * a) }

/-- A write into a timer's block by its offset (Table 17-1); CAPTURE and the reserved word ignore writes (R7). -/
def writeTimerReg (n off : Nat) (v : Word) (t : Timer) : Timer :=
  match off with
  | 0x00 => writeCtrl n v t
  | 0x04 => if t.run then { t with werr := true } else { t with count := v }
  | 0x08 => { t with compare := v }
  | 0x10 => writeStatus v t
  | 0x14 => writeLink n v t
  | 0x18 => { t with load := v }
  | _ => t

/-- A read of a timer's block by its offset; ARM and STOP read 0. -/
def readTimerReg (off : Nat) (t : Timer) : Word :=
  match off with
  | 0x00 => t.ctrl
  | 0x04 => t.count
  | 0x08 => t.compare
  | 0x0C => t.capture
  | 0x10 => BitVec.ofNat 32 ((if t.run then 1 else 0) + (if t.matched then 2 else 0) + (if t.ended then 4 else 0) +
      (if t.cap then 8 else 0) + (if t.ovr then 16 else 0) + (if t.late then 32 else 0) + (if t.werr then 64 else 0))
  | 0x14 => t.link
  | 0x18 => t.load
  | _ => 0

/-- A timer's interrupt is pending (Table 17-2 MIE, CIE). -/
def Timer.irq (t : Timer) : Bool := (t.ctrl.getLsbD 4 && t.matched) || (t.ctrl.getLsbD 5 && t.cap)

/-- The SLOW edge at which a timer's match wakes the machine (R399): the earliest among running timers of T0 to T15 with WAKE. -/
def wakeEdgeOf (s : State) : Option Nat :=
  (s.timers.take 16).zipIdx.foldl (fun acc (t, n) =>
    if t.run && !timerFrozen s n t && t.ctrl.getLsbD 6 && t.count.toNat ≤ t.compare.toNat then
      let r := t.compare.toNat - t.count.toNat
      let p := max 1 s.clk.pBefore
      let w := match t.ctrl.toNat / 4 % 4 with
        | 0 => (r * 65536 + 200 * p - 1) / (200 * p)
        | 1 => (r * 65536 + p - 1) / p
        | _ => r
      match acc with
      | some a => some (min a w)
      | none => some w
    else acc) none

/-- One timer's compensation after Neap (R400): late match, end, or an advanced count. -/
def Timer.compensate (n : Nat) (t : Timer) : Timer :=
  if !t.run then t else
  let c := t.count.toNat
  if c < t.compare.toNat && t.compare.toNat ≤ c + n then { t.fire with late := true }
  else if c + n > 0xFFFFFFFF then { t with count := 0xFFFFFFFF, run := false, ended := true }
  else { t with count := BitVec.ofNat 32 (c + n) }

/-- The ticks of compensation of a timer's clock (R400). -/
def compensation (s : State) (edges baseAdvance : Nat) (t : Timer) : Nat :=
  match t.ctrl.toNat / 4 % 4 with
  | 0 => edges * s.clk.pBefore * 200 / 65536
  | 1 => baseAdvance
  | _ => edges

/-- All timers are compensated together by the SLOW edges and the base's advance of the stay in Neap, but for one its owner's halt
freezes (R401); late matches then act in timer order (R400). -/
def compensateTimers (edges baseAdvance : Nat) (s : State) : State :=
  let isLate := fun (n : Nat) (t : Timer) => t.run && !timerFrozen s n t && t.count.toNat < t.compare.toNat &&
    t.compare.toNat ≤ t.count.toNat + compensation s edges baseAdvance t
  let lateOnes := (List.range 24).filter (fun n => isLate n (timer s n))
  let s := { s with timers := s.timers.zipIdx.map (fun (t, n) =>
    if timerFrozen s n t then t else t.compensate (compensation s edges baseAdvance t)) }
  lateOnes.foldl (fun s n => timerEvent n (applyLink n (captureMatch n (emit evTimerLate 0 [byte n] s)))) s

end Sys2Proof.Machine
end

