-- ==== Sys2Proof/Machine/Operands.lean ====
section
/-! DEFINITION. Registers, immediates and memory of the two Auham cores (R403, R404, R408, R416): what an instruction reads and
writes, the extension core's map, and the device registers of Tables 17-1, 15-4 to 15-7 and 19-6 to 19-8. -/

namespace Sys2Proof.Machine
open Sys2Proof

/-! ### Registers -/

/-- A core. -/
def coreOf (s : State) (c : CoreId) : Core := match c with | .cc => s.cc | .ext => s.xc
/-- Changes a core. -/
def onCore (c : CoreId) (f : Core → Core) (s : State) : State :=
  match c with | .cc => { s with cc := f s.cc } | .ext => { s with xc := f s.xc }
/-- A general register; g0 reads 0 (R403). -/
def Core.get (k : Core) (r : Reg) : Word := if r = 0 then 0 else k.regs[r]
/-- Writes a general register; a write to g0 is discarded (R403). -/
def Core.put (k : Core) (r : Reg) (v : Word) : Core := if r = 0 then k else { k with regs := k.regs.set r v }
/-- A sign-extended immediate (R404). -/
def sx {n : Nat} (i : BitVec n) : Word := i.signExtend 32
/-- A zero-extended immediate. -/
def zx {n : Nat} (i : BitVec n) : Word := i.setWidth 32
/-- A word offset in bytes: counted from the instruction's own address (R404). -/
def wordOff {n : Nat} (i : BitVec n) : Word := sx i * 4

/-! ### The extension core's map (Table 19-1) -/

/-- The slot whose plug-in runs. -/
def runSlot (s : State) : Slot := match s.ext.cur with | some v => slotOf s v.slot | none => {}
/-- `n` bytes from an address lie in a range. -/
def within (a n lo len : Nat) : Bool := lo ≤ a && a + n ≤ lo + len
/-- Memory of regions 0 to 5 that an access reaches: 0 fetch, 1 load, 2 store. -/
def extMemOk (s : State) (kind a n : Nat) : Bool :=
  let x := runSlot s
  (within a n x.codeBase x.codeSize && kind ≠ 2) ||
  (kind ≠ 0 && (within a n x.dataBase x.dataSize || within a n 0x18000 0x8000 || within a n 0x21000 0x1000 ||
    within a n 0x40002000 0x80)) ||
  (kind = 1 && (within a n 0x20000 0x1000 || within a n 0x22000 0x40))

/-- The device register of region 6 at an address: a timer block only for its owner; reserved words of a block read 0 (R7, R391). -/
def extDevice (s : State) (a : Nat) : Option RegAddr :=
  let off := a % 0x1000 / 4 * 4
  match a / 0x1000 with
  | 0x40000 =>
    if off ≥ 0x100 then some (.timer 24 0)
    else if bitSet (runSlot s).timers (off / 0x20) then some (.timer (16 + off / 0x20) (off % 0x20)) else none
  | 0x40001 => if off < 0x100 then some (.rng .ext off) else none
  | 0x40003 => if off < 0x0C then some (.fx off) else none
  | 0x40004 => if off < 0x18 then some (.aes off) else none
  | 0x40005 => if off < 0x0C then some (.coreCtl off) else none
  | _ => none

/-! ### Frame exchange and AES port registers (Tables 19-6 to 19-8) -/

/-- A token's record is bound to a plug-in slot (Table 6-6: flag 2 and the slot). -/
def boundTo (b : Bytes) (slot : Nat) : Bool := bitSet (u8 b 1) 2 && u8 b 3 == slot
/-- `FX_LOOKUP_IDX`: the index of a learned token bound to the running slot, else 0xFFFF. -/
def fxIndex (s : State) (id : Nat) : Nat :=
  match s.ext.cur, tokenOf s id with
  | some v, some i => (match tokenRec s i with | some b => if boundTo b v.slot then i else 0xFFFF | none => 0xFFFF)
  | _, _ => 0xFFFF
/-- A write of `FX_LOOKUP_ID`; what `FX_LOOKUP_IDX` gives is looked up when it is read. -/
def fxWrite (id : Word) (s : State) : State := s.onExt (fun e => { e with fxId := id })

/-- What a key handle gives the running slot (R427): its key, or the error code. -/
def handleKey (s : State) (slot h : Nat) : Sum Nat Bytes :=
  if 0x30 ≤ h && h ≤ 0x3F then
    let v := s.sec.vault.getD h {}
    if v.key.isSome && v.bind ≠ slot then .inl 1 else (match vaultKey s h with | some k => .inr k | none => .inl 4)
  else if 0x1000 ≤ h && h ≤ 0x11FF then
    match tokenRec s (h - 0x1000) with
    | some b => if boundTo b slot then (match tokenKey s (h - 0x1000) with | some k => .inr k | none => .inl 4) else .inl 1
    | none => .inl 1
  else if 0x2000 ≤ h && h ≤ 0x2003 then
    match (slotOf s slot).vol.getD (h - 0x2000) none with | some k => .inr k | none => .inl 4
  else .inl 1

/-- Starts an AES operation (Table 19-7): checked in the order of the error codes, 1 handle, 2 address, 3 length, 4 key absent. A
start while the port is busy does nothing. -/
def aesStart (op dkey : Nat) (s : State) : State :=
  match s.ext.cur with
  | none => s
  | some v =>
    if s.ext.aesBusy || op = 0 || op > 4 then s else
    let e := s.ext
    let src := e.aesSrc.toNat
    let dst := e.aesDst.toNat
    let x := slotOf s v.slot
    let rw := fun (a n : Nat) => within a n x.dataBase x.dataSize || within a n 0x18000 0x8000 || within a n 0x21000 0x1000
    let srcOk := rw src e.aesLen || within src e.aesLen 0x20000 0x1000
    let err := fun (k : Nat) => s.onExt (fun e => { e with aesErr := k })
    match handleKey s v.slot e.aesHandle with
    | .inl 1 => err 1
    | r =>
      if !srcOk || (op ≠ 4 && !rw dst 16) then err 2
      else if (op ≤ 2 && e.aesLen ≠ 16) || e.aesLen = 0 then err 3
      else match r with
        | .inl k => err k
        | .inr key =>
          let input := memReadN s.xc.mem src e.aesLen
          let out := if op = 1 then aesEnc key input else if op = 2 then aesDec key input else cmac key input
          s.onExt (fun e => { e with aesErr := 0, aesBusy := true, aesOut := some (out, if op = 4 then some dkey else none, dst, v.slot) })
/-- The operation in progress is done: its result is stored and `BUSY` clears. -/
def aesDone (s : State) : State :=
  let s' := s.onExt (fun e => { e with aesBusy := false, aesOut := none })
  match s.ext.aesOut with
  | none => s'
  | some (out, some k, _, slot) => onSlot slot (fun x => { x with vol := x.vol.set k (some out) }) s'
  | some (out, none, dst, _) => onExtMem (fun m => memPut m dst out) s'

/-- A read of a device register: its word and what the read does. -/
def readReg (r : RegAddr) (s : State) : Word × State :=
  match r with
  | .timer n off => (readTimerReg off (timer s n), if off = 0x0C then onTimer n (fun t => { t with cap := false }) s else s)
  | .rng o off => readRngReg o off s
  | .fx 0x00 => (s.ext.fxId, s)
  | .fx 0x04 => (BitVec.ofNat 32 (fxIndex s s.ext.fxId.toNat), s)
  | .fx 0x08 => (BitVec.ofNat 32 ((if s.path.any (fun p => !p.ended) then 1 else 0) +
      (match s.ext.cur with | some v => if holdsStep s v.slot then 2 else 0 | none => 0)), s)
  | .aes 0x00 => (BitVec.ofNat 32 s.ext.aesHandle, s)
  | .aes 0x08 => (s.ext.aesSrc, s)
  | .aes 0x0C => (BitVec.ofNat 32 s.ext.aesLen, s)
  | .aes 0x10 => (s.ext.aesDst, s)
  | .aes 0x14 => let s := if s.ext.aesBusy then aesDone s else s
    (BitVec.ofNat 32 (2 * s.ext.aesErr), s)
  | .coreCtl 0x00 => (BitVec.ofNat 32 ((s.ext.cur.map (·.slot)).getD 0), s)
  | .coreCtl 0x04 => (BitVec.ofNat 32 s.ext.left, s)
  | .coreCtl 0x08 => (1, s)
  | .fx _ | .aes _ | .coreCtl _ => (0, s)

/-- A write of a device register; a register that is read only ignores it. -/
def writeReg (r : RegAddr) (v : Word) (s : State) : State :=
  match r with
  | .timer n off => onTimer n (writeTimerReg n off v) s
  | .rng o off => writeRngReg o off v s
  | .fx 0x00 => fxWrite v s
  | .aes 0x00 => s.onExt (fun e => { e with aesHandle := v.toNat % 65536 })
  | .aes 0x04 => aesStart (v.toNat % 8) (v.toNat / 16 % 4) s
  | .aes 0x08 => s.onExt (fun e => { e with aesSrc := v })
  | .aes 0x0C => s.onExt (fun e => { e with aesLen := v.toNat % 4096 })
  | .aes 0x10 => s.onExt (fun e => { e with aesDst := v })
  | .fx _ | .aes _ | .coreCtl _ => s

/-! ### Loads and stores (R408) -/

/-- The core's MPU admits an access and something answers at the address: 0 fetch, 1 load, 2 store. The control complex's map is free
(log 9). -/
def admits (s : State) (c : CoreId) (kind a n : Nat) : Bool :=
  match c with
  | .cc => Config.ccAdmits kind a
  | .ext => extMemOk s kind a n || (kind ≠ 0 && (extDevice s a).isSome)
/-- The value of an admitted load of `n` bytes. A part of a register's word is read with the word's effects (log 38). -/
def load (c : CoreId) (a n : Nat) (s : State) : Word × State :=
  match c with
  | .cc => if Config.ccDevice a then let (v, s) := drawFree s; (BitVec.ofNat 32 (v % 2 ^ (8 * n)), s)
    else (BitVec.ofNat 32 (leNat (memReadN s.cc.mem a n)), s)
  | .ext =>
    if extMemOk s 1 a n then (BitVec.ofNat 32 (leNat (memReadN s.xc.mem a n)), s)
    else match extDevice s a with
      | some r => let (v, s) := readReg r s
        (BitVec.ofNat 32 (v.toNat / 2 ^ (8 * (a % 4)) % 2 ^ (8 * n)), s)
      | none => (0, s)
/-- An admitted store of `n` bytes. A part of a register's word is written with the other bytes zero (log 38). -/
def store (c : CoreId) (a n : Nat) (v : Word) (s : State) : State :=
  let bytes := leBytes n v.toNat
  match c with
  | .cc => if Config.ccDevice a then s else { s with cc := { s.cc with mem := memPut s.cc.mem a bytes } }
  | .ext =>
    if extMemOk s 2 a n then { s with xc := { s.xc with mem := memPut s.xc.mem a bytes } }
    else match extDevice s a with
      | some r => writeReg r (BitVec.ofNat 32 (leNat bytes * 2 ^ (8 * (a % 4)))) s
      | none => s

end Sys2Proof.Machine
end

