-- ==== Sys2Proof/Machine/PowerOps.lean ====
section
/-! DEFINITION. Entering and leaving power states (R62 to R72), Stranded and Breach (R353, R457, R461), tamper trips (R347 to
R352), the end of SERVICE (R345), resets (R68 to R70) and triggers (R327, R328, R431). -/

namespace Sys2Proof.Machine
open Sys2Proof

/-! ### Commands that end `ST_ABORTED` (R129) -/

/-- The command whose write a job is. -/
def After.ref : After → Option CmdRef
  | .reply r => some r
  | .params r _ => some r
  | .learned r _ _ => some r
  | .revoked r _ _ => some r
  | .powerTable r => some r
  | .regRecord r => some r
  | .lifecycle r .. => some r
  | .reprovision r _ _ => some r
  | .keys r _ _ => some r
  | _ => none
/-- The command has been answered `ST_ACCEPTED`, so that its end is a record. -/
def After.answered : After → Bool
  | .lifecycle .. | .reprovision .. | .keys .. => true
  | _ => false
/-- Ends a write's command with a status. -/
def endWrite (a : After) (status : Nat) (s : State) : State :=
  match a.ref with
  | some r => if a.answered then cmdDone r status [] s else respond r status [] s
  | none => s
/-- The command's state class is one of these. -/
def classIn (cs : List Cls) (r : CmdRef) : Bool := match opClass r.opcode with | some c => cs.contains c | none => false
/-- The state classes aborted at Stranded, and at Breach too. -/
def abortedClasses (breach : Bool) : List Cls := if breach then [.T, .K, .X, .S] else [.T, .K, .X]

/-- Commands answered `ST_ACCEPTED` that drive LF, radio, UWB or a path. -/
def driveRefs (s : State) : List CmdRef :=
  (s.lf.cur.toList ++ s.lf.queued.toList ++ s.lf.held.toList).filterMap (·.ref) ++ s.lf.soundRef.toList ++
  (s.lf.soundWait.bind (·.2)).toList ++ s.uwb.reflRef.toList ++
  s.rad.calRef.toList ++ s.rad.tx.toList.filterMap (·.ref) ++ s.soundRun.toList.map (·.ref)
/-- Commands of class S and `ATTEST` under way (R129). -/
def securityRefs (s : State) : List CmdRef :=
  s.sec.verify.toList.map (·.2) ++ (match s.sec.sign with
    | some (.attest r _) => [r]
    | some (.checkpoint (some r) ..) => [r]
    | _ => []) ++ (match s.sec.ckptDue with | some (some r) => [r] | _ => []) ++ s.pair.admission.toList.map (·.1)
/-- Distinct references. -/
def dedup (l : List CmdRef) : List CmdRef := l.foldl (fun a r => if a.contains r then a else a ++ [r]) []

/-- The path under way ends with reason 14, for the record `why` (R87), and the queued ones are dropped; their commands end `ST_ABORTED`. -/
def dropPaths (why : Nat × Nat) (s : State) : State :=
  let refs := (s.path.toList.map (·.req) ++ s.paths).flatMap (fun r => (r.ref.toList ++ r.also).map (fun x => (r.kind, x)))
  let s := denyPathBy why 14 s
  let s := { s with path := none, paths := [] }
  refs.foldl (fun s r => cmdDone r.2 stAborted (le16 0xFFFF ++ (if r.1 = .transponder then [] else [1])) s) s

/-- Every burst and sounding stops; what they drove is counted, and the engine has stopped (R24, R167, R169). -/
def lfHalts (s : State) : State :=
  let s := cutBurst s
  let s := match (bitsOf 48 s.lf.soundMask).head? with
    | some k => if s.lf.soundHeld then s else soundDrove (k + 1) s
    | none => s
  lfStopped (boundaryM .sounding (s.onLf (fun l => { l with
    queued := none, held := none, soundMask := 0, soundRef := none, soundHeld := false, soundAuto := false, soundWait := none })))
/-- Bridges, START_A and START_B, sub-GHz and UWB stop; session keys are erased (Tables 9-9, 10-9). -/
def safeOutputs (s : State) : State :=
  let s := radioStop (withdrawOutputs (lfHalts s))
  let s := s.onRad (fun r => { r with calReq := [], calRef := none })
  let s := s.onUwb (fun u => { u with sessions := [], due := [], turn := [], announced := [], results := [], refl := 0, reflRef := none, reflHeld := false })
  let s := updateUwb (boundaryM .frozenUwb (boundaryM .round s))
  { s.onZon (fun z => { z with poll := none, located := z.located.map (fun l => { l with kS := [] }) }) with soundRun := none }

/-- A write of a command that is aborted runs on without it, once it has begun (R60, Table 16-5): the command ends now and what would
have followed its commit does not (log 98). -/
def orphan (dead : Job → Bool) (w : Writing) : Writing := if dead w.job then { w with job := { w.job with after := .nothing } } else w
/-- A key package, which Breach keeps from being committed until its copy A stands (Table 14-7, R380; log 98). -/
def keyPackage (j : Job) : Bool := match j.after with | .keys .. => true | _ => false
/-- The commands answered `ST_ACCEPTED` that Stranded, or Breach, aborts (R129). -/
def haltRefs (breach : Bool) (s : State) : List CmdRef := dedup (driveRefs s ++ (if breach then securityRefs s else []))
/-- Everything that drives stops and the sessions end (Table 3-6, R353 step 1). -/
def stopAll (s : State) : State := closeAll 5 none (safeOutputs s)
/-- Paths, commands and writes that Stranded and Breach abort (R129, R353 step 4). The staged area of a verification that is aborted keeps its
bytes (DESIGN CHOICE, log 129). -/
def abortWork (why : Nat × Nat) (breach : Bool) (refs : List CmdRef) (s : State) : State :=
  let s := dropPaths why s
  let s := refs.foldl (fun s r => cmdDone r stAborted [] s) s
  let ends := fun (cs : List Cls) (j : Job) => match j.after.ref with | some r => classIn cs r | none => false
  let dead := fun (j : Job) => (match j.after with | .pathCounter .. => true | _ => false) || ends (abortedClasses breach) j
  let begun := ends (if breach then [.T, .K, .S] else [.T, .K])
  let jobs := s.store.queue.filter dead ++ ((s.store.cur.toList ++ s.store.paused).map (·.job)).filter begun
  let s := s.onStore (fun t => { t with
    queue := t.queue.filter (fun j => !dead j), paused := t.paused.map (orphan begun)
    cur := (t.cur.filter (fun w => w.aDone || !breach || !keyPackage w.job)).map (orphan begun) })
  let left := (s.store.cur.toList ++ s.store.paused).map (·.job)
  let s := { s with awaited := s.awaited.filter (fun a => left.any (fun j => j.after = .pathCounter a.1 a.2.1)) }
  let s := jobs.foldl (fun s j => endWrite j.after stAborted s) s
  let s := if breach then
      let loads := s.ext.pendLoad.filterMap (fun x => x.2.2)
      let s := (s.onSec (fun x => { x with verify := none, sign := none, ckptDue := none })).onPair (fun p => { p with admission := none })
      let s := s.onExt (fun e => { e with pendLoad := e.pendLoad.filter (fun x => x.2.2.isNone) })
      loads.foldl (fun s r => cmdDone r stAborted [] s) s
    else s
  stopExtCore s
/-- Everything that Stranded stops, and the commands it aborts. -/
def haltWork (why : Nat × Nat) (s : State) : State := abortWork why false (haltRefs false s) (stopAll s)

/-- Changes the power state, with `EV_POWER_STATE` (log 13), the command it concerns and the record it depends on (R87, R139), and
mirrors it. -/
def setPower (o : EvOpt) (to_ : Power) (s : State) : State :=
  let from_ := s.pwr.state.code
  let s := s.onPwr (fun p => { p with state := to_ })
  mirror [.power to_.code] (wires (emitX evPowerState 0 [byte from_, byte to_.code] { o with ref := foreign evPowerState o.ref } s))

/-- A role is taken (R436). -/
def takeRole (r : Role) (s : State) : State :=
  emitT (s.pair.switch_.map (·.1.tag)) evPairRole 0 [match r with | .single => 0 | .headland => 1 | .lee => 2]
    (s.onPair (fun p => { p with role := r, headFrom := if r = .headland then some (now s) else none }))

/-- The write of Stranded through an F3 fault (R63): never over Breach. -/
def persistStranded (s : State) : State :=
  if s.pwr.state = .breach || s.sec.breachDue || recBody s 0x0002 0 = some [5] || recBody s 0x0002 0 = some [4] then s
  else queueJob { cls := 3, items := [.record 0x0002 0 [4]], after := .powerState } s
/-- Stranded (R63, R64, R457): `f3` when an F3 fault causes it, which is persisted, once firmware runs, and yields the pair (R446);
`sensors` the tamper sensors that cause it, which the partner hears of when `tell` is set (R453); `ref` the record it depends on. -/
def enterStrandedBy (ref : Nat × Nat) (f3 : Bool) (sensors : Nat) (tell : Bool) (s : State) : State :=
  let s := s.onPwr (fun p => { p with strandedBy := p.strandedBy ||| sensors })
  let s := if f3 && !s.pwr.persistWanted && s.pwr.state ≠ .breach then
      let s := s.onPwr (fun p => { p with persistWanted := true })
      if s.pwr.phase = .firmware || s.pwr.phase = .ready then persistStranded s else s
    else s
  let s := if tell then sendBlock 0x43 [] s else s
  let yields := f3 && paired s
  let s := if yields then sendBlock 0x41 [] s else s
  let s := if awake s then
      setPower { ref := ref } .stranded ((haltWork ref s).onPwr (fun p => { p with neapEntry := false, neapAfter := false, hostRdy := true }))
    else s
  if yields then takeRole .lee s else wires s

/-- Stranded that depends on no record of another source. -/
def enterStranded (f3 : Bool) (sensors : Nat) (tell : Bool) (s : State) : State := enterStrandedBy (0, 0) f3 sensors tell s

/-- An F3 fault (R457): its record, then Stranded. -/
def f3Fault (code : Nat) (params : Bytes) (s : State) : State :=
  let s := emit code 3 params s
  enterStrandedBy (refTo code s) true 0 false s

/-! ### SERVICE, Breach and tamper -/

/-- SERVICE ends and FIELD resumes (R345): the transition is reported, the channels close and halted cores resume. -/
def endService (s : State) : State :=
  if s.sec.service.isNone then s else
  let s := s.onSec (fun x => { x with service := none, halted := (false, false) })
  closeSecure true 4 (closeSecure false 4 (emit evLifecycle 0 [4, byte (lifecycle s).code] s))

/-- The slots zeroised at Breach (R353). -/
def breachSlots : List Nat := [3, 4, 5] ++ (List.range 16).map (48 + ·)
/-- The kind code of a slot in `EV_KEY_ZEROISED` (Table 14-2). -/
def slotKind (k : Nat) : Nat := if k < 6 then k + 1 else 7
/-- A session key is held. -/
def holdsKeys (s : State) : Bool :=
  s.zon.located.any (fun l => !l.kS.isEmpty) || !s.uwb.sessions.isEmpty ||
  (match s.path with | some p => p.auths.any (fun a => !a.kS.isEmpty) | none => false)
/-- The write of step 5 of R353, from the security-log reserve: Breach, the Breach count and the zeroised slots. -/
def breachJob (s : State) : Job :=
  { cls := 2, items := [.record 0x0002 0 [5], .ctr 0x0204 s.sec.breachFuses] ++ breachSlots.map (fun k => .record 0x0040 k []),
    after := .breach, logOnly := true, noVbat := true }

/-- Breach (R353), by a sensor or the partner. `fuse`: a Breach fuse is blown, which completing an interrupted Breach does not. -/
def enterBreach (sensor : Nat) (fuse tell : Bool) (s : State) : State :=
  if s.pwr.state = .breach then s else
  let keys := holdsKeys s
  let live := running s
  let refs := haltRefs true s
  let s := stopAll (withdrawOutputs s)
  let s := s.onSec (fun x => { x with breachFuses := if fuse then min 64 (x.breachFuses + 1) else x.breachFuses })
  let kinds := ((breachSlots.filter (fun k => (vaultKey s k).isSome)).map slotKind ++ (if keys then [8] else [])).foldl
    (fun (l : List Nat) k => if l.contains k then l else l ++ [k]) []
  let s := s.onSec (fun x => { x with
    vault := x.vault.zipIdx.map (fun (v, k) => if breachSlots.contains k then {} else v), breachDue := true, wiping := true })
  let s := s.onRel (fun r => { r with doorKey := none, start := r.start.map (fun t => { t with key := none }) })
  let s := emit evBreach 3 [byte sensor] (zeroiseRng s)
  let why := refTo evBreach s
  let s := kinds.foldl (fun s k => emitX evKeyZeroised 2 [byte k] { ref := why } s) s
  let s := closeSecure true 5 (closeSecure false 5 s)
  let s := if live then abortWork why true refs s else s
  let s := endService (queueJob (breachJob s) s)
  let s := if tell then sendBlock 0x42 [] s else s
  if live then setPower { ref := why } .breach (s.onPwr (fun p => { p with neapEntry := false, neapAfter := false, hostRdy := true })) else s

/-- The sensors armed now (Table 14-5). -/
def armedMask (s : State) : Nat :=
  let lc := lifecycle s
  let ext := param s 0x0A01
  (if lc ≠ .blank then 3 else 0) + 4 * (ext % 8) + (if lc ≠ .factory then 0x60 else 0) + (if s.pwr.state.isRunning then 0x180 else 0) +
  0x200 + (if lc ≠ .factory then 0x400 else 0) +
  (if lc ≠ .factory && !(match s.sec.service with | some g => bitSet g.2 0 | none => false) then 0x800 else 0)
/-- The sensors checked in Neap. -/
def neapSensors : Nat := 0xE5E
/-- The default and the lowest response of a sensor (Table 14-6). -/
def tamperDefault (sensor : Nat) : Nat × Nat :=
  match sensor with
  | 0 | 1 => (2, 2)
  | 5 | 6 => (2, 1)
  | 7 | 8 => (1, 1)
  | 2 | 3 | 4 | 10 => (1, 0)
  | _ => (0, 0)
/-- A sensor's mapped response. -/
def tamperResp (s : State) (sensor : Nat) : Nat :=
  match recBody s 0x0060 0 with
  | some b => u8 b sensor
  | none => (tamperDefault sensor).1
/-- 24 h in microseconds. -/
def dayUs : Nat := 86400000000
/-- The strikes as stored in record 0x0061. -/
def strikeBytes (l : List Nat) : Bytes := l.flatMap le48

/-- A stay in Neap ends, or an entry that is then abandoned (R66, R67): the state, `EV_POWER_STATE`, `EV_WAKE` when something woke the
ITF48, the compensated timers (R400), the noise sources' new start-up tests (R364) and the correction that falls due (R81). -/
def leaveNeap (wake : Option Nat) (flood : Bool) (s : State) : State :=
  let inNeap := s.pwr.state = .neap
  if !inNeap && !s.pwr.neapEntry then s else
  let to_ := if flood then Power.flood else Power.slack
  let adv := s.clk.edges * s.clk.pBefore / 65536
  let s := neapStir (activity (s.onPwr (fun p => { p with state := to_, neapEntry := false, neapAfter := false, hostRdy := true })))
  let s := emit evPowerState 0 [1, byte to_.code] s
  let s := match wake with | some code => emit evWake 0 [byte code] s | none => s
  let s := s.onPair (fun p => { p with lastBeat := now s, misses := 0, missed := 0, alive := (p.alive.1, now s) })
  let s := if inNeap then
      (compensateTimers s.clk.edges adv (s.onClk (fun c => { c with corrDue := true, wakeEdge := none }))).onRng (fun r =>
        { r with src := r.src.map (fun x => { x with running := r.fatal.isNone, passed := false }) })
    else s
  mirror [.power to_.code] s
/-- A wake source ends a stay in Neap or abandons the entry. -/
def neapWake (code : Nat) (flood : Bool) (s : State) : State := leaveNeap (some code) flood s

/-- An armed tamper sensor trips (R347, R350 to R352, R465): logged before its response is taken. The tripped sensor is not raised again
until it has read clear; a chattering one is held tripped. `at_` is the tide clock at which it was found, if not now (R84). -/
def tamperTripsAt (at_ : Option Nat) (sensor : Nat) (s : State) : State :=
  if !bitSet (armedMask s) sensor then s
  else if bitSet s.sec.reads sensor || bitSet s.sec.heldTripped sensor then
    s.onSec (fun x => { x with reads := setBit x.reads sensor })
  else
    let recent := s.sec.chatter.filter (fun c => c.1 = sensor && s.clk.mono < c.2 + 1000000)
    if recent.length ≥ 8 then
      s.onSec (fun x => { x with reads := setBit x.reads sensor, heldTripped := setBit x.heldTripped sensor })
    else
      let breach := s.pwr.state = .breach
      let map := if breach then 0 else tamperResp s sensor
      let strikes := s.sec.strikes.filter (fun t => s.clk.mono < t + dayUs) ++ (if map = 1 then [s.clk.mono] else [])
      let resp := if map = 1 && strikes.length ≥ param s 0x0A02 then 2 else map
      let s := s.onSec (fun x => { x with reads := setBit x.reads sensor, tripped := setBit x.tripped sensor, lastResp := resp, strikes := strikes })
      let s := emitX evTamper 1 [byte sensor, byte resp] { at_ := at_ } s
      let why := refTo evTamper s
      let pin := fun (k : Byte) => emitX evTamperTestPin 1 [k] { at_ := at_ } s
      let s := if sensor = 10 then pin 0 else if sensor = 11 then pin 1 else s
      let s := if map = 1 then queueJob { cls := 3, items := [.record 0x0061 0 (strikeBytes strikes)] } s else s
      match resp with
      | 1 => enterStrandedBy why false (2 ^ sensor) true s
      | 2 => enterBreach sensor true true s
      | _ => s
/-- An armed tamper sensor trips now. -/
def tamperTrips (sensor : Nat) (s : State) : State := tamperTripsAt none sensor s

/-! ### Triggers (R327, R328, R62, R431) -/

/-- The wake map's entry of a trigger: kind, doors, coils; 0xFF when it starts no path. -/
def wakeMap (s : State) (code : Nat) : Nat × Nat × List Nat :=
  match recBody s 0x0023 code with
  | some b => (u8 b 0, u16 b 1, (List.range (u8 b 3)).map (fun k => u8 b (7 + k)))
  | none => (0xFF, 0, [])
/-- A confirmed trigger: latched before mailbox ready, forwarded by Lee, otherwise a wake and, when it is mapped, a path. -/
def serveTrigger (code : Nat) (s : State) : State :=
  if s.pwr.phase ≠ .ready then
    (if s.pwr.state = .startup then s.onPwr (fun p => { p with latched := p.latched ++ [code] }) else s)
  else
    let (kind, doors, coils) := wakeMap s code
    let mapped := kind ≤ 1
    let neap := s.pwr.state = .neap || s.pwr.neapEntry
    let s := neapWake code (mapped && s.pair.role ≠ .lee) s
    if s.pair.role = .lee then sendBlock 0x30 [byte code] s
    else if !mapped || !awake s then s
    else (pushPath { kind := if kind = 1 then .start else .access, trigger := code, doors := doors, at_ := now s, coils := coils, neap := neap } s).2

/-! ### Resets (R68, R69) -/

/-- What drives and radiates at a reset is counted in the retained accounts (R69, R167, R169, R315). -/
def countDriven (s : State) : State :=
  let s := match s.lf.cur with
    | some b => burstDuty b (addEth (drivenUj s b) s)
    | none => s
  let s := match (bitsOf 48 s.lf.soundMask).head? with
    | some k => if s.lf.soundHeld then s else soundDrove (k + 1) s
    | none => s
  match s.rad.tx with
  | some t => if t.radiating then addAir (now s - t.since) s else s
  | none => s
/-- The state after a reset (R68): everything at its reset value but what the store, the code store, the vault, the fuses and the
retained SRAM keep. `cold`: a start-up under R61 with the SRAM lost; otherwise start-up runs from the 0.80 ms row. -/
def restart (cold : Bool) (cause : Nat) (s : State) : State :=
  let s := countDriven (cutStore s)
  let z := State.reset
  let wasOpen := if cold then (false, false) else (s.wasOpen.1 || s.mbx.chan.isSome, s.wasOpen.2 || s.mmb.chan.isSome)
  let trial := s.par.trial.getD ([1, 2, 3, 4].map (fun i => (i, param s i)))
  { z with
    pending := s.pending, free := s.free, store := s.store, wasOpen := wasOpen,
    ero := s.ero.map (fun e => { e with acc := if e.item = 8 then e.acc else 0, accN := 0, toks := [] }), eroAt := s.eroAt,
    clk := { z.clk with mono := s.clk.mono },
    pwr := { z.pwr with
      state := .startup, phase := if cold then .supplied else .rails, vbat := s.pwr.vbat, vddio := s.pwr.vddio, vlf := s.pwr.vlf,
      vrel := s.pwr.vrel, vhold := if s.pwr.ride.isSome then s.pwr.vhold else vholdNow s, ride := if cold then none else s.pwr.ride,
      charger := !cold && s.pwr.vbatValid, chargeFrom := (s.clk.mono, vholdNow s), vbatValid := s.pwr.vbatValid,
      vbatFull := s.pwr.vbatFull, vbatOv := s.pwr.vbatOv, vlfValid := s.pwr.vlfValid, vlfOv := s.pwr.vlfOv,
      vrelValid := s.pwr.vrelValid, vddioValid := s.pwr.vddioValid, cause := cause, wdt := if cold then [] else s.pwr.wdt,
      wdtSeen := if cold then z.pwr.wdtSeen else s.pwr.wdtSeen, railBad := if cold then 0 else s.pwr.railBad,
      testEn := s.pwr.testEn, csLow := s.pwr.csLow, csDiscard := s.pwr.csLow, faultN := true },
    par := { z.par with trial := some trial },
    lf := { z.lf with
      eth := if cold then 0 else s.lf.eth, ethAt := if cold then s.clk.mono else s.lf.ethAt, ethLeak := if cold then z.lf.ethLeak else s.lf.ethLeak,
      duty := if cold then z.lf.duty else s.lf.duty, binAt := if cold then s.clk.mono + 60000000 else s.lf.binAt, dutyLast := s.lf.dutyLast, temp := s.lf.temp },
    rad := { z.rad with
      duty := if cold then z.rad.duty else s.rad.duty, binAt := if cold then s.clk.mono + 60000000 else s.rad.binAt, dutyLast := s.rad.dutyLast, temp := s.rad.temp, grant := s.rad.grant },
    sec := { z.sec with
      oemRoot := s.sec.oemRoot, breachFuses := s.sec.breachFuses, decomFuse := s.sec.decomFuse, vault := s.sec.vault,
      certificate := s.sec.certificate, banks := s.sec.banks, active := s.sec.active, logNext := s.sec.logNext,
      logHead := s.sec.logHead, ckptNext := s.sec.ckptNext, ckptFrom := s.sec.ckptFrom, ckptHash := s.sec.ckptHash,
      strikes := s.sec.strikes, wiping := s.sec.wiping, stage1 := s.sec.stage1 } }
/-- Every stored token record is emptied in the background (R333, R336, R354). -/
def wipeTokens (s : State) : State :=
  let ks := recKeys s 0x0030
  ks.foldl (fun s k => queueJob { cls := 3, items := [.record 0x0030 k []] } s) (s.onSec (fun x => { x with wiping := !ks.isEmpty }))
/-- The start-up runs the whole of Table 3-5 (R68). -/
def coldStart (s : State) : Bool := s.pwr.cause == 0 || s.pwr.cause == 4
/-- A reset of the running machine, at the end of the store cell being written (R69): nothing to reset in OFF, or once the shutdown holds
the dies (R71). -/
def resetBy (cause : Nat) (s : State) : State :=
  if s.pwr.state = .off || s.pwr.shutdown || s.pwr.phase = .supplied then s else restart false cause (cellEnds s)

end Sys2Proof.Machine
end

