-- ==== Sys2Proof/Machine/Power.lean ====
section
/-! DEFINITION. The commands of supplies, start-up and resets (03_power_and_startup) and of the Isthmus (R11, R12). -/

namespace Sys2Proof.Machine
open Sys2Proof

/-! ### Bursts and transmissions that a supply cuts short -/

/-- The burst in progress counts as not sent (R53): a host burst ends with a status, the path's burst denies it with a reason. -/
def dropBurst (status reason : Nat) (s : State) : State :=
  match s.lf.cur with
  | none => s
  | some b =>
    let s := cutBurst s
    let mine : Bool := match s.path with
      | some p => (b.kind = BurstKind.wake && b.ref.isNone) || (b.kind = BurstKind.refresh && p.step = PathStep.refresh)
      | none => false
    let s := if b.kind = BurstKind.locate then s.onZon (fun z => { z with poll := none }) else s
    if mine then denyPath reason s else cmdDoneO b.ref status [0] s
/-- The sounding under way loses channels, whose bridges go off (R53, Table 7-8): what the one being sounded drove is counted, and a
sounding with none left is over with `ST_BUSY`, the one status of Table 6-5 for what it lacks (R126, log 91). -/
def soundLoses (lost : Nat → Bool) (s : State) : State :=
  let chans := (bitsOf 48 s.lf.soundMask).map (· + 1)
  if !chans.any lost then s else
  let s := match chans with
    | c :: _ => if lost c && !s.lf.soundHeld then soundDrove c s else s
    | [] => s
  let left := chans.filter (fun c => !lost c)
  if left.isEmpty then soundOver stBusy s else s.onLf (fun l => { l with soundMask := left.foldl (fun n c => setBit n (c - 1)) 0 })
/-- Every bridge goes off: a burst and a sounding count as not sent. -/
def bridgesOff (s : State) : State := soundLoses (fun _ => true) (dropBurst stHwFault 12 s)

/-- At a loss of VBAT the burst counts as not sent and is begun again at its next boundary, as the channel being sounded is sounded
again (R71). -/
def suspendBurst (s : State) : State :=
  let s := match (bitsOf 48 s.lf.soundMask).head? with
    | some k => if s.lf.soundHeld then s else soundDrove (k + 1) s
    | none => s
  match s.lf.cur with
  | none => s
  | some b =>
    let s := cutBurst s
    match b.ref with
    | some _ => s.onLf (fun l => { l with queued := some { b with
        faults := [], lostGroups := [], frameOff := [], windows := b.windows.map (fun w => { w with degraded := false, offTarget := false }) } })
    | none => match s.path with
      | some p => if p.step = PathStep.burst || p.step = PathStep.refresh then
          s.onPath (fun p => { p with step := PathStep.toFlood, refreshed := p.refreshed && p.step = PathStep.burst }) else s
      | none => s
/-- A transmission counts as not sent and waits for VBAT (R71). -/
def suspendTx (s : State) : State :=
  match s.rad.tx with
  | some t => if t.radiating then
      coexDrop ((addAir (now s - t.since) s).onRad (fun r => { r with tx := some { t with radiating := false, waiting := true } }))
    else s
  | none => s

/-! ### Start-up (R61, Table 3-5) -/

/-- POWER_ON (R36, R50, R61, R68): both supplies valid; full function rises at 6.10 V (Table 3-2). With one of them alone nothing starts,
but the balls show their reset states from the rise of VBAT. -/
def execPowerOn (vbat vddio : Nat) (s : State) : Out :=
  if s.pwr.state ≠ .off then next s
  else
    let on := fun (p : Pwr) => { p with vbat := vbat, vddio := vddio, vbatValid := vbat ≥ 5000, vddioValid := vddio ≥ 1620, vbatFull := vbat > 6100 }
    if vbat < 5000 || vddio < 1620 then next (s.onPwr on)
    else next ((restart true (if s.pwr.shutdown then 4 else 0) s).onPwr on)

/-- The 32.768 kHz oscillator starts, SLOW on the RC meanwhile (R76). -/
def startXtal32 (s : State) : State := s.onClk (fun c => { c with xtal32 := .qualifying, slowOnXtal := false, xtal32From := c.base })
/-- RAILS_WITHIN_LIMITS (Table 3-5, R56, R76): the charger and both oscillators start. -/
def execRailsWithinLimits (s : State) : Out :=
  if s.pwr.phase ≠ .supplied || !s.pwr.vbatValid || !s.pwr.vddioValid then next s else
  let s := advanceTo 400 s
  next (startXtal32 (s.onPwr (fun p => { p with phase := .rails, charger := true, chargeFrom := (s.clk.mono, p.vhold) })))

/-- The firmware counter; a lost one is the highest security version among the banks that verify (R388). -/
def fwCounter (s : State) : Nat :=
  (ctrValue s 0x0201).getD ((s.sec.banks.filter (fun b => b.present && b.verifies)).foldl (fun m b => max m b.secVersion) 0)
/-- A bank that may run as a fallback (R342). -/
def fallbackOk (s : State) (b : Bank) : Bool := b.present && b.verifies && b.secVersion ≥ fwCounter s
/-- The boot ROM's choice of bank (R342). -/
def bootVerify (s : State) : State :=
  let bank := fun (i : Nat) => s.sec.banks.getD i {}
  let mark := fun (i : Nat) (f : Bank → Bank) (s : State) => s.onSec (fun x => { x with banks := modAt x.banks i f })
  let runActive := fun (s : State) =>
    let a := s.sec.active
    if (bank a).present && (bank a).verifies then s
    else if fallbackOk s (bank (1 - a)) then s.onSec (fun x => { x with active := 1 - a })
    else s.onPwr (fun p => { p with recovery := true })
  match [0, 1].find? (fun i => (bank i).pending) with
  | some i =>
    let s := mark i (fun b => { b with pending := false }) s
    if (bank i).verifies then s.onSec (fun x => { x with active := i })
    else runActive (s.onPwr (fun p => { p with fwFailed := some (i, tide s) }))
  | none => runActive s

/-- The base begins again at the release of a reset that did not begin with the supplies (R68, R80), for what was found before it too. -/
def releaseBase (s : State) : State :=
  if coldStart s then advanceTo 800 s
  else startXtal32 (((s.onClk (fun c => { c with base := 0, offset := 0, slew := 0 })).onEvt (fun e =>
    { e with early := e.early.map (fun r => { r with at_ := 0 }) })).onPwr (fun p => { p with tripSeen := p.tripSeen.map (fun t => (t.1, 0)) }))
/-- RESET_RELEASE (R40, R42, R50, R75, R334, R342): held until both supplies are valid. A 26 MHz oscillator that is not stable is an
`EV_XTAL26_FAIL`. In a pair the member is Lee until the link or its absence settles the role. -/
def execResetRelease (xtalStable cwPair cwRole testEn : Bool) (pufFails : Nat) (s : State) : Out :=
  if s.pwr.phase ≠ .rails || !s.pwr.vbatValid || !s.pwr.vddioValid then next s
  else
    let s := releaseBase s
    let s := s.onPwr (fun p => { p with
      phase := .rom, cwPair := cwPair, cwRole := cwRole, testEn := testEn, scanTest := testEn && decide (lifecycle s = .factory),
      tripSeen := (if testEn then [(10, tide s)] else []) ++ p.tripSeen })
    let s := s.onClk (fun c => { c with xtal26 := xtalStable, backup := !xtalStable })
    let s := s.onSec (fun x => { x with vaultOk := pufFails ≤ 3 })
    let s := if s.sec.vaultOk then s else emit evKeyZeroised 2 [0xFF] s
    let s := if xtalStable then s else f3Fault evXtal26Fail [] s
    next (bootVerify (s.onPair (fun p => { p with role := if cwPair then .lee else .single })))

/-- Reports a monitor that reads low or tripped and has not been reported (R52). -/
def reportLow (c : Bool) (code cls num mv : Nat) (s : State) : State :=
  if c && !faultActive s code [byte num] then emitF code cls [byte num] (byte num :: le16 (mv / 10)) s else s
/-- Reports every monitor that reads low or tripped, and every rail outside its limits (R52, R460, R516). -/
def readMonitors (s : State) : State :=
  let low := reportLow
  let s := low (!s.pwr.vbatValid) evVbatLoss 1 0 s.pwr.vbat s
  let s := low s.pwr.vbatOv evVbatOv 1 0 s.pwr.vbat s
  let s := (List.range 4).foldl (fun s g =>
    low (s.pwr.vlfOv.getD g false) evVlfOv 1 (g + 1) (s.pwr.vlf.getD g 0)
      (low (!s.pwr.vlfValid.getD g false) evVlfLow 1 (g + 1) (s.pwr.vlf.getD g 0) s)) s
  let s := low (!s.pwr.vddioValid) evVddioLow 2 0 s.pwr.vddio (low (!s.pwr.vrelValid) evVrelLow 1 0 s.pwr.vrel s)
  (bitsOf 5 s.pwr.railBad).foldl (fun s r => low true evRailFault 3 r 0 s) s

/-- The persisted parameters take effect (R131, R132). -/
def loadParams (s : State) : State :=
  let l := (recKeys s 0x0010).foldl (fun l k => match recBody s 0x0010 k with
    | some b => pSet l k (leNat b)
    | none => l) []
  { s with par := { s.par with written := l, active := l } }
/-- A transport setting that differs from the one in effect before is on trial (R89). -/
def startTrial (s : State) : State :=
  match s.par.trial with
  | some old => if old.all (fun e => param s e.1 = e.2) then s.onPar (fun p => { p with trial := none }) else s
  | none => s
/-- The vault from its stored records (R335): binding, type and wrapped key; an emptied record empties its slot. -/
def loadVault (s : State) : State :=
  (s.store.recs.filter (fun r => r.type == 0x0040)).foldl (fun s r =>
    s.onSec (fun x => { x with vault := modAt x.vault r.key (fun v => match r.standing with
      | some w => if w.body.isEmpty then {} else { key := keyUnwrap Config.kek (w.body.drop 2), bind := u8 w.body 0 }
      | none => v) })) s
/-- Pins named by door records are release outputs (R490). -/
def releasePins (s : State) : List Nat :=
  (recKeys s 0x0022).filterMap (fun d => match recBody s 0x0022 d with
    | some r => if bitSet (u8 r 4) 2 then some (u8 r 8) else none
    | none => none)
/-- Configures the release outputs (R490). -/
def configReleasePins (s : State) : State :=
  (releasePins s).foldl (fun s k => s.onBus (fun b => { b with pins := modAt b.pins k (fun p =>
    if p.function = 1 then p else { p with function := 1, dir := 2, out := false, level := true }) })) s
/-- What start-up acts on before anything else, in the boot ROM's recovery too: an F3 fault found so far, the third watchdog reset
(R70), and the tamper trips kept, TEST_EN and the debug port among them (R42, R43). -/
def startFaults (s : State) : State :=
  let s := if s.pwr.cause = 3 && s.pwr.wdtSeen.2 then enterStranded true 0 false s else s
  s.pwr.tripSeen.foldl (fun s t => tamperTripsAt (some t.2) t.1 s) (s.onPwr (fun p => { p with tripSeen := [] }))
/-- Firmware starts (R63, R331 to R353, R387): the start-up counter, the records that waited for firmware, the recovery scan, stored
settings, the noise of R296 and the conditions that resume Stranded or Breach. -/
def firmwareUp (s : State) : State :=
  let n := startUps s + 1
  let s := flushEarly (queueJob { cls := 2, items := [.ctr 0x0203 n] } s)
  let s := recover s
  let s := loadVault (startTrial (loadParams s))
  let s := takeLfRecord (s.onRad (fun r => { r with reg := (recBody s 0x0050 0).map (fun b => b.take 416), table := recBody s 0x0051 0 }))
  let s := s.onSec (fun x => { x with strikes := match recBody s 0x0061 0 with
    | some b => (List.range (b.length / 6)).map (fun k => u48 b (6 * k))
    | none => x.strikes })
  let s := invalidateAll (configReleasePins (reserveBlock s))
  let s := if s.sec.wiping then wipeTokens s else s
  let s := readMonitors (reportLow (!s.pwr.vbatFull) evVbatReduced 0 0 s.pwr.vbat s)
  let s := if s.pwr.persistWanted then persistStranded s else if s.pwr.railBad ≠ 0 then enterStranded true 0 false s else s
  if s.sec.breachFuses > (ctrValue s 0x0204).getD s.sec.breachFuses then enterBreach 0xFF false false s else s

/-- FIRMWARE_START (R61, R342): in recovery the boot ROM's mailbox is served instead, and firmware does not run. -/
def execFirmwareStart (s : State) : Out :=
  if s.pwr.phase ≠ .rom then next s else
  let s := advanceTo (if coldStart s then 2400 else 1600) s
  let s := s.onPwr (fun p => { p with phase := .firmware })
  next (wires (startFaults (if s.pwr.recovery then flushEarly s else firmwareUp s)))

/-- The reset cause is reported, the first record of POWER (R68, R70, R85), and what waited for it follows. -/
def reportCause (s : State) : State :=
  let (n, third) := s.pwr.wdtSeen
  let dog := s.pwr.cause = 3
  flushEarly (emit evResetCause (if dog && third then 3 else if dog then 1 else 0) [byte s.pwr.cause, byte (sat 255 n)] s)
/-- The mailbox becomes ready (R61 to R63, R342): the resumed state, the wires, the mailbox; latched triggers count as confirmed now. -/
def mailboxUp (s : State) : State :=
  let s := advanceTo (if coldStart s then 4000 else 3200) s
  let to_ := resumed s
  let s := neapStir (activity (s.onPwr (fun p => { p with
    phase := .ready, state := to_, hostRdy := true, readyAt := now s, csDiscard := p.csLow,
    persistWanted := p.persistWanted || (to_ = .stranded && recBody s 0x0002 0 = some [4]) })))
  let s := reportCause s
  let s := s.onBus (fun b => { b with bus := b.bus.zipIdx.map (fun (x, k) => if k < 2 && !s.clk.xtal26 then x else { x with state := 1 }) })
  let s := match s.pwr.fwFailed with
    | some (i, t) => emitX evFwVerify 1 [byte i, 1] { at_ := some t } (s.onPwr (fun p => { p with fwFailed := none }))
    | none => s
  let s := if s.wasOpen.1 then emit evMbxSecure 0 [2] s else s
  let s := if s.wasOpen.2 then emit evMbxSecure 0 [2] s else s
  let s := { s with wasOpen := (false, false) }
  let b := s.sec.banks.getD s.sec.active {}
  let v := max b.secVersion (fwCounter s)
  let s := if !s.pwr.recovery && (b.secVersion > fwCounter s || (ctrValue s 0x0201).isNone) then
      queueJob { cls := 3, items := [.ctr 0x0201 v], after := .fwCounter } s else s
  let s := updateUwb (wires s)
  let codes := s.pwr.latched
  codes.foldl (fun s c => serveTrigger c s) (s.onPwr (fun p => { p with latched := [] }))

/-- MAILBOX_READY (R61). -/
def execMailboxReady (s : State) : Out := if s.pwr.phase ≠ .firmware then next s else next (mailboxUp s)

/-! ### Holdup (R57 to R59) -/

/-- VHOLD_CHARGED (R57): the charger stops and the load is applied; after an abandoned measurement only at the next start-up. -/
def execVholdCharged (s : State) : Out :=
  if s.pwr.phase = .none || !s.pwr.charger || s.pwr.hold.isSome || s.pwr.holdBusy || s.pwr.holdSkip then next s
  else next (s.onPwr (fun p => { p with vhold := 15000, charger := false, holdBusy := true }))

/-- The fault of a holdup measurement, C_hold in 0.1 uF and ESR in mΩ (Table 3-4): code, class, instance and parameters. -/
def holdReport (h : Option (Nat × Nat)) : List (Nat × Nat × Bytes × Bytes) :=
  match h with
  | some (c, esr) =>
    if c < 1000 || esr > 2000 then [(evHoldFailed, 2, [], le16 c ++ le16 esr)]
    else if c < 2200 || esr > 500 then [(evHoldLow, 1, [], le16 c ++ le16 esr)] else []
  | none => []
/-- HOLD_MEASURE_END (R57, R59, Table 3-4): `stepUv` at the load's onset, `fallUv` over 0.99 ms. -/
def execHoldMeasureEnd (stepUv fallUv : Nat) (s : State) : Out :=
  if !s.pwr.holdBusy then next s else
  let esr := sat 65535 (roundDiv stepUv 50)
  let c := if fallUv = 0 then 65535 else sat 65535 (roundDiv 495000000 fallUv)
  let vh := 15000 - fallUv / 1000
  let s := s.onPwr (fun p => { p with
    holdBusy := false, hold := some (c, esr), vhold := vh, charger := true, chargeFrom := (s.clk.mono, vh) })
  let p := le16 c ++ le16 esr
  let s := emit evHoldMeasured 0 p s
  let s := (holdReport (some (c, esr))).foldl (fun s d => emitF d.1 d.2.1 d.2.2.1 d.2.2.2 s) s
  next (queueJob { cls := 3, items := [.record 0x0053 0 p] } s)

/-! ### Monitors (R51 to R53) -/

/-- One monitor's crossing, reported once (R52, R46), or once firmware runs (R61). -/
def crossing (code cls num mv : Nat) (bad : Bool) (s : State) : State :=
  if s.pwr.phase = .none then s else
  if bad then emitF code cls [byte num] (byte num :: le16 (mv / 10)) s else emitC code cls [byte num] (byte num :: le16 (mv / 10)) s
/-- VLF of group `g` falls below valid (Table 7-8): its channels stop at once in the burst and the sounding under way, and their records
from the burst are discarded. -/
def groupLost (g : Nat) (s : State) : State :=
  let mine := fun (c : Nat) => decide (vlfGroup c = g)
  let drives := (s.lf.cur.toList.flatMap (fun b => b.windows.flatMap (·.drives))).map (·.chan)
  let s := ((drives.filter mine).eraseDups).foldl (fun s c => degrade c false s) s
  let s := s.onLf (fun l => { l with cur := l.cur.map (fun b => { b with lostGroups := b.lostGroups ++ [g] }) })
  soundLoses mine s

/-- SUPPLY_MONITOR_CROSSING (R52, R269): a level that crosses its threshold of Table 3-2; any other reading changes nothing. VDDIO that
falls and rises again in a running state is reported and resets nothing (DESIGN CHOICE, log 110). -/
def execSupplyMonitorCrossing (m : Monitor) (mv : Nat) (s : State) : Out :=
  let p := s.pwr
  next (match m with
  | .vbatFull =>
    let s := s.onPwr (fun p => { p with vbat := mv })
    if p.vbatFull && mv < 5900 then crossing evVbatReduced 0 0 mv true (s.onPwr (fun p => { p with vbatFull := false }))
    else if !p.vbatFull && mv > 6100 then crossing evVbatReduced 0 0 mv false (s.onPwr (fun p => { p with vbatFull := true }))
    else s
  | .vbatOv =>
    let s := s.onPwr (fun p => { p with vbat := mv })
    if p.vbatOv && mv < 39500 then crossing evVbatOv 1 0 mv false (s.onPwr (fun p => { p with vbatOv := false })) else s
  | .vlfValid g =>
    let was := p.vlfValid.getD g false
    let s := s.onPwr (fun p => { p with vlf := p.vlf.set g mv })
    if was && mv < 5900 then groupLost g (crossing evVlfLow 1 (g + 1) mv true (s.onPwr (fun p => { p with vlfValid := p.vlfValid.set g false })))
    else if !was && mv > 6100 && g < 4 then
      crossing evVlfLow 1 (g + 1) mv false (s.onPwr (fun p => { p with vlfValid := p.vlfValid.set g true }))
    else s
  | .vlfOv g =>
    let s := s.onPwr (fun p => { p with vlf := p.vlf.set g mv })
    if p.vlfOv.getD g false && mv < 39500 then
      crossing evVlfOv 1 (g + 1) mv false (s.onPwr (fun p => { p with vlfOv := p.vlfOv.set g false })) else s
  | .vrelValid =>
    let s := s.onPwr (fun p => { p with vrel := mv })
    if p.vrelValid && mv < 5900 then
      crossing evVrelLow 1 0 mv true ((s.onPwr (fun p => { p with vrelValid := false })).onRel (fun r => { r with startA := false }))
    else if !p.vrelValid && mv > 6100 then
      let s := crossing evVrelLow 1 0 mv false (s.onPwr (fun p => { p with vrelValid := true }))
      if s.pwr.phase = .ready then energise s else s
    else s
  | .vddioValid =>
    let s := s.onPwr (fun p => { p with vddio := mv })
    if p.vddioValid && mv < 1550 then crossing evVddioLow 2 0 mv true (s.onPwr (fun p => { p with vddioValid := false }))
    else if !p.vddioValid && mv > 1620 then crossing evVddioLow 2 0 mv false (s.onPwr (fun p => { p with vddioValid := true }))
    else s)

/-- OVERVOLTAGE_TRIP (R53, R143): `group` 0 is VBAT, 1 to 4 a VLFn. The burst that uses a bridge concerned counts as not sent, and those of
a sounding stop; in any other burst the group's channels are idle no longer. -/
def execOvervoltageTrip (group mv : Nat) (s : State) : Out :=
  if mv ≤ 40500 || group > 4 || s.pwr.phase = .none then next s
  else if group = 0 then
    if s.pwr.vbatOv then next s else
    next (bridgesOff (crossing evVbatOv 1 0 mv true (s.onPwr (fun p => { p with vbatOv := true, vbat := mv }))))
  else if s.pwr.vlfOv.getD (group - 1) false then next s
  else
    let s := crossing evVlfOv 1 group mv true (s.onPwr (fun p => { p with
      vlfOv := p.vlfOv.set (group - 1) true, vlf := p.vlf.set (group - 1) mv }))
    let uses := s.lf.cur.any (fun b => b.windows.any (fun w => w.drives.any (fun d => vlfGroup d.chan + 1 = group)))
    next (soundLoses (fun c => vlfGroup c + 1 = group) (if uses then dropBurst stHwFault 12 s else
      ((List.range 48).map (· + 1)).foldl (fun s c => if vlfGroup c + 1 = group then degrade c false s else s) s))

/-- The fault limits of the internal rails, in mV (Table 3-3): 5V, AON, IO18, core, RF. -/
def railLimits : List (Nat × Nat) := [(4500, 5500), (3000, 3600), (1650, 1950), (780, 920), (1250, 1450)]

/-- The Cliff die's action (R12): every bridge high-Z, both start outputs off, FAULT_N asserted. -/
def cliffAct (s : State) : State :=
  wires ((withdrawOutputs (bridgesOff s)).onPwr (fun p => { p with cliffActed := true }))

/-- RAIL_FAULT (R55): the action of R12 and, as an F3 fault held until the next reset (R516), Stranded. In Neap only AON (1) is powered;
the stay ends in Slack first (Table 3-7). -/
def execRailFault (rail mv : Nat) (s : State) : Out :=
  match railLimits[rail]? with
  | none => next s
  | some (lo, hi) =>
    if s.pwr.phase = .none || s.pwr.phase = .supplied || (s.pwr.state = .neap && rail ≠ 1) then next s
    else if lo ≤ mv && mv ≤ hi then next (s.onPwr (fun p => { p with railBad := clrBit p.railBad rail }))
    else if bitSet s.pwr.railBad rail then next s
    else
      let s := (if s.pwr.state = .neap then leaveNeap none false s else s).onPwr (fun p => { p with railBad := setBit p.railBad rail })
      next (enterStranded true 0 false (emitF evRailFault 3 [byte rail] (byte rail :: le16 (mv / 10)) (cliffAct s)))

/-! ### Loss of supply (R71, R72) -/

/-- VBAT_LOSS (R71 steps 1 and 2): in OFF, and once the dies are held, only the supply goes; else a measurement of the holdup is abandoned until the next start-up (R57). -/
def execVbatLoss (mv : Nat) (s : State) : Out :=
  if !s.pwr.vbatValid || mv ≥ 4500 then next s
  else if s.pwr.phase = .none then next (s.onPwr (fun p => { p with vbatValid := false, vbat := mv })) else
  let vh := vholdNow s
  let s := boundaryM .vbatLoss (s.onPwr (fun p => { p with
    vbatValid := false, vbat := mv, charger := false, vhold := vh, holdBusy := false, holdSkip := p.holdSkip || p.holdBusy }))
  let s := crossing evVbatLoss 1 0 mv true s
  let s := (suspendTx (suspendBurst s)).onPwr (fun p => { p with ride := some s.clk.mono })
  let s := s.onUwb (fun u => { u with
    sessions := [], turn := [], due := u.sessions.map (fun x => (x.token, x.renewal)) ++ u.due })
  let s := updateUwb (boundaryM .frozenUwb (boundaryM .round s))
  match s.path with
  | some p => next (if p.step = .tpCharge || p.step = .tpIdent || p.step = .tpChallenge || p.step = .tpResponse then denyPath 15 s else s)
  | none => next s

/-- VBAT_RETURN (R71 step 3): within `RIDE_THROUGH` and above 8.0 mJ the ITF48 resumes; a shutdown that has begun goes on (R72). -/
def execVbatReturn (mv : Nat) (s : State) : Out :=
  if mv ≤ 5000 || s.pwr.vbatValid then next s else
  let vh := vholdNow s
  let back := fun (s : State) => s.onPwr (fun p => { p with
    vbatValid := true, vbat := mv, vhold := vh, charger := true, chargeFrom := (s.clk.mono, vh), ride := none })
  match s.pwr.ride with
  | none => next (if s.pwr.shutdown then s.onPwr (fun p => { p with vbatValid := true, vbat := mv }) else
      crossing evVbatLoss 1 0 mv false (back s))
  | some t =>
    if s.clk.mono ≥ t + 1000 * param s 0x0104 || eUsable s ≤ 8000 then next s else
    let s := crossing evVbatLoss 1 0 mv false (back s)
    let s := emit evVbatDip 0 (le32 (s.clk.mono - t)) s
    next (resendRepoll (txAgain s))

/-- The writes that have begun complete: the one in progress, and those paused between their copies (R60). -/
def finishWrites (s : State) : State :=
  let done := fun (t : Store) (w : Writing) => writeCopy true w.job (if w.aDone then t else writeCopy false w.job t)
  { s with store := { (s.store.cur.toList ++ s.store.paused).foldl done s.store with cur := none, paused := [] } }
/-- A write made from the reserve at the shutdown, under the log's condition without VBAT (R381). -/
def reserveWrite (j : Job) (s : State) : State :=
  if energyOk true j.cells (forcedErases j s.store) s then
    { s with store := writeCopy true j (writeCopy false j s.store) }
  else s
/-- The power-loss entry of the security log, written from the reserve (R71 step 4). -/
def powerLossEntry (s : State) : State :=
  let e := logEntry 0xFF 1 0xFF01 (tide s) [] s
  let s := reserveWrite { cls := 2, items := [.record 0x0080 (s.sec.logNext % 65536) (le32 s.sec.logNext ++ e)], logOnly := true }
    (s.onEvt (fun v => { v with backlog := (true, e) :: v.backlog }))
  if (logFind s.sec.logNext s).isSome then logCommitted s else s
/-- The persisted state, where its write has not committed yet (R71 step 4, R353). -/
def persistNow (s : State) : State :=
  if s.sec.breachDue then reserveWrite (breachJob s) s
  else if s.pwr.persistWanted && recBody s 0x0002 0 ≠ some [4] && recBody s 0x0002 0 ≠ some [5] then
    reserveWrite { cls := 3, items := [.record 0x0002 0 [4]], logOnly := true } s
  else s
/-- When ride-through ends, on the retained clock: after `RIDE_THROUGH`, or when E_usable has fallen to 8.0 mJ (R71). -/
def rideEnd (t : Nat) (s : State) : Nat :=
  let low := 25000000 + 1600000000000 / max 1 (cHold s)
  t + min (1000 * param s 0x0104) (((s.pwr.vhold * s.pwr.vhold - low) * cBest s + 2999999) / 3000000)
/-- RIDE_THROUGH_EXPIRY (R71 step 4): what firmware writes from the reserve, the outputs in reverse order; the Strand die stops. -/
def execRideThroughExpiry (s : State) : Out :=
  match s.pwr.ride with
  | none => next s
  | some t =>
    let s := passUs (rideEnd t s - s.clk.mono) s
    let s := finishWrites s
    let runs := s.pwr.phase = .firmware || s.pwr.phase = .ready
    let s := if runs then powerLossEntry s else s
    let s := withdrawOutputs s
    let s := if runs then persistNow s else s
    next (s.onPwr (fun p => { p with ride := none, shutdown := true, phase := .none, state := .startup, hostRdy := false, faultN := true, alarmN := false }))

/-- VHOLD_FLOOR (R71 step 5): OFF. VHOLD, which the manual only says is below 5.0 V, reads 0 from then (DESIGN CHOICE, log 109). -/
def execVholdFloor (s : State) : Out :=
  if !s.pwr.shutdown then next s else
  let z := State.reset
  let s' := restart true 4 s
  next { s' with pwr := { s'.pwr with state := .off, phase := .none, shutdown := true, vhold := 0, charger := false, faultN := z.pwr.faultN } }

/-! ### Resets (R68 to R70) -/

/-- RESET_N_ASSERT (R68): pulses shorter than 2 us are ignored. -/
def execResetNAssert (lowUs : Nat) (s : State) : Out := next (if lowUs < 2 then s else resetBy 1 s)

/-- WATCHDOG_EXPIRY (R70): its age joins the retained ones, and the count back from now is taken. -/
def execWatchdogExpiry (s : State) : Out :=
  if s.pwr.phase = .none || s.pwr.phase = .supplied then next s else
  let l := s.pwr.wdt.filter (fun t => s.clk.mono < t + 600000000) ++ [s.clk.mono]
  next (resetBy 3 (s.onPwr (fun p => { p with wdt := l, wdtSeen := (l.length, l.length ≥ 3) })))

/-- HOST_RESET (R68): once the transport has taken the response of SYS_RESET. -/
def execHostReset (s : State) : Out :=
  let waits := fun (b : Mbx) => (b.out ++ b.outPri).any (fun f => f.opcode = 0x0103)
  if !s.pwr.resetAfter || waits s.mbx || waits s.mmb then next s else next (resetBy 2 s)

/-- ISTHMUS_TRANSFER_FAIL (R11): the third failed repeat, from the moment the Isthmus is trained (Table 3-5). -/
def execIsthmusTransferFail (repeats direction kind : Nat) (s : State) : Out :=
  if repeats < 3 || !coreClock s then next s else next (f3Fault evIsthmusFail [byte direction, byte kind] s)

/-- ISTHMUS_WATCHDOG_EXPIRY (R12): 100 us without a transfer while a bridge drives or a start output is energised. -/
def execIsthmusWatchdogExpiry (s : State) : Out :=
  if s.lf.cur.isNone && (s.lf.soundMask = 0 || s.lf.soundHeld) && !s.rel.startA && !s.rel.startB then next s else next (cliffAct s)

end Sys2Proof.Machine
end

