-- ==== Sys2Proof/Machine/Clocks.lean ====
section
/-! DEFINITION. The commands of the clock domains and the tide clock (R75 to R82), of idling and Neap (R64 to R67, R94, R399). -/

namespace Sys2Proof.Machine
open Sys2Proof

/-- XTAL26_FAIL (R75): CORE runs from the backup oscillator; LF, RADIO, UWB and CAN stop; an F3 fault. -/
def execXtal26Fail (s : State) : Out :=
  if !s.clk.xtal26 || !coreClock s then next s else
  let s := s.onClk (fun c => { c with xtal26 := false, backup := true })
  let s := s.onBus (fun b => { b with bus := b.bus.zipIdx.map (fun (x, k) => if k < 2 then { x with state := 0 } else x) })
  next (updateUwb (f3Fault evXtal26Fail [] (bridgesOff s)))

/-- XTAL26_RECOVERED (R75): stable again for 10 ms. CORE returns to the crystal and the CAN controllers to their buses at once
(DESIGN CHOICE, log 95). -/
def execXtal26Recovered (s : State) : Out :=
  if s.clk.xtal26 || !coreClock s then next s else
  let s := s.onClk (fun c => { c with xtal26 := true, backup := false })
  let s := if started s then s.onBus (fun b => { b with bus := b.bus.zipIdx.map (fun (x, k) => if k < 2 then { x with state := 1 } else x) }) else s
  next (updateUwb (emitC evXtal26Fail 3 [] [] s))

/-- XTAL32_QUALIFIED (R76): after 1024 cycles, 31.25 ms, measured against a running 26 MHz. A crystal reported absent or failed may still
qualify (DESIGN CHOICE, log 96). -/
def execXtal32Qualified (s : State) : Out :=
  if s.clk.xtal32 = .off || s.clk.xtal32 = .qualified || !s.clk.xtal26 || s.pwr.state = .neap then next s
  else next ((advanceTo (s.clk.xtal32From + 31250) s).onClk (fun c => { c with xtal32 := .qualified, slowOnXtal := true }))

/-- XTAL32_ABSENT (R76): not qualified within 1 s of its start. -/
def execXtal32Absent (s : State) : Out :=
  if s.clk.xtal32 ≠ .qualifying || (s.pwr.state = .neap && now s < s.clk.xtal32From + 1000000) then next s
  else next (emit evXtal32Absent 0 [] ((advanceTo (s.clk.xtal32From + 1000000) s).onClk (fun c => { c with xtal32 := .absent })))

/-- XTAL32_FAIL (R76): SLOW returns to the RC. -/
def execXtal32Fail (s : State) : Out :=
  if s.clk.xtal32 ≠ .qualified then next s
  else next (emit evXtal32Fail 1 [] (s.onClk (fun c => { c with xtal32 := .failed, slowOnXtal := false, xtal32From := c.base })))

/-- SLOW_PERIOD_MEASURE (R77): in Slack and Flood, in units of 2^-16 us. -/
def execSlowPeriodMeasure (period : Nat) (s : State) : Out :=
  if !awake s || period = 0 then next s
  else next (s.onClk (fun c => { c with slowPeriod := period, slowMeasured := c.base }))

/-- TIDE_CORRECTION (R81, R82): a correction joins what is still to be absorbed; a positive sum steps the offset, a negative one is slewed. -/
def execTideCorrection (pAfter : Nat) (s : State) : Out :=
  if !s.clk.corrDue || !running s then next s else
  let c := roundDivI ((s.clk.edges : Int) * ((pAfter : Int) - s.clk.pBefore)) 131072
  let t0 := tide s
  let sum := c - s.clk.slew
  let s := s.onClk (fun k => { k with
    corrDue := false, offset := if sum > 0 then k.offset + sum else k.offset, slew := if sum < 0 then sum.natAbs else 0 })
  let s := if sum > 0 && tide s < t0 then emit evTideWrap 0 [] s else s
  next (emit evTideCorrected 0 (le32 (twos 32 c)) s)

/-- TIDE_SLEW_STEP (R82): the next 16th base tick of a slew. -/
def execTideSlewStep (s : State) : Out :=
  if s.clk.slew = 0 || !started s || s.pwr.state = .neap then next s else next (advanceTo ((s.clk.base / 16 + 1) * 16) s)

/-- Time runs on to the wrap of the tide clock; a slew makes it later, so what is left is taken again, a 16th at most each time. -/
def toWrap : Nat → State → State
  | 0, s => s
  | n + 1, s => let t := passUs (2 ^ 48 - tide s) s; if tide t = 0 then t else toWrap n t
/-- TIDE_WRAP (R80). -/
def execTideWrap (s : State) : Out := if !running s then next s else next (toWrap 16 s)

/-- FLOOD_IDLE_EXPIRY (R64, Table 3-7): none of its activities for `FLOOD_IDLE`. -/
def execFloodIdleExpiry (s : State) : Out :=
  if !awake s || s.pwr.state ≠ .flood || !floodIdle s || riding s then next s else
  let s := advanceTo (s.clk.floodFrom + 1000 * param s 0x0101) s
  next (mirror [.power 2] (s.onPwr (fun p => { p with state := .slack })))

/-- SLACK_IDLE_EXPIRY (R65): the conditions have held for `SLACK_IDLE`. -/
def execSlackIdleExpiry (s : State) : Out :=
  if !awake s || s.pwr.state ≠ .slack || s.pwr.neapEntry || !neapReady none s then next s else
  let s := advanceTo (s.clk.neapFrom + 100000 * param s 0x0102) s
  next (s.onPwr (fun p => { p with neapEntry := true, hostRdy := false }))

/-- Neap is entered (R65, R66, R399, R485): LIN nodes are sent to sleep, the noise sources and timers stop, and the Cliff die is
given the wake count. -/
def enterNeap (s : State) : State :=
  let s := boundaryM .neap s
  let sleepy := (List.range 4).filter (fun k => param s (0x0E11 + k) ≠ 0 && drives s && s.pwr.vbatFull)
  let s := s.onBus (fun b => { b with linTx := lastN 16 (b.linTx ++ sleepy.map (fun k => (k + 1, 0 :: List.replicate 7 0xFF))) })
  let s := s.onClk (fun c => { c with edges := 0, frac := 0, pBefore := c.slowPeriod })
  let w := wakeEdgeOf s
  let s := (s.onClk (fun c => { c with wakeEdge := w })).onRng (fun r =>
    { r with src := r.src.map (fun x => { x with running := false, passed := false }) })
  mirror [.power 1] (s.onPwr (fun p => { p with state := .neap, neapEntry := false, hostRdy := false }))
/-- NEAP_ENTRY_DONE (R65): Neap is entered only while its conditions hold; else the entry is given up. -/
def execNeapEntryDone (s : State) : Out :=
  if !s.pwr.neapEntry || !awake s then next s
  else if neapReady none s then next (enterNeap s)
  else next (neapStir (s.onPwr (fun p => { p with neapEntry := false, neapAfter := false, hostRdy := true })))

/-- SPI_CS_ASSERT (R62, R65, R94), with the SPI transport: an assertion while HOST_RDY_N is negated wakes the machine or abandons the
entry, and its transaction is discarded. -/
def execSpiCsAssert (low : Bool) (s : State) : Out :=
  if s.pwr.state = .off then next s
  else if !low then next (csEnds s)
  else if transport s ≠ 0 then next s
  else if s.pwr.hostRdy then next (s.onPwr (fun p => { p with csLow := true, csDiscard := false }))
  else
    let s := s.onPwr (fun p => { p with csLow := true, csDiscard := true })
    next (if started s then neapWake 0x40 false s else s)

/-- TIMER_MATCH (R394, R395): the running count reaches COMPARE; in the same clock `w1c` is written to STATUS
(R5) and `ctl` to the CTRL of a timer (R402). A timer that would wake the ITF48 from Neap abandons the entry (R67, R399). -/
def execTimerMatch (n : Nat) (w1c : Word) (ctl : Option (Nat × Word)) (s : State) : Out :=
  let t := timer s n
  if t.run && t.count.toNat ≤ t.compare.toNat && !timerFrozen s n t && coreClock s then
    let s := passUs (usOfTicks s t (t.compare.toNat - t.count.toNat)) s
    let s := sameClockCtrl ctl s (matchTimer n (onTimer n (writeStatus w1c) s))
    next (if n < 16 && t.ctrl.getLsbD 6 && s.pwr.neapEntry then neapWake 0x41 false s else s)
  else next s

/-- TIMER_WAKE (R399): the SLOW edge count reaches W. -/
def execTimerWake (s : State) : Out :=
  match s.clk.wakeEdge with
  | some w => if s.pwr.state ≠ .neap then next s
      else
        let n := w - s.clk.edges
        let t := s.clk.frac + n * s.clk.pBefore
        next (neapWake 0x41 false ((advanceBase (t / 65536) s).onClk (fun c => { c with frac := t % 65536, edges := c.edges + n })))
  | none => next s

end Sys2Proof.Machine
end

