-- ==== Sys2Proof/Machine/SysCmds.lean ====
section
/-! DEFINITION. The link, power and system commands (Table 6-4) and `EVT_FETCH` (R141), with the checks of `PARAM_SET`. -/

namespace Sys2Proof.Machine
open Sys2Proof

/-! ### Parameter writes (R27, R131, R132) -/

/-- The entries of a parameter command from an offset (R131): ID, value, and whether the reserved bytes are zero. -/
def paramEntries (p : Bytes) (n : Nat) : List (Nat × Nat) := (List.range n).map (fun k => (u16 p (4 + 8 * k), u32 p (8 + 8 * k)))
/-- Tones of a plan: its two parameters as eight bytes (R205). -/
def toneBytes (l : List (Nat × Nat)) (plan : Nat) : Bytes := le32 (pGet l (0x0410 + 2 * plan)) ++ le32 (pGet l (0x0411 + 2 * plan))
/-- A plan is well formed (R205): known tone codes, and nothing after the first zero. -/
def tonesOk (b : Bytes) : Bool :=
  b.all (fun x => x.toNat ≤ 0x30 || (0x80 ≤ x.toNat && x.toNat ≤ 0x8F)) && (b.dropWhile (· ≠ 0)).all (· == 0)
/-- A value's range as its row gives it, with the encodings that a range does not say (Table 9-7, `CIN_CONFIG`, R485). -/
def valueOk (id v : Nat) : Bool :=
  match pRow id with
  | none => false
  | some r =>
    let x : Int := if r.min < 0 then signed 32 v else v
    r.min ≤ x && x ≤ r.max &&
    (if 0x0409 ≤ id && id ≤ 0x040C then v = 0 || v ≥ 300000 else true) &&
    (if 0x0831 ≤ id && id ≤ 0x0838 then v < 32 && (v / 2) % 4 ≤ 2 && (!bitSet v 3 || (v / 2) % 4 = 0) else true) &&
    (if 0x0E11 ≤ id && id ≤ 0x0E14 then v % 2 = 0 else true)

/-- The CAN identifiers in use, by bus and format (R515, Table 11-12, R439). -/
def canIdents (s : State) (l : List (Nat × Nat)) (doorBuses : List Nat) : List (Nat × Bool × Nat) :=
  let g := pGet l
  let ext : Bool := g 2 == 1
  let host := if g 1 = 0 then [] else
    [(g 1, ext, g 3), (g 1, ext, g 4)] ++ (if s.pwr.cwPair then [(g 1, ext, g 3 + 1), (g 1, ext, g 4 + 1)] else [])
  let eng := if g 0x0606 = 0 then [] else [(g 0x0606, false, g 0x0607), (g 0x0606, false, g 0x0608)]
  let door := (if doorBuses.contains 1 then [(1, false, g 0x0609)] else []) ++ (if doorBuses.contains 2 then [(2, false, g 0x0609)] else [])
  let stat := if g 0x0E0E = 0 then [] else [(g 0x0E0E, false, g 0x0E0F)]
  host ++ eng ++ door ++ stat
/-- The buses that stored door records name for CAN FD. -/
def doorBuses (s : State) : List Nat :=
  (recKeys s 0x0022).filterMap (fun d => match recBody s 0x0022 d with
    | some r => if bitSet (u8 r 4) 0 then some (u8 r 5) else none
    | none => none)
/-- Entries are pairwise distinct. -/
def distinct (l : List (Nat × Bool × Nat)) : Bool :=
  match l with
  | [] => true
  | a :: r => !r.contains a && distinct r

/-- The values that would stand after a command are in order (R199, R232, R248, R480, R89, R515, R205). -/
def standOk (s : State) (l : List (Nat × Nat)) : Bool :=
  let g := pGet l
  g 0x0301 ≥ g 0x0203 + 5 && g 0x0306 ≥ g 0x0305 + 1 && g 0x0307 ≥ g 0x0304 + 5 &&
  [0, 1].all (fun k => [125, 250, 500, 1000].getD (g (0x0E01 + 2 * k)) 0 ≤ 1000 * ([1, 2, 4, 5].getD (g (0x0E02 + 2 * k)) 0)) &&
  g 0x0409 ≠ 0 && (([0x040A, 0x040B, 0x040C].map g).dropWhile (· ≠ 0)).all (· == 0) &&
  (List.range 32).all (fun p => tonesOk (toneBytes l p)) &&
  [0x0509, 0x050A].all (fun i => g i ≤ (if g 0x0501 = 0 then 231 else 187)) &&
  g 3 ≠ g 4 && (g 2 = 1 || (g 3 ≤ 0x7FF && g 4 ≤ 0x7FF)) && distinct (canIdents s l (doorBuses s))

/-- Strictness order of `RD_NO_UWB_POLICY`, 0 the strictest (R255). -/
def policyRank (v : Nat) : Nat := if v = 2 then 0 else if v = 0 then 1 else 2
/-- In FIELD a change that loosens or lowers is locked (R255, R275, R357, R487). -/
def lockedChange (old new : List (Nat × Nat)) : Bool :=
  let o := pGet old
  let n := pGet new
  [0x0510, 0x0512, 0x0514, 0x0515, 0x0517, 0x0A02].any (fun i => n i > o i) ||
  [0x0511, 0x0513, 0x0605, 0x0E16].any (fun i => n i < o i) ||
  policyRank (n 0x0516) > policyRank (o 0x0516) || (o 0x0A01 &&& n 0x0A01) ≠ o 0x0A01

/-- Values written by a command take effect by their classes (R24, R25); those in effect at once are mirrored (Table 20-5), a new carrier
detunes the channels and empties the matrix, whatever its value was (R145, R176), coexistence that is off lets the wires fall (R313), a new leak counts from now on (R167), and the ports UWB needs may be others (R253). -/
def applyParams (entries : List (Nat × Nat)) (s : State) : State :=
  let t := writeParams entries s
  let t := mirror (paramChanges s.par.active t ++ (if entries.any (fun e => e.1 == 0x0201) then [.param 0x0201 (param t 0x0201)] else [])) t
  let t := if entries.any (fun e => e.1 == 0x0201) then t.onLf (fun l => { l with retuneDue := true }) else t
  let t := txRecheck (if param t 0x0704 = 0 && t.rad.coex.1 then coexDrop t else t)
  updateUwb (settleEth (if t.lf.retuneDue && lfIdle t then retune t else t))
/-- A command's follow-up without some of its parameters. -/
def After.without (ids : List Nat) : After → After
  | .params ref l => .params ref (l.filter (fun e => !ids.contains e.1))
  | a => a
/-- A command's values take effect as it begins: no write begun before it may overwrite them at its commit (R133). -/
def overtake (entries : List (Nat × Nat)) (s : State) : State :=
  let w := fun (j : Job) => { j with after := j.after.without (entries.map (·.1)) }
  s.onStore (fun t => { t with queue := t.queue.map w, cur := t.cur.map (fun c => { c with job := w c.job }),
                               paused := t.paused.map (fun c => { c with job := w c.job }) })
/-- The stored records of parameter entries. -/
def paramItems (entries : List (Nat × Nat)) : List Item := entries.map (fun e => .record 0x0010 e.1 (le32 e.2))

/-- The parameter writes that wait for the store, in the order they began (R132, R133). -/
def waitingParams (s : State) : List (List (Nat × Nat)) :=
  ((s.store.cur.toList ++ s.store.paused).map (·.job) ++ s.store.queue).filterMap (fun j => match j.after with | .params _ l => some l | _ => none)
/-- New values are in order against what stands when they apply, whichever of the writes still waiting commits or is deferred (R89, R132). -/
def standsWith (ok : List (Nat × Nat) → List (Nat × Nat) → Bool) (e : List (Nat × Nat)) : List (List (Nat × Nat)) → List (Nat × Nat) → Bool
  | [], l => ok l (e.foldl (fun l x => pSet l x.1 x.2) l)
  | w :: r, l => standsWith ok e r l && standsWith ok e r (w.foldl (fun l x => pSet l x.1 x.2) l)
/-- What `PARAM_SET` answers before it writes: the first failing check. A payload too short for its count byte reads as count 0 (log 97). -/
def paramCheck (p : Bytes) (ref : CmdRef) (s : State) : Option Nat :=
  let n := u8 p 0
  let lim := if (s.box ref.member).ifv < 0x12 then 31 else 32
  let e := paramEntries p n
  let persist := bitSet (u8 p 1) 0
  if n = 0 || n > lim then some stBadParam
  else if p.length ≠ 4 + 8 * n then some stBadLength
  else if u8 p 1 > 1 || !zeros p 2 2 || (List.range n).any (fun k => !zeros p (6 + 8 * k) 2) then some stBadParam
  else if e.any (fun x => !valueOk x.1 x.2 || (pBound x.1 = .reset && !persist)) ||
      !standsWith (fun _ new => standOk s new) e (waitingParams s) s.par.written then some stBadParam
  else if lifecycle s = .field && (!standsWith (fun old new => !lockedChange old new) e (waitingParams s) s.par.written ||
      e.any (fun x => x.1 = 0x0402)) then some stDenied
  else if e.any (fun x => isFrozen x.1 && boundRuns s (pBound x.1)) then some stBusy
  else none

/-- PARAM_SET (R132): with `PERSIST`, values are applied only when their write commits. -/
def execParamSet (m : MbxCmd) (s : State) : Out :=
  next (runCmd 0x0105 m s (fun ref p s =>
    match paramCheck p ref s with
    | some st => respond ref st [] s
    | none =>
      let e := paramEntries p (u8 p 0)
      if bitSet (u8 p 1) 0 then queueJob { cls := 3, items := paramItems e, after := .params ref e } s
      else reply ref [] (applyParams e (overtake e s))))

/-- PARAM_GET (R131, R27); with no count byte the count reads 0 (log 97). -/
def execParamGet (m : MbxCmd) (s : State) : Out :=
  next (runCmd 0x0104 m s (fun ref p s =>
    let n := u8 p 0
    let ids := (List.range n).map (fun k => u16 p (2 + 2 * k))
    need (1 ≤ n && n ≤ (if (s.box ref.member).ifv < 0x12 then 31 else 32)) ref stBadParam s fun s =>
    needLen (2 + 2 * n) p ref s fun s =>
    need (u8 p 1 = 0 && ids.all (fun i => (pRow i).isSome)) ref stBadParam s fun s =>
    reply ref ([byte n, 0] ++ ids.flatMap (fun i => le16 i ++ [0, 0] ++ le32 (paramW s i))) s))

/-- TRANSPORT_TRIAL_EXPIRY (R89): 10 s after mailbox ready without a `HELLO` the previous setting is written to the store again, a
write like any other (R13); what follows its commit stands in StoreRows.lean. -/
def execTransportTrialExpiry (s : State) : Out :=
  match s.par.trial with
  | none => next s
  | some old =>
    if !started s || s.pwr.state = .neap || reverting s then next s else
    next (queueJob { cls := 3, items := paramItems old, after := .trial } (advanceTo (s.pwr.readyAt + 10000000) s))

/-! ### Link -/

/-- HELLO (R113, R114). With the channel closed every frame is untagged: it is plain, and handled at once ahead of any queue. With the
channel open the command is the protected form, handled when it begins. -/
def execHello (m : MbxCmd) (s : State) : Out :=
  if running s && (s.box m.member).chan.isNone && m.lane % 8 = 0 then next (hello m.member none m.tag m.payload s)
  else next (runCmd 0x0001 m s (fun ref p s => hello ref.member (some ref) ref.tag p s))

/-- The role's code (Table 6-2). -/
def Role.code : Role → Nat
  | .single => 0 | .headland => 1 | .lee => 2

/-- CAPS (Table 6-4). -/
def execCaps (m : MbxCmd) (s : State) : Out :=
  next (runCmd 0x0002 m s (fun ref p s =>
    needLen 0 p ref s fun s =>
    let b := s.sec.banks.getD s.sec.active {}
    reply ref ([0xB1, byte b.major, byte b.minor, byte ((versions s).headD 0), 0x21, 1, 3, 1, 2, 1, 2, 1, 2,
      byte (lifecycle s).code, byte s.pair.role.code, 0] ++ Config.serial) s))

/-- PING (R128). -/
def execPing (m : MbxCmd) (s : State) : Out :=
  next (runCmd 0x0003 m s (fun ref p s =>
    need (p.length ≤ 64) ref stBadLength s fun s => reply ref (le48 (tide s) ++ p) s))

/-- SECURE_OPEN (R118, R121, R367, R465). While a fatal alarm stands it does not wait (log 130). -/
def execSecureOpen (m : MbxCmd) (s : State) : Out :=
  next (runCmd 0x0010 m s (fun ref p s =>
    needLen 32 p ref s fun s =>
    let storms : Bool := match (s.box ref.member).storm with | some t => now s < t + 1000000 | none => false
    need (!storms) ref stDenied s fun s =>
    need (vaultKey s 1).isSome ref stNotInState s fun s =>
    need (!pinnedBusy s) ref stBusy s fun s =>
    need (!rngDown s) ref stRngUnavailable s fun s =>
    match draw .nonce 32 s with
    | (some nD, s) => answerOpen ref p nD s
    | (none, s) => s.onBox ref.member (fun b => { b with waitOpen := some { ref := ref, nH := p, since := now s } })))

/-- SECURE_CONFIRM (R118): the key takes over once this response is sent; a wrong proof leaves the channel as it was. -/
def execSecureConfirm (m : MbxCmd) (s : State) : Out :=
  next (runCmd 0x0011 m s (fun ref p s =>
    needLen 16 p ref s fun s =>
    match (s.box ref.member).pending with
    | none => respond ref stNotInState [] s
    | some o =>
      if o.confirmed then respond ref stNotInState [] s
      else if o.hostProof == p then reply ref [] (s.onBox ref.member (fun b => { b with pending := some { o with confirmed := true } }))
      else respond ref stAuthFail [] (s.onBox ref.member (fun b => { b with pending := none }))))

/-! ### System -/

/-- The highest class of an active fault in `SYS_STATUS`, the pseudo-entry of R460 among them; 0xFF with none (Table 6-2). -/
def topClass (s : State) : Nat :=
  let l := s.flt.active.map (·.cls) ++ (if s.flt.lost ≠ 0 then [1] else [])
  if l.isEmpty then 0xFF else l.foldl max 0

/-- SYS_STATUS (R458). -/
def execSysStatus (m : MbxCmd) (s : State) : Out :=
  next (runCmd 0x0100 m s (fun ref p s =>
    needLen 0 p ref s fun s =>
    let bits := (if (s.box ref.member).chan.isSome then 1 else 0) + (if s.path.isSome then 2 else 0) + (if sessionOpen s then 4 else 0)
    reply ref ([byte s.pwr.state.code, byte (lifecycle s).code, byte (topClass s), byte bits] ++ le48 (tide s) ++
      [byte s.paths.length, byte s.flt.active.length]) s))

/-- POWER_REQUEST (R65): Neap entry begins once the transport has taken the response. -/
def execPowerRequest (m : MbxCmd) (s : State) : Out :=
  next (runCmd 0x0101 m s (fun ref p s =>
    needLen 4 p ref s fun s =>
    need (u8 p 0 = 1 && zeros p 1 3) ref stBadParam s fun s =>
    need (awake s && neapReady (some ref) s) ref stNotInState s fun s =>
    reply ref [] (s.onPwr (fun x => { x with neapAfter := true }))))

/-- RESET_CAUSE (R70). -/
def execResetCause (m : MbxCmd) (s : State) : Out :=
  next (runCmd 0x0102 m s (fun ref p s =>
    needLen 0 p ref s fun s => reply ref ([byte s.pwr.cause, byte (sat 255 s.pwr.wdtSeen.1)] ++ le32 (startUps s)) s))

/-- SYS_RESET (R68, R69): the reset itself is HOST_RESET, 1 ms after the transport has taken the response. -/
def execSysReset (m : MbxCmd) (s : State) : Out :=
  next (runCmd 0x0103 m s (fun ref p s =>
    needLen 4 p ref s fun s =>
    need (u32 p 0 = 0xA5C35A3C) ref stBadParam s fun s =>
    reply ref [] (s.onPwr (fun x => { x with resetAfter := true }))))

/-- STRANDED_EXIT (R461). -/
def execStrandedExit (m : MbxCmd) (s : State) : Out :=
  next (runCmd 0x0106 m s (fun ref p s =>
    needLen 0 p ref s fun s =>
    need (s.pwr.state = .stranded) ref stNotInState s fun s =>
    let f3Now : Bool := match s.flt.handling with | some h => h.2 = 3 | none => false
    need (!f3Active s && !f3Now && (s.sec.reads &&& s.pwr.strandedBy) = 0 && s.pwr.vbatValid) ref stDenied s fun s =>
    let s := setPower { tag := some ref.tag } .slack (neapStir (activity (s.onPwr (fun x => { x with strandedBy := 0 }))))
    let s := if s.pwr.persistWanted then
        queueJob { cls := 3, items := [.record 0x0002 0 [2]], after := .powerState } (s.onPwr (fun x => { x with persistWanted := false }))
      else s
    reply ref [] s))

/-- The active faults, highest class first and oldest first within a class (R458). -/
def faultOrder (l : List ActiveFault) : List ActiveFault := [3, 2, 1].flatMap (fun c => l.filter (fun f => f.cls == c))

/-- FAULT_LIST (R458, R460): the pseudo-entry goes at the first list after the re-reading has ended. -/
def execFaultList (m : MbxCmd) (s : State) : Out :=
  next (runCmd 0x0107 m s (fun ref p s =>
    needLen 0 p ref s fun s =>
    let s := if s.flt.lost ≠ 0 && s.flt.reread then wires (s.onFlt (fun f => { f with lost := 0, reread := false })) else s
    let pseudo := if s.flt.lost ≠ 0 then [[0, 1] ++ le16 s.flt.lost] else []
    let ents := ((faultOrder s.flt.active).map (fun f => [byte f.source, byte f.cls] ++ le16 f.code)).take (32 - pseudo.length)
    reply ref ([byte (ents.length + pseudo.length), 0] ++ (ents ++ pseudo).flatten) s))

/-- EVT_FETCH (R141): the records of the last fetch leave the ring, then the oldest ones are returned and stay, but for completion records
that wait for the host to link again (R122, R129). Their tags retire once the response has been sent (R106). -/
def execEvtFetch (m : MbxCmd) (s : State) : Out :=
  next (runCmd 0x0900 m s (fun ref p s =>
    let b := s.box ref.member
    needLen 4 p ref s fun s =>
    need (1 ≤ u8 p 0 && u8 p 0 ≤ (if b.ifv < 0x12 then 7 else 31) && zeros p 1 3) ref stBadParam s fun s =>
    if ref.member ≠ eventBox s then reply ref [0, 0] s else
    let gone := (s.evt.ring.take b.fetched).filterMap (fun r => if r.code = evCmdDone then r.tag else none)
    let ring := s.evt.ring.drop b.fetched
    let recs := (ring.takeWhile (fun r => !(waitsForLink b r))).take (u8 p 0)
    let s := (s.onEvt (fun e => { e with ring := ring })).onBox ref.member (fun b => { b with
      fetched := recs.length, inFlight := b.inFlight.filter (fun t => !gone.contains t), muted := b.muted.filter (fun t => !gone.contains t),
      relink := b.relink.filter (fun t => !gone.contains t) })
    reply ref ([byte recs.length, if ring.length > recs.length then 1 else 0] ++ recs.flatMap EvRec.bytes) s))

end Sys2Proof.Machine
end

