-- ==== Sys2Proof/Machine/Lf.lean ====
section
/-! DEFINITION. The commands of the LF field engine (07_lf_field_engine): host bursts, soundings, channel commands, the beginning
and end of every burst, validation, diagnoses and the keeping of the model. -/

namespace Sys2Proof.Machine
open Sys2Proof

/-! ### Host commands -/

/-- A burst or sounding that the host asked for is queued or runs (R154). -/
def hostBurstBusy (s : State) : Bool :=
  (s.lf.cur.toList ++ s.lf.queued.toList).any (fun b => b.ref.isSome) || (s.lf.soundMask ≠ 0 && !s.lf.soundAuto) || s.lf.soundWait.isSome
/-- The host's bursts and soundings are refused: one is queued or runs, or a path does (R154). -/
def hostLfBusy (s : State) : Bool := s.path.isSome || hostBurstBusy s

/-- The plan of an `LF_BURST` (Table 7-1): a carrier burst measures to the end of the requested duration and then brakes (R151). Any
nonzero increment overrides the carrier (R144). -/
def hostBurst (ref : CmdRef) (p : Bytes) (s : State) : Burst × State :=
  let ds := burstDrives p
  let own := u32 p 4
  let inc := incOf s own
  if u8 p 1 = 0 then
    let brake := perUs inc (brakePer inc)
    let us := 1000 * u8 p 3 + brake
    ({ kind := .carrier, ref := some ref, windows := [{ drives := ds }], durUs := us, brakeUs := brake,
       energyUj := driveUj s inc us ds, inc := own }, s)
  else
    let tones := planTones s (u8 p 2)
    let (ws, s) := toneWindows (lfFree s + frameUs inc 3 + 500 * tones.length) inc tones s
    (wakeBurst s .wake (some ref) own 3 { drives := ds } ws (wakeFrame (slice p 8 9)) (u8 p 2), s)

/-- LF_BURST (R142, R153, R154, R166 to R170) at a Cliff die temperature: an internal burst that waits goes behind it. -/
def execLfBurst (m : MbxCmd) (temp : Int) (s : State) : Out :=
  next (runCmd 0x0200 m s (fun ref p s =>
    need (1 ≤ u8 p 0 && u8 p 0 ≤ 8) ref stBadParam s fun s =>
    needLen (20 + 4 * u8 p 0) p ref s fun s =>
    need (burstFieldsOk p) ref stBadParam s fun s =>
    need (u8 p 1 = 0 || lifecycle s = .factory || lifecycle s = .service) ref stNotInState s fun s =>
    need (!hostLfBusy s) ref stBusy s fun s =>
    let (b, s) := hostBurst ref p (cliffReads temp s)
    match lfCheck false (burstGroups b) b.energyUj b.durUs s with
    | some st => respond ref st [] s
    | none =>
      if !thermalOk s false b.energyUj then respond ref stBusy [] (thermalEvent b.energyUj b.durUs s)
      else accepted ref (s.onLf (fun l => { l with queued := some b, held := l.held.or l.queued }))))

/-- LF_CHANNEL_STATUS (R161). -/
def execLfChannelStatus (m : MbxCmd) (s : State) : Out :=
  next (runCmd 0x0201 m s (fun ref p s =>
    needLen 4 p ref s fun s =>
    let n := u8 p 0
    need (1 ≤ n && n ≤ 48 && zeros p 1 3) ref stBadParam s fun s =>
    let c := lfChan s n
    reply ref ([byte n, byte c.diag, byte c.implaus, (if c.disabled then 1 else 0)] ++ chanFields c ++ le32 (rowAge s n).1 ++
      le16 (twos 16 (max (-32768) (min 32767 c.det)))) s))

/-- LF_CHANNEL_ENABLE (R163): an enable first runs the off-state tests, which find a short to ground (bit 1 of `found`), to battery
(bit 2) or to another cable (bit 4); it takes effect at the end of the current burst. -/
def execLfChannelEnable (m : MbxCmd) (found : Nat) (s : State) : Out :=
  next (runCmd 0x0202 m s (fun ref p s =>
    needLen 4 p ref s fun s =>
    let n := u8 p 0
    let on : Bool := u8 p 1 == 1
    need (1 ≤ n && n ≤ 48 && u8 p 1 ≤ 1 && zeros p 2 2) ref stBadParam s fun s =>
    need (!on || (found &&& 0x16) = 0) ref stHwFault s fun s =>
    reply ref [] (if s.lf.cur.isSome || s.lf.soundMask ≠ 0 then s.onLf (fun l => { l with pendEnable := l.pendEnable ++ [(n, on)] }) else applyEnable n on s)))

/-- What stops a sounding of these channels, in the order of R170 (R165, R168, R169, R174). A diagnosis does not: `LF_SOUNDING` has no
`ST_HW_FAULT` (R126, log 91). A sounding has no amplitude code, so that only a cap of 0 forbids it (DESIGN CHOICE, log 114). -/
def soundCheck (chans : List Nat) (s : State) : Option Nat :=
  let perChan := chans.findSome? (fun c =>
    if (lfChan s c).disabled || s.pair.role = .lee then some stNotInState
    else if !groupValid s (vlfGroup c) then some stNotInState
    else if lfCap s c = 0 then some stRegulatory
    else none)
  match perChan with
  | some st => some st
  | none =>
    if s.pair.role = .lee then some stNotInState
    else if !lfDutyOk s false chans.length then some stRegulatory
    else if !thermalOk s false (chans.map (soundUj s)).sum then some stBusy
    else none
/-- `EV_LF_THERMAL` of a sounding that is refused or waits, with its predicted dissipation (log 89). -/
def soundThermal (chans : List Nat) (s : State) : State := thermalEvent (chans.map (soundUj s)).sum (1500 * chans.length) s

/-- LF_SOUNDING (R165). A mask that names no channel completes at once (log 26). -/
def execLfSounding (m : MbxCmd) (s : State) : Out :=
  next (runCmd 0x0203 m s (fun ref p s =>
    needLen 8 p ref s fun s =>
    need (zeros p 6 2) ref stBadParam s fun s =>
    need (!hostLfBusy s) ref stBusy s fun s =>
    let chans := (bitsOf 48 (u48 p 0)).map (· + 1)
    match soundCheck chans s with
    | some st => respond ref st [] (if st = stBusy then soundThermal chans s else s)
    | none =>
      if u48 p 0 = 0 then cmdDone ref stOk [] (accepted ref s)
      else accepted ref (beginSounding (u48 p 0) (some ref) s)))

/-- COUPLING_READ (R177, R178, Table 8-1): every column of a row. -/
def execCouplingRead (m : MbxCmd) (s : State) : Out :=
  next (runCmd 0x0303 m s (fun ref p s =>
    needLen 4 p ref s fun s =>
    let n := u8 p 0
    need (1 ≤ n && n ≤ 48 && zeros p 1 3) ref stBadParam s fun s =>
    let cl := fun (z : Int) => le16 (twos 16 (max (-32767) (min 32767 z)))
    let ent := fun (c : Nat) => match coup s n c with
      | some e => cl (inOhms (if c = n then 10 else 1000) e.re) ++ cl (inOhms (if c = n then 10 else 1000) e.im)
      | none => le16 0x8000 ++ le16 0x8000
    let (age, dt) := rowAge s n
    reply ref ([byte n, 0] ++ le32 age ++ cl dt ++ [0, 0] ++ ((List.range 48).map (· + 1)).flatMap ent) s))

/-! ### Bursts -/

/-- The plan at the front begins after the checks of R170 and R167, run again as it begins: a host burst that fails them now ends with
the status, an internal one is dropped, or waits for room in the thermal account. A diagnosis found since it was queued stops only
its channel (R162, Table 8-6). -/
def beginQueued (b : Burst) (s : State) : State :=
  let bad := (((burstGroups b).flatten.map (·.chan)).eraseDups).filter (fun c => (lfChan s c).diag ≠ 0)
  let s' := s.onLf (fun l => if l.queued.isSome then { l with queued := none } else { l with held := none })
  let refused := fun (st : Nat) (s' : State) => lfStopped (match b.ref with | some r => cmdDone r st [0] s' | none => s')
  match lfCheck false ((burstGroups b).map (fun g => g.filter (fun d => !bad.contains d.chan))) b.energyUj b.durUs s with
  | some st => refused st s'
  | none =>
    if thermalOk s false b.energyUj then bad.foldl (fun s c => degrade c false s) (startBurst b s')
    else if b.ref.isSome then refused stBusy (thermalEvent b.energyUj b.durUs s')
    else thermalEvent b.energyUj b.durUs s

/-- LF_BURST_BEGIN (R153, R154, R156) at a Cliff die temperature: the path's burst first, at a channel boundary of a sounding too, then
the plan queued; an internal burst waits while a path or a host burst is queued, a locate poll only for the path's last LF and radio step
(R230). -/
def execLfBurstBegin (temp : Int) (s : State) : Out :=
  if s.lf.cur.isSome || s.pwr.state ≠ .flood || !running s || riding s || !s.clk.xtal26 || s.pair.role = .lee then next s else
  let s := cliffReads temp (if s.lf.valid.isNone && betweenBursts s then modelCommit s else s)
  let mine : Bool := match s.path with
    | some p => !p.ended && (p.step = .toFlood || (p.step = .refresh && s.lf.valid.isNone)) && p.req.kind ≠ .transponder
    | none => false
  if mine && (s.lf.soundMask = 0 || s.lf.soundHeld) then next (beginPathBurst s) else
  if s.lf.soundMask ≠ 0 then next s else
  match s.lf.queued.or s.lf.held with
  | some b => if b.ref.isNone && (if b.kind = .locate then pathAhead s else s.path.isSome || !s.paths.isEmpty) then next s else next (beginQueued b s)
  | none => next s

/-- What follows a burst that was sent, by its kind. -/
def burstSent (b : Burst) (measured : Bool) (recs : List WinRec) (s : State) : State :=
  match b.ref, b.kind with
  | some r, _ =>
    let n := if measured then (recs.map (·.chan)).eraseDups.length else 0
    cmdDone r stOk [byte n] (emitX evLfBurstDone 0 (le48 (burstMask b)) { tag := some r.tag } s)
  | none, .wake => wakeSent (markWindows b measured recs) s
  | none, .locate => s.onZon (fun z => { z with poll := some {
      nDev := slice b.frame 5 4, plan := b.plan, version := u8 b.frame 1 / 64, at_ := now s, windows := markWindows b measured recs } })
  | none, _ => s

/-- LF_BURST_END (R156, R167, R169, R79, R173): a burst whose records were lost counts as not measured. -/
def execLfBurstEnd (energyUj overflow : Nat) (recs : List WinRec) (temp : Int) (s : State) : Out :=
  match s.lf.cur with
  | none => next s
  | some b =>
    let s := cliffReads temp (advanceTo (b.started + b.durUs) s)
    let measured := overflow = 0
    let s := queueOverflow 2 overflow s
    let recs := recs.filter (fun r => !b.lostGroups.contains (vlfGroup r.chan))
    let s := match s.lf.valid with
      | some (b0, r0) => validateBurst b0 r0 (s.onLf (fun l => { l with valid := none }))
      | none => s
    let s := finishBurst (if measured then energyUj else b.energyUj) s
    let s := burstSent b measured recs s
    next (if measured then s.onLf (fun l => { l with valid := some (b, recs) }) else s)

/-- LF_VALIDATION_DONE (R156, R158): the commit falls at the first boundary, which is now while no burst and no sounding runs. -/
def execLfValidationDone (s : State) : Out :=
  match s.lf.valid with
  | none => next s
  | some (b, recs) =>
    let s := validateBurst b recs (s.onLf (fun l => { l with valid := none }))
    next (if betweenBursts s then modelCommit s else s)

/-- LF_DRIVE_FAULT (R161, R162): a diagnosis of Table 7-7 found while the channel drives; a detuned channel only in a measurement
window. -/
def execLfDriveFault (chan bit : Nat) (s : State) : Out :=
  match s.lf.cur with
  | none => next s
  | some b =>
    if !bitSet (burstMask b) (chan - 1) || chan = 0 || !([0, 1, 2, 3, 5, 6].contains bit) ||
      (bit = 6 && !measures b (now s - b.started)) then next s
    else next (degrade chan (bit = 6) (setLfDiag chan bit s))

/-- OFF_STATE_SCAN (R161): masks of the channels found short to ground, to battery and to another cable. A scan due while a burst is
queued or sent is postponed to the next interval (Table 7-8). -/
def execOffStateScan (gnd bat cable : Nat) (s : State) : Out :=
  if !awake s || s.pair.role = .lee then next s else
  if !lfIdle s then next (postponeScan s) else
  let s := advanceTo (s.lf.lastScan + 100000 * param s 0x0206) s
  let s := boundaryM .diagScan (s.onLf (fun l => { l with lastScan := now s }))
  let one := fun (s : State) (k : Nat) =>
    let c := k + 1
    let s := [(1, gnd), (2, bat), (4, cable)].foldl (fun s (b : Nat × Nat) => if bitSet b.2 k then setLfDiag c b.1 s else s) s
    if bitSet gnd k || bitSet bat k || bitSet cable k then onChan c (fun x => { x with clean := 0 }) s
    else
      let s := onChan c (fun x => { x with clean := sat 3 (x.clean + 1) }) s
      if (lfChan s c).clean ≥ 3 then [1, 2, 4].foldl (fun s b => clrLfDiag c b s) s else s
  next ((List.range 48).foldl one s)

/-! ### Soundings -/

/-- A sounding's quantities (R165) from its fit: the channel with them, and the ring's frequency in 10 Hz. -/
def soundFit (s : State) (c : Nat) (f : RingFit) : LfChan :=
  let x := lfChan s c
  let v := s.pwr.vlf.getD (vlfGroup c) 0
  let ind := roundDiv (v * 10000000000) (f.omega * f.ampUa)
  let w0 := isqrt ((f.omega * f.omega + f.alpha * f.alpha) * 1000000)
  let res := roundDiv (w0 * 100000) 6283185307
  let r := 2 * f.alpha * ind / 10000 - x.rbr
  let coil := 10 * param s (0x0230 + c)
  { x with
    ind := ind, res := res, rdc := roundDiv r 10, q := sat 65535 (roundDiv (100 * (w0 * ind / 10000000)) r),
    cable := if coil = 0 then 65535 else sat 65534 (roundDiv (10 * (r - coil)) (param s 0x0208)),
    det := detuning res (carrierF (carrierInc s)), temp := s.lf.temp }
/-- The range tests that an automatic sounding must pass (R164, Table 7-6). -/
def soundPasses (x : LfChan) (f : RingFit) : Bool :=
  f.ampUa ≥ 5000 && 300 ≤ x.q && x.q ≤ 20000 && 50 ≤ x.rdc && x.rdc ≤ 200000 && x.det.natAbs ≤ 750

/-- A channel's sounding: the off-state tests, the ring's diagnoses, the values committed at the next boundary, its report. -/
def soundChannel (c : Nat) (f : RingFit) (gnd bat cable auto : Bool) (s : State) : State :=
  let s := [(1, gnd), (2, bat), (4, cable)].foldl (fun s (b : Nat × Bool) => if b.2 then setLfDiag c b.1 s else s) s
  let short := gnd || bat || cable
  let x := soundFit s c f
  let rings := !short && f.ampUa ≥ 5000 && 1000 ≤ x.res && x.res ≤ 30000
  let s := if short then s else if f.ampUa < 5000 then setLfDiag c 0 s else if !rings then setLfDiag c 3 s else s
  let s := if !rings then s else
    let s := if x.det.natAbs > 800 then setLfDiag c 6 s else if x.det.natAbs ≤ 750 then clrLfDiag c 6 s else s
    let s := if auto && soundPasses x f then clrDriveDiags c s else s
    s.onLf (fun l => { l with pendChan := l.pendChan ++ [(c, x)], commitDue := true })
  let y := if rings then x else lfChan s c
  let tag := if s.lf.soundAuto then none else match s.lf.soundRef, s.soundRun with | some r, _ => some r.tag | none, some r => some r.ref.tag | none, none => none
  emitT tag evLfSoundingDone 0 (byte c :: chanFields y ++ le16 (twos 16 (max (-32768) (min 32767 y.det)))) (soundDrove c s)

/-- SOUNDING_CHANNEL_DONE (R154, R165): the next channel of the sounding under way. It stops at a channel boundary while a path has LF
steps, and goes on after the last of them. -/
def execSoundingChannelDone (chan : Nat) (fit : RingFit) (gndShort batShort cableShort : Bool) (s : State) : Out :=
  let yields := pathNeedsLf s
  if chan = 0 || !bitSet s.lf.soundMask (chan - 1) || s.lf.cur.isSome || s.pwr.state ≠ .flood || !running s || riding s ||
    !s.clk.xtal26 || !groupValid s (vlfGroup chan) || (s.lf.soundHeld && yields) then next s else
  let s := soundChannel chan fit gndShort batShort cableShort s.lf.soundAuto s
  let left := clrBit s.lf.soundMask (chan - 1)
  let s := s.onLf (fun l => { l with soundMask := left, soundHeld := yields && left ≠ 0, lastEnd := now s })
  let s := if s.lf.valid.isNone && betweenBursts s then modelCommit s else s
  if left ≠ 0 then next s else next (soundOver stOk s)

/-- AUTO_SOUNDING (R164, Table 7-7): in Flood, 50 ms after the last burst, once in 60 s for a channel. -/
def execAutoSounding (chan : Nat) (s : State) : Out :=
  let c := lfChan s chan
  if chan = 0 || chan > 48 || s.pwr.state ≠ .flood || !running s || riding s || !s.clk.xtal26 || !lfIdle s || s.path.isSome ||
    !s.paths.isEmpty || s.soundRun.isSome || (c.diag &&& 0xE9) = 0 then next s
  else
    let s := advanceTo (s.lf.lastEnd + 50000) s
    let recent : Bool := match c.lastAuto with | some t => now s < t + 60000000 | none => false
    let tries := c.ovcTries.filter (fun t => now s < t + 3600000000)
    let check := soundCheck [chan] s
    if recent || (bitSet c.diag 5 && tries.length ≥ 3) || check.isSome then
      next (if !recent && check = some stBusy then soundThermal [chan] s else s)
    else
      let s := onChan chan (fun x => { x with lastAuto := some (now s), ovcTries := if bitSet c.diag 5 then tries ++ [now s] else tries }) s
      next (s.onLf (fun l => { l with soundMask := 2 ^ (chan - 1), soundAuto := true }))

/-! ### Freshness and duty -/

/-- A column of a group is due for a refresh (R171): an entry old, or measured at another temperature; an entry never measured counts
as due (log 90). -/
def columnDue (s : State) (b : Bytes) (mem : List Nat) : Bool :=
  ((gTargets b).flatMap (fun t => mem.map (fun m => (t.1, m))) ++ mem.map (fun m => (m, m))).any (fun p => match coup s p.1 p.2 with
    | some e => now s ≥ e.at_ + 100000 * param s 0x0203 || (s.lf.temp - e.temp).natAbs ≥ 80
    | none => true)

/-- KEEP_FRESH_REFRESH (R171, R154) at a Cliff die temperature: a refresh burst of a group that `LF_KEEP_FRESH` names, when no path or
host burst is queued. -/
def execKeepFreshRefresh (group : Nat) (temp : Int) (s : State) : Out :=
  if group > 15 || s.pwr.state ≠ .flood || !running s || riding s || !bitSet (param s 0x0205) group || hostLfBusy s || !s.paths.isEmpty ||
    s.lf.queued.isSome || s.lf.held.isSome then next s else
  match groupDef s group with
  | none => next s
  | some d =>
    let s := cliffReads temp s
    let mem := (remap s d).filterMap (·.2)
    if mem.isEmpty || !columnDue s d mem then next s else
    let b := refreshBurst s mem
    if (lfCheck false (burstGroups b) b.energyUj b.durUs s).isSome then next s
    else if !thermalOk s false b.energyUj then next (thermalEvent b.energyUj b.durUs s)
    else next (s.onLf (fun l => { l with queued := some b }))

/-- LF_DUTY_BIN_ROLL (R169): the minute is over; the oldest of 60 bins goes. -/
def execLfDutyBinRoll (s : State) : Out :=
  if s.pwr.state = .off then next s
  else next ((monoAt s.lf.binAt s).onLf (fun l => { l with duty := (0 :: l.duty).take 60, binAt := l.binAt + 60000000 }))

end Sys2Proof.Machine
end

