-- ==== Sys2Proof/Machine/Zones.lean ====
section
/-! DEFINITION. The commands of the zone engine (R190 to R197), synthesis groups (R179, R180), locate polls (R226) and the token
records (R135, R228). -/

namespace Sys2Proof.Machine
open Sys2Proof

/-! ### Definitions -/

/-- ZONE_WRITE (R190). -/
def execZoneWrite (m : MbxCmd) (s : State) : Out :=
  next (runCmd 0x0300 m s (fun ref p s =>
    need (u8 p 1 ≤ 1 && (u8 p 1 = 0 || u8 p 6 ≤ 8)) ref stBadParam s fun s =>
    needLen (if u8 p 1 = 0 then 4 else 28 + 4 * u8 p 6) p ref s fun s =>
    need (u8 p 0 ≤ 31 && zeros p 2 2 && (u8 p 1 = 0 || zoneOk (p.drop 4))) ref stBadParam s fun s =>
    queueJob { items := [.record 0x0020 (u8 p 0) (if u8 p 1 = 0 then [] else p.drop 4)], after := .reply ref } s))

/-- ZONE_READ (R190). -/
def execZoneRead (m : MbxCmd) (s : State) : Out :=
  next (runCmd 0x0301 m s (fun ref p s =>
    needLen 4 p ref s fun s =>
    need (u8 p 0 ≤ 31 && zeros p 1 3) ref stBadParam s fun s =>
    match zoneDef s (u8 p 0) with
    | some d => reply ref ([1, 0] ++ d) s
    | none => reply ref [0, 0] s))

/-- The members, substitutes and targets of a group definition are in order (R179, R180, Table 8-3). -/
def groupOk (p : Bytes) : Bool :=
  let n := u8 p 1
  let ms := gMembers p
  let subs := ((List.range n).map (fun k => u8 p (12 + k))).filter (· ≠ 0)
  let ts := gTargets p
  let all := ms ++ subs
  let nulls := (ts.filter (fun t => t.2.1 == 0)).length
  u8 p 0 ≤ 15 && zeros p 2 2 && zeros p (4 + n) (8 - n) && zeros p (12 + n) (8 - n) && zeros p 21 3 &&
  (all ++ ts.map (·.1)).all (fun c => 1 ≤ c && c ≤ 48) && all.eraseDups.length = all.length && r142 ms &&
  ts.all (fun t => t.2.1 ≤ 1 && (if t.2.1 = 0 then 1 ≤ t.2.2.1 && 1 ≤ t.2.2.2 && t.2.2.2 ≤ 10000
    else t.2.2.1 = 0 && 1 ≤ t.2.2.2 && t.2.2.2 ≤ 40000) && !all.contains t.1) &&
  (List.range ts.length).all (fun k => zeros p (27 + 8 * k) 1 && zeros p (30 + 8 * k) 2) &&
  (ts.map (·.1)).eraseDups.length = ts.length && ts.length - nulls = 1 && nulls ≤ n - 1

/-- SYNTH_GROUP_WRITE (R179, R180). -/
def execSynthGroupWrite (m : MbxCmd) (s : State) : Out :=
  next (runCmd 0x0302 m s (fun ref p s =>
    need (1 ≤ u8 p 1 && u8 p 1 ≤ 8 && 1 ≤ u8 p 20 && u8 p 20 ≤ 16) ref stBadParam s fun s =>
    needLen (24 + 8 * u8 p 20) p ref s fun s =>
    need (groupOk p) ref stBadParam s fun s =>
    queueJob { items := [.record 0x0021 (u8 p 0) p], after := .reply ref } s))

/-! ### Decisions and the located set -/

/-- The distance of a result and the angle of the pair that contains its port (R194, R246). -/
def resultFields (s : State) (r : Option RResult) : Bytes :=
  match r with
  | some r => le16 (r.dist.getD 0xFFFF) ++ le16 (match pairAngle s r.token ((r.port + 1) / 2) with | some x => twos 16 x.2 | none => 0x8000)
  | none => le16 0xFFFF ++ le16 0x8000

/-- ZONE_STATE (R194): masks of the last decision; without a result the age is that of the newest evidence (log 27). -/
def execZoneState (m : MbxCmd) (s : State) : Out :=
  next (runCmd 0x0304 m s (fun ref p s =>
    needLen 0 p ref s fun s =>
    let one := fun (l : Located) =>
      let r := chosenResult s l.idx
      le16 l.idx ++ le32 l.mask ++ resultFields s r ++ le16 (sat 65535 ((now s - (match r with | some r => r.at_ | none => l.newest)) / 1000))
    reply ref ([byte s.zon.located.length, 0] ++ s.zon.located.flatMap one) s))

/-- A session decision (R194, R195): revoked tokens leave, every located token is judged with hysteresis. -/
def sessionDecision (s : State) : State :=
  let s := (boundaryM .decision s).onZon (fun z => { z with lastDecision := now s })
  let s := (s.zon.located.filter (fun l => (tokenRec s l.idx).isNone)).foldl (fun s l => leaveLocated l.idx s) s
  let s := s.zon.located.foldl (fun s l => setMask l.idx (zoneMask s l false true) s) s
  mirrorLocated s

/-- ZONE_PERIOD_DECISION (R194): every `ZONE_PERIOD` while a session is open. -/
def execZonePeriodDecision (s : State) : Out :=
  if !running s || !sessionOpen s || halted s then next s
  else next (sessionDecision (advanceTo (s.zon.lastDecision + 10000 * param s 0x0304) s))

/-- ZONE_DROP_AGE_EXPIRY (R197). -/
def execZoneDropAgeExpiry (token : Nat) (s : State) : Out :=
  match locatedOf s token with
  | none => next s
  | some l =>
    if holdsSession s token || !running s then next s
    else next (leaveLocated token (advanceTo (l.newest + 100000 * param s 0x0308) s))

/-! ### Locate polls (R196, R226) -/

/-- The preamble of a locate poll, whose coils the manual does not name (log 28): the plan's first group, else its channels. -/
def locatePre (plan endAt : Nat) (s : State) : Option Window × State :=
  match planGroup s plan with
  | some g => match buildGroup g endAt (carrierInc s) s with
    | (.inr w, s) => (some w, s)
    | (.inl _, s) => (none, s)
  | none =>
    let cs := mergeCoils ((planTones s plan).filter (fun t => t < 0x80 && usable s t)) []
    (if cs.isEmpty then none else some { drives := cs.map (fun c => { chan := c, amp := min (param s 0x0202) (lfCap s c), phase := 0 }) }, s)

/-- The tone plans of the zones that open sessions rest on (R196). -/
def sessionPlans (s : State) : List Nat :=
  let zones := pathZones s .access ((s.rel.access.flatMap (·.doors)).foldl (fun n d => setBit n d.door) 0) ++
    (if s.rel.start.isSome then pathZones s .start 0 else [])
  zones.map (fun z => u8 ((zoneDef s z).getD []) 1)
/-- When the next poll on a plan is due: `ZONE_LF_INTERVAL` after the last one, and before any after the oldest report of a session's
token on it. -/
def pollDue (s : State) (plan : Nat) : Nat :=
  let every := 100000 * param s 0x0305
  let reports := (s.zon.located.filter (fun l => holdsSession s l.idx)).flatMap (fun l => (l.reports.filter (fun r => r.1 == plan)).map (·.2.1))
  let last := (s.zon.polled.filter (fun q => q.1 == plan)).map (·.2)
  match last, reports with
  | t :: _, _ => t + every
  | [], t :: r => r.foldl min t + every
  | [], [] => 0
/-- LOCATE_POLL (R196, R226, R154): every `ZONE_LF_INTERVAL` a burst of kind 1 on the plan of a session's zone, while nothing else
uses the engine; refused or waiting polls are not sent, and none at version 1, which has no reports (Table 9-1, log 28). -/
def execLocatePoll (plan : Nat) (temp : Int) (s : State) : Out :=
  if !(sessionPlans s).contains plan || param s 0x0401 ≤ 1 || !awake s || hostBurstBusy s || pathAhead s || s.lf.queued.isSome ||
    s.lf.held.isSome || s.zon.poll.isSome || riding s then next s else
  let s := advanceTo (pollDue s plan) s
  let s := s.onZon (fun z => { z with polled := z.polled.filter (fun q => q.1 ≠ plan) ++ [(plan, now s)] })
  let s := cliffReads temp (enterFlood s)
  let inc := carrierInc s
  let ver := param s 0x0401
  let sent := sentTones s plan ver
  let endAt := lfFree s + frameUs inc ver + 500 * sent.length
  match locatePre plan endAt s with
  | (none, s) => next s
  | (some pre, s) =>
    let (tones, s) := toneWindows endAt inc sent s
    let b := wakeBurst s .locate none 0 ver pre tones [] plan
    match lfCheck false (burstGroups b) b.energyUj b.durUs s with
    | some _ => next s
    | none =>
      if !thermalOk s false b.energyUj then next (thermalEvent b.energyUj b.durUs s) else
      match draw .challenge 4 s with
      | (none, s) => next s
      | (some nDev, s) =>
        let frame := wakeFrame (wakeBits ver 1 sent.length (param s 0x0402) nDev plan)
        next (s.onLf (fun l => { l with queued := some { b with frame := frame } }))

/-- LOCATE_REPORT_RECEIVED (R226): a report in the slot of its token whose MAC verifies renews the token's LF evidence; any other report of
a learned token, one whose K_s is no longer held included, is stage 5. -/
def execLocateReportReceived (slot : Nat) (body : Bytes) (s : State) : Out :=
  match s.zon.poll with
  | none => next s
  | some q =>
    if !q.opened || body.length ≠ 23 || u8 body 0 ≠ 0x13 || u8 body 1 ≠ slot || slot ≠ q.slot then next s else
    let s := rxFrame s
    let id := beNat (slice body 2 4)
    match tokenOf s id with
    | none => next s
    | some idx =>
      let kS := ((locatedOf s idx).map (·.kS)).getD []
      if !kS.isEmpty && slotFor s id q.nDev = slot && (cmac kS (3 :: q.nDev ++ slice body 2 13)).take 8 == body.drop 15 then
        let rep := (q.plan, q.at_, (slice body 6 8).map (·.toNat), u8 body 14, marksFor q.version q.windows)
        next (s.onZon (fun z => { z with located := z.located.map (fun x =>
          if x.idx = idx then { x with newest := now s, reports := x.reports.filter (fun r => r.1 ≠ q.plan) ++ [rep] } else x) }))
      else next (emit evTokenAuthFail 1 (le16 idx ++ [5]) s)

/-! ### Token records (R135, R228, R336) -/

/-- A token record's body. -/
def tokenBody (p wrapped : Bytes) : Bytes := [p.getD 2 0, p.getD 3 0, 0, p.getD 28 0] ++ slice p 4 4 ++ wrapped
/-- Token learnings that wait for their write. -/
def learning (s : State) : List (Nat × Nat) :=
  ((s.store.queue ++ s.store.cur.toList.map (·.job) ++ s.store.paused.map (·.job)).filterMap (fun j => match j.after with
    | .learned _ i d => some (i, d)
    | _ => none))

/-- TOKEN_LEARN (R228, R336): the key is wrapped under TKEK. A part without TKEK cannot wrap it and answers `ST_NOT_IN_STATE`
(log 29). A new record holds version 0 (R201). -/
def execTokenLearn (m : MbxCmd) (s : State) : Out :=
  next (runCmd 0x0400 m s (fun ref p s =>
    needLen 32 p ref s fun s =>
    let id := u32 p 4
    need (learnFieldsOk p) ref stBadParam s fun s =>
    match vaultKey s 5 with
    | none => respond ref stNotInState [] s
    | some tkek =>
      let taken := fun (i : Nat) => (tokenRec s i).isSome || (learning s).any (fun l => l.1 = i)
      need ((tokenOf s id).isNone && !(learning s).any (fun l => l.2 = id)) ref stDenied s fun s =>
      let idx := if u16 p 0 = 0xFFFF then (List.range 512).find? (fun i => !taken i) else some (u16 p 0)
      match idx with
      | none => respond ref stNoResource [] s
      | some i =>
        need (!taken i) ref stDenied s fun s =>
        let ctr := max (u32 p 24) ((ctrValue s i).getD 0)
        queueJob { items := [.record 0x0030 i (tokenBody p (keyWrap tkek (slice p 8 16))), .ctr i ctr], after := .learned ref i id } s))

/-- TOKEN_REVOKE (R135). An index without a record is out of range (log 29). -/
def execTokenRevoke (m : MbxCmd) (s : State) : Out :=
  next (runCmd 0x0401 m s (fun ref p s =>
    needLen 4 p ref s fun s =>
    match tokenRec s (u16 p 0) with
    | none => respond ref stBadParam [] s
    | some b =>
      need (zeros p 2 2) ref stBadParam s fun s =>
      queueJob { items := [.record 0x0030 (u16 p 0) []], after := .revoked ref (u16 p 0) (tokId b) } s))

/-- TOKEN_READ (R228). -/
def execTokenRead (m : MbxCmd) (s : State) : Out :=
  next (runCmd 0x0402 m s (fun ref p s =>
    needLen 4 p ref s fun s =>
    let i := u16 p 0
    need (i < 512 && zeros p 2 2) ref stBadParam s fun s =>
    match tokenRec s i with
    | none => reply ref (le16 i ++ zeroBytes 18) s
    | some b =>
      let last := ((s.lastAuth.find? (fun x => x.1 == i)).map (·.2)).getD 0
      reply ref (le16 i ++ [1, b.getD 1 0, b.getD 0 0, byte (tokVersion s i)] ++ le32 (tokId b) ++ le32 (tokCounter s i) ++ le48 last) s))

end Sys2Proof.Machine
end

