-- ==== Sys2Proof/Machine/Paths.lean ====
section
/-! DEFINITION. The path's commands (01_architecture R14 to R19, 09_tideway_protocol R203 to R227): beginning, response windows,
authentication, decision, end; and the transponder path (R279 to R283). -/

namespace Sys2Proof.Machine
open Sys2Proof

/-! ### Host commands -/

/-- PATH_START (R130, R134, R204): the trigger counts as confirmed now. A kind that is not in the table, or a trigger beyond 31, is
out of range. -/
def execPathStart (m : MbxCmd) (s : State) : Out :=
  next (runCmd 0x0600 m s (fun ref p s =>
    needLen 4 p ref s fun s =>
    need (u8 p 0 ≤ 2 && u8 p 1 ≤ 31) ref stBadParam s fun s =>
    need (paramW s 0x0402 ≠ 0) ref stNotInState s fun s =>
    let kind := match u8 p 0 with | 0 => PathKind.access | 1 => .start | _ => .locate
    let (ok, s) := pushPath { kind := kind, trigger := u8 p 1, doors := u16 p 2, ref := some ref, at_ := now s,
                              coils := (wakeMap s (u8 p 1)).2.2, fromHost := true } s
    if ok then accepted ref s else respond ref stNoResource [] s))

/-- TRANSPONDER_START (R130, R279, R283): never queued behind a path. -/
def execTransponderStart (m : MbxCmd) (s : State) : Out :=
  next (runCmd 0x0603 m s (fun ref p s =>
    needLen 4 p ref s fun s =>
    need ((u8 p 0 = 1 || u8 p 0 = 2) && u8 p 1 ≤ 1 && zeros p 2 2) ref stBadParam s fun s =>
    need (tpDiags (u8 p 0) s = 0) ref stHwFault s fun s =>
    need (s.path.isNone && s.paths.isEmpty) ref stBusy s fun s =>
    let (ok, s) := pushPath { kind := .transponder, ref := some ref, at_ := now s, fromHost := true, port := u8 p 0, identOnly := u8 p 1 = 1 } s
    if ok then accepted ref s else respond ref stBusy [] s))

/-! ### Beginning and end -/

/-- What is left of the allowance of reaching Flood (Table 1-3): of the 1.60 ms from Neap when the trigger woke the ITF48. -/
def toFloodUs (r : PathReq) (s : State) : Nat :=
  if r.neap then 1600 - (now s - r.at_) else if s.pwr.state = .flood then 0 else 300
/-- The denial that a path meets before its first step (R21, R204, R259, R279, Table 10-9): the lowest code that applies (R284). -/
def earlyDenial (s : State) (p : Path) : Option Nat :=
  let group := if param s 0x0402 = 0 then [11] else []
  let all := match p.req.kind with
    | .transponder =>
      (if !lfDutyOk s true 110 then [7] else []) ++
      (if param s 0x0516 = 2 && uwbGone s (portSet s .start 0) then [8] else []) ++
      (if tpDiags p.req.port s ≠ 0 || !s.pwr.vbatFull then [12] else [])
    | .start => (if (pathZones s .start 0).isEmpty then [4] else []) ++ (if p.group.isNone then [6] else []) ++
        (if p.noUwb then [8] else []) ++ group
    | .access => (if p.noUwb && param s 0x0516 ≠ 1 then [8] else []) ++ group
    | _ => group
  if all.isEmpty then none else some (lowest all)

/-- The path of a request, with the door map as it stands (R285); one that a denial begins takes `TP_PORT` as it stands (R286). With no zone
concerned the plan sent is free (log 8). -/
def newPath (r : PathReq) (s : State) : Path × State :=
  let r := if r.auto then { r with port := param s 0x060E } else r
  let zs := pathZones s r.kind r.doors
  let (plan, s) := match zs with
    | z :: _ => (u8 ((zoneDef s z).getD []) 1, s)
    | [] => let (v, s) := drawFree s; (v % 256, s)
  let ports := portSet s r.kind r.doors
  let tp := r.kind = .transponder
  ({ req := r, deadline := r.at_ + (if tp then 130000 else 1000 * param s 0x0601), plan := plan,
     zones := zs.foldl setBit 0, group := if r.kind = .start || r.kind = .attribution then planGroup s plan else none,
     noUwb := if tp then false else uwbGone s ports, version := param s 0x0401, slots := param s 0x0403, since := now s,
     doorMap := (List.range 16).map (recBody s 0x0022) }, s)

/-- The charge phase of the transponder exchange begins (Table 11-6), which counts 110 ms of LF duty (R279). -/
def tpBegins (s : State) : State := addLfDuty 110 (s.onPath (fun p => { p with step := .tpCharge, since := now s }))
/-- The path's first step is begun when it and what remains fit (R16), after `pre` microseconds of the way to it. The transponder exchange
is allowed 110 ms, the longest case of Table 11-6 (DESIGN CHOICE, log 93). -/
def firstStep (pre : Nat) (s : State) : State :=
  match s.path with
  | none => s
  | some p =>
    if p.req.kind = .transponder then
      (if !fits s p (pre + 110000 + 10000) then deadlinePath s else tpBegins (enterFlood s))
    else if !fits s p (pre + wakeUs s + windowUs s + 5000 + tailUs s p) then deadlinePath s
    else enterFlood s
/-- PATH_BEGIN (R16, R19, R22, R24): the next request becomes the path when no path runs. -/
def execPathBegin (s : State) : Out :=
  if !awake s || s.path.isSome || riding s || s.pair.switch_.isSome then next s else
  match nextReq s.paths with
  | none => next s
  | some r =>
    let s := updateUwb (boundaryM .path { s with paths := s.paths.erase r })
    let pre := toFloodUs r s
    let (p, s) := newPath r s
    let s := takeRelKeys { s with path := some p }
    match earlyDenial s p with
    | some d => next (denyPath d s)
    | none => next (firstStep pre s)

/-- PATH_DEADLINE_EXPIRY (R16, R71): a step overran its allowance, in ride-through too. -/
def execPathDeadlineExpiry (s : State) : Out :=
  match s.path with
  | none => next s
  | some p => if p.ended then next s else next (deadlinePath (advanceTo p.deadline s))

/-- The completion records of a path's commands (Table 6-6), the merged ones' too (R19). -/
def pathDone (p : Path) (s : State) : State :=
  (p.req.ref.toList ++ p.req.also).foldl (fun s r =>
    if p.req.kind = .transponder then
      let st := if tpDiags p.req.port s ≠ 0 then stHwFault else stOk
      cmdDone r st (le16 (p.tpIdx.getD 0xFFFF)) s
    else cmdDone r stOk (le16 (p.session.getD 0xFFFF) ++ [byte (p.outcome.getD 1)]) s) s

/-- PATH_END (R18, R239, R284, R279, R427): its bursts that have begun run on as those of a session (DEDUCED, log 120), the outcome is reported, volatile keys go, and a denied start path is followed by a transponder
path when `TP_AUTO` is 1. -/
def execPathEnd (s : State) : Out :=
  match s.path with
  | none => next s
  | some p =>
    if !p.ended then next s else
    let s := mirrorPath 3 (pathDone p s)
    let s := notifySlots 7 [byte (p.denied.getD 0)] s
    let s := (eraseVol s).onExt (fun e => { e with frames := [], step := none })
    let s := s.onUwb (fun u => { u with due := u.due.filter (·.2), sessions := u.sessions.map (fun x => { x with renewal := true }) })
    let s := serveTx (activity { s with path := none })
    if p.req.kind = .start && p.denied.isSome && p.outcome = some 1 && param s 0x060D = 1 && awake s then
      next (pushPath { kind := .transponder, at_ := p.since, auto := true } s).2
    else next s

/-! ### Response windows (R209 to R213, R216) -/

/-- The response window of a locate poll opens on the frequency its nonce selects (R226, R292). -/
def openPollWindow (q : LocPoll) (s : State) : State :=
  let s := advanceTo (q.at_ + 500) (coexLead 2 (advanceTo (q.at_ + 460) s))
  match rxOpen (freqOf s q.nDev) 2 s with
  | (false, s) => s.onZon (fun z => { z with poll := none })
  | (true, s) => s.onZon (fun z => { z with poll := some { q with opened := true } })
/-- RESPONSE_WINDOW_OPEN (R209, R16, R302, R305, R313, R419): 0.5 ms after the poll's timing reference, once no transmission of equal or
higher precedence holds the radio, at a Strand die temperature. -/
def execResponseWindowOpen (temp : Int) (s : State) : Out :=
  let s := strandReads temp s
  match s.path.filter (fun p => !p.ended && p.step = .guard && p.windowAt ≠ 0), s.zon.poll with
  | some p, _ =>
    if riding s || txHolds 1 s then next s else
    let s := advanceTo p.windowAt (coexLead 1 (advanceTo (p.windowAt - 40) s))
    if !fits s p (p.slots * twSlotUs s + 5000 + tailUs s p) then next (deadlinePath s) else
    match rxOpen p.freq 1 s with
    | (false, s) => next (denyPath 7 s)
    | (true, s) =>
      let s := notifySlots 2 ([byte p.poll, 0] ++ p.nDev ++ le48 (tide s) ++ [byte p.plan]) s
      next (s.onPath (fun p => { p with step := .window, slot := 0, slotAns := false }))
  | none, some q => if q.opened || riding s || windowOpen s || txHolds 2 s then next s else next (openPollWindow q s)
  | none, none => next s

/-- A slot of a locate poll's window ends; with the last the window closes (R226). -/
def pollSlotEnd (q : LocPoll) (s : State) : State :=
  let s := packetBoundary (advanceTo (q.at_ + 500 + (q.slot + 1) * twSlotUs s) s)
  if q.slot + 1 ≥ param s 0x0403 then serveTx (rxClose (s.onZon (fun z => { z with poll := none })))
  else s.onZon (fun z => { z with poll := some { q with slot := q.slot + 1 } })
/-- SLOT_END (R24, R79, R211, R212, R213): a slot ends the packet that it may have held; a channel that is no longer allowed denies the path
(R316). `energy`: power above -95 dBm for 1 ms; `sync`: a sync word without a valid frame; `overflow`
entries of the radio's queue were discarded (Table 4-2 row 3). The slots of a locate poll end the same way, without retry or early
close. -/
def execSlotEnd (energy sync : Bool) (overflow : Nat) (s : State) : Out :=
  match s.path.filter (fun p => p.step = .window && !p.ended), s.zon.poll.filter (·.opened) with
  | some p, _ =>
    let s := packetBoundary (queueOverflow 3 overflow (advanceTo (p.windowAt + (p.slot + 1) * twSlotUs s) s))
    let coll := p.collided || (!p.slotAns && (energy || sync))
    let s := if sync then rxFrame s else s
    if (chanOf s p.freq).isNone then next (denyPath 7 s) else
    let s := s.onPath (fun p => { p with collided := coll, slot := p.slot + 1, slotAns := false })
    if param s 0x0405 = 1 && p.req.kind ≠ .attribution && !coll && p.answers.any (fun a => a.lfMet && a.plugin.isNone && a.poll == p.poll) then
      next (serveTx (beginAuths (s.onPath (fun p => { p with early := true }))))
    else if p.slot + 1 ≥ p.slots then next (serveTx (windowEnd s)) else next s
  | none, some q => next (queueOverflow 3 overflow (pollSlotEnd q s))
  | none, none => next s

/-- The strengths meet every LF window of a zone on the plan sent (R212). -/
def meetsZone (s : State) (p : Path) (version : Nat) (codes : List Nat) : Bool :=
  let marks := marksFor version p.windows
  (bitsOf 32 p.zones).any (fun z => match zoneDef s z with
    | some d => u8 d 1 = p.plan && (zoneWindows d).all (fun w => windowHolds marks codes w 0)
    | none => false)

/-- A foreign answer (R216, R217). -/
def foreignAnswer (id slot : Nat) (s : State) : State :=
  emit evTokenForeign 0 (le32 id ++ [byte slot]) (s.onPath (fun p => { p with foreign := true, slotAns := true }))

/-- ANSWER_RECEIVED (R216, R224): the six checks in order; a valid answer replaces the token's earlier one (R213). `carrier` is the
token's carrier offset in 0.01 ppm (R305, Table 21-7). A token that its plug-in authenticates (R229) is not authenticated by Tideway too:
its ANSWER is heard and discarded (DEDUCED, log 116). -/
def execAnswerReceived (slot : Nat) (body : Bytes) (offsetNs carrier : Int) (s : State) : Out :=
  match s.path with
  | none => next s
  | some p =>
    if p.step ≠ .window || p.ended || slot ≠ p.slot then next s else
    let s := rxFrame s
    let id := beNat (slice body 2 4)
    let ver := u8 body 1
    let ctr := beNat (slice body 14 4)
    if body.length ≠ 32 || u8 body 0 ≠ 0x11 || body.getD 28 0 ≠ pollByte p.poll slot || ver ≥ 4 || !zeros body 29 3 then
      next (s.onPath (fun p => { p with collided := true, slotAns := true }))
    else if ver = 0 || ver > p.version then next (foreignAnswer id slot s)
    else match tokenOf s id with
      | none => next (foreignAnswer id slot s)
      | some idx =>
        if slotFor s id p.nDev ≠ slot then next (foreignAnswer id slot s) else
        let s := s.onPath (fun p => { p with slotAns := true })
        if bitSet (u8 ((tokenRec s idx).getD []) 1) 2 then next s
        else if ver < min (tokVersion s idx) p.version then next (emit evTokenAuthFail 1 (le16 idx ++ [3]) s)
        else if ctr ≤ tokCounter s idx then
          next (emit evTokenAuthFail 1 (le16 idx ++ [4]) (logOldCounter idx ctr (tokCounter s idx) s))
        else
          let codes := (slice body 18 8).map (·.toNat)
          let a : Ans := { idx := idx, id := id, poll := p.poll, slot := slot, nDev := p.nDev, version := ver, nTok := slice body 6 8,
                           counter := ctr, strengths := codes, pre := u8 body 26, offNs := offsetNs, lfMet := meetsZone s p ver codes }
          next ((crystalSample idx carrier s).onPath (fun p => { p with answers := p.answers.filter (fun x => x.idx ≠ idx) ++ [a] }))

/-- PLUGIN_FRAME_RECEIVED (R211, R420, R426): a frame of a type that Tideway does not define. -/
def execPluginFrameReceived (body : Bytes) (syncEnd : Nat) (offsetUs : Option Int) (s : State) : Out :=
  if body.isEmpty || body.length > 240 || halted s || !running s || [0x11, 0x12, 0x13].contains (u8 body 0) then next s else
  let inWindow : Bool := match s.path with | some p => p.step = .window && !p.ended | none => false
  let p := s.path.getD {}
  let s := if inWindow then rxFrame (s.onPath (fun p => { p with slotAns := true })) else s
  match claimant s (u8 body 0) with
  | none => next s
  | some slot =>
    let serial := s.ext.serial
    let (ok, s) := offerFrame slot body (if inWindow then pollByte p.poll p.slot else 0xFF) syncEnd offsetUs s
    if !ok then next s
    else if inWindow then next (s.onExt (fun e => { e with frames := e.frames ++ [(serial, p.slot, p.poll, offsetUs.getD 0)] }))
    else if s.ext.step.isSome then next (s.onExt (fun e => { e with frames := e.frames ++ [(serial, 255, 255, (syncEnd : Int))] }))
    else next s

/-! ### Authentication (R219) -/

/-- PROOF_RECEIVED (R219): a correct P_tok completes the authentication, a wrong one is stage 1. -/
def execProofReceived (body : Bytes) (offsetNs : Int) (s : State) : Out :=
  match s.path with
  | none => next s
  | some p =>
    match p.cur with
    | none => next s
    | some a =>
      if p.step ≠ .challenge || p.ended || p.cDev.isEmpty || body.length ≠ 10 || u8 body 0 ≠ 0x12 || body.getD 1 0 ≠ pollByte a.poll a.slot then next s
      else match tokenKey s a.idx with
        | none => next (authGone a s)
        | some k =>
          let s := rxFrame s
          let kS := sessionKey k a
          let (_, pTok) := proofs kS (transcript (param s 0x0402) a p.cDev)
          if pTok == body.drop 2 then next (nextAuth (authenticated a (some kS) offsetNs a.version a.slot s))
          else next (nextAuth (emit evTokenAuthFail 1 (le16 a.idx ++ [1]) s))

/-- PROOF_TIMEOUT (R219): the first silence repeats CHALLENGE when R16 admits it, otherwise stage 2. -/
def execProofTimeout (s : State) : Out :=
  match s.path with
  | none => next s
  | some p =>
    match p.cur with
    | none => next s
    | some a =>
      if p.step ≠ .challenge || p.ended || p.cDev.isEmpty || p.stepEnd = 0 || riding s then next s
      else if (tokenKey s a.idx).isNone then next (authGone a s) else
      let s := advanceTo p.stepEnd s
      if !p.repeated && fits s p (5000 + tailUs s p) then
        next (transmitChallenge a p.cDev p.pDev (s.onPath (fun p => { p with repeated := true })))
      else next (nextAuth (emit evTokenAuthFail 1 (le16 a.idx ++ [2]) s))

/-- PATH_ZONE_DECISION (R15, R16, R194): once every commit and every ranging burst is over. -/
def execPathZoneDecision (s : State) : Out :=
  match s.path with
  | none => next s
  | some p =>
    if p.ended || !pathSettled p || riding s then next s
    else if !fits s p (1000 + signalUs s p) then next (deadlinePath s)
    else next (decidePath s)

/-! ### The transponder exchange (R280 to R283, Table 11-6) -/

/-- The running transponder path at a step. -/
def tpAt (st : PathStep) (s : State) : Option Path :=
  match s.path with
  | some p => if p.step = st && !p.ended && p.req.kind = .transponder then some p else none
  | none => none

/-- TP_OPEN_CHECK (R283): 2 ms into the charge phase a current below 20 mA diagnoses the port open and ends the path. -/
def execTpOpenCheck (currentMa : Nat) (s : State) : Out :=
  match tpAt .tpCharge s with
  | none => next s
  | some p =>
    if currentMa ≥ 20 then next s else next (denyPath 12 (tpFault p.req.port 3 false (advanceTo (p.since + 2000) s)))

/-- TP_CHARGE_END (Table 11-6): 50 ms of charge. IDENT is awaited for 1 ms. -/
def execTpChargeEnd (s : State) : Out :=
  match tpAt .tpCharge s with
  | none => next s
  | some p =>
    let s := advanceTo (p.since + 50000) s
    let s := s.onLf (fun l => { l with lastEnd := now s })
    next (s.onPath (fun p => { p with step := .tpIdent, stepEnd := now s + 1000, since := now s }))

/-- The exchange fails (R282). -/
def tpFail (s : State) : State := denyPath 15 s
/-- The transponder CHALLENGE (Table 11-5): the command, C and their CRC. -/
def tpFrameOf (c : Bytes) : Bytes := (0x5A :: c) ++ beBytes 2 (crc16 0x1021 0xFFFF (0x5A :: c))
/-- How long a downlink frame lasts (R280), in us: 16 carrier periods for a 0, 24 for a 1, and the closing gap of 6. -/
def tpFrameUs (frame : Bytes) : Nat :=
  let ones := (frame.map (fun b => (bitsOf 8 b.toNat).length)).sum
  ((16 * 8 * frame.length + 8 * ones + 6) * 10000 + 1341) / 1342
/-- CHALLENGE is sent (R280, R281): C is drawn; without random numbers the path waits for them. What remains of the exchange ends
10 ms before the deadline, which the release has (R16, R22), or is not begun. After the check, the recharge, the frame and the token's
time to compute, RESPONSE is awaited for 1 ms (Table 11-6). -/
def tpChallenge (s : State) : State :=
  if !s.path.any (fun p => fits s p (46000 + 10000)) then deadlinePath s else
  match draw .challenge 16 s with
  | (none, s) => (rngDenies s).getD (s.onPath (fun p => { p with step := .tpChallenge }))
  | (some c, s) => s.onPath (fun p => { p with
      step := .tpResponse, cReq := c, tpFrame := tpFrameOf c, stepEnd := now s + 500 + 1000 + tpFrameUs (tpFrameOf c) + 5000 + 1000, since := now s })

/-- TP_IDENT_RECEIVED (R281): sync to CRC, 12 bytes; the four checks in order. Identify-only ends after the first two. -/
def execTpIdentReceived (frame : Bytes) (s : State) : Out :=
  match tpAt .tpIdent s with
  | none => next s
  | some p =>
    let body := slice frame 1 9
    let id := beNat (slice frame 1 4)
    let ctr := beNat (slice frame 5 4)
    if frame.length ≠ 12 || u8 frame 0 ≠ 0x7E || crc16 0x1021 0xFFFF body ≠ beNat (slice frame 10 2) then next (tpFail s)
    else match tokenOf s id with
      | none =>
        let s := emit evTokenForeign 0 (le32 id ++ [0xFF]) s
        if p.req.identOnly then next (closePath 1 none s) else next (tpFail s)
      | some idx =>
        let s := s.onPath (fun p => { p with tpIdx := some idx, tpId := id, tpCounter := ctr })
        if p.req.identOnly then next (closePath 0 (some 0) s)
        else if !bitSet (u8 ((tokenRec s idx).getD []) 1) 1 then next (tpFail (emit evTokenAuthFail 1 (le16 idx ++ [6]) s))
        else if ctr ≤ tokCounter s idx then
          next (tpFail (emit evTokenAuthFail 1 (le16 idx ++ [4]) (logOldCounter idx ctr (tokCounter s idx) s)))
        else next (tpChallenge s)

/-- TP_RESPONSE_RECEIVED (R281, R282): sync, R and CRC, 11 bytes. A passing R authenticates the token; the counter commits and the
grant follows. -/
def execTpResponseReceived (frame : Bytes) (s : State) : Out :=
  match tpAt .tpResponse s with
  | none => next s
  | some p =>
    let idx := p.tpIdx.getD 0xFFFF
    let r := slice frame 1 8
    if !fits s p 10000 then next (deadlinePath s)
    else if frame.length ≠ 11 || u8 frame 0 ≠ 0x7E || crc16 0x1021 0xFFFF r ≠ beNat (slice frame 9 2) then
      next (tpFail (emit evTokenAuthFail 1 (le16 idx ++ [2]) s))
    else match tokenKey s idx with
      | none => next (tpFail s)
      | some k =>
        if r == (cmac k (8 :: beBytes 4 p.tpId ++ beBytes 4 p.tpCounter ++ p.cReq)).take 8 then
          next ((authenticated { idx := idx, id := p.tpId, counter := p.tpCounter, version := 3 } none 0 3 0xFF s).onPath (fun p =>
            if p.ended then p else { p with step := .commitRange }))
        else next (tpFail (emit evTokenAuthFail 1 (le16 idx ++ [1]) s))

/-- TP_SYNC_TIMEOUT (R282): no sync within 1.00 ms of the carrier stopping. -/
def execTpSyncTimeout (s : State) : Out :=
  match tpAt .tpIdent s, tpAt .tpResponse s with
  | some p, _ => next (tpFail (advanceTo p.stepEnd s))
  | none, some p =>
    next (tpFail (emit evTokenAuthFail 1 (le16 (p.tpIdx.getD 0xFFFF) ++ [2]) (advanceTo p.stepEnd s)))
  | none, none => next s

/-- A transponder path that waited for random numbers goes on. -/
def resumeTp (s : State) : State := match tpAt .tpChallenge s with | some _ => tpChallenge s | none => s

end Sys2Proof.Machine
end

