-- ==== Sys2Proof/Machine/Ranging.lean ====
section
/-! DEFINITION. The commands of UWB ranging (10_ranging_and_relay_defence R233 to R256): bursts, rounds, reflectometry. -/

namespace Sys2Proof.Machine
open Sys2Proof

/-- UWB_PORT_STATUS (R235): the last reflectometry's delay and its age; before the first one in this run the delay in use. -/
def execUwbPortStatus (m : MbxCmd) (s : State) : Out :=
  next (runCmd 0x0500 m s (fun ref p s =>
    needLen 0 p ref s fun s =>
    let one := fun (n : Nat) =>
      let x := s.uwb.ports.getD (n - 1) {}
      let (d, at_) := x.shown.getD (delayOf s n, 0)
      [byte (if portEnabled s n then x.state else 0), 0] ++ le16 d ++ le16 (sat 65535 (roundDiv (d * param s 0x0507 * 29979245800) 100000000000000)) ++
        le16 (sat 65535 ((now s - at_) / 1000000))
    reply ref ([1, 2, 3, 4].flatMap one) s))

/-- UWB_REFLECTOMETRY (R237): the ports of an automatic run under way are measured with those asked for. -/
def execUwbReflectometry (m : MbxCmd) (s : State) : Out :=
  next (runCmd 0x0501 m s (fun ref p s =>
    needLen 4 p ref s fun s =>
    need (u8 p 0 ≤ 15 && zeros p 1 3) ref stBadParam s fun s =>
    need (s.uwb.sessions.isEmpty && s.uwb.reflRef.isNone && !s.soundRun.any (fun r => bitSet r.left 3)) ref stBusy s fun s =>
    if u8 p 0 = 0 then cmdDone ref stOk [] (accepted ref s)
    else accepted ref (s.onUwb (fun u => { u with refl := u.refl ||| u8 p 0, reflRef := some ref }))))

/-- Puts the newer results first. -/
def newestFirst (l : List RResult) : List RResult :=
  l.foldl (fun (acc : List RResult) r => acc.takeWhile (fun x => x.at_ ≥ r.at_) ++ [r] ++ acc.dropWhile (fun x => x.at_ ≥ r.at_)) []

/-- RANGING_STATUS (R246). -/
def execRangingStatus (m : MbxCmd) (s : State) : Out :=
  next (runCmd 0x0502 m s (fun ref p s =>
    needLen 0 p ref s fun s =>
    let l := (newestFirst (s.zon.located.filterMap (fun l => chosenResult s l.idx))).take 4
    reply ref ([byte l.length, 0] ++ l.flatMap (fun r =>
      le16 r.token ++ resultFields s (some r) ++ [byte r.quality, byte r.rounds] ++ le32 (sat 0xFFFFFFFF ((now s - r.at_) / 1000)))) s))

/-! ### Bursts (R238 to R241) -/

/-- RENEWAL_BURST_DUE (R196, R240): a session token's burst falls due. -/
def execRenewalBurstDue (token : Nat) (s : State) : Out :=
  match locatedOf s token with
  | none => next s
  | some l =>
    if !awake s || !holdsSession s token || l.kS.isEmpty || uwbGoneAll s || s.uwb.due.any (fun d => d.1 = token) ||
        s.uwb.sessions.any (fun x => x.token = token) then next s
    else next ((enterFlood s).onUwb (fun u => { u with due := u.due ++ [(token, true)] }))

/-- The burst served next (R239): path bursts in authentication order, then renewals in token index order. -/
def nextDue (s : State) : Option (Nat × Bool) :=
  match s.uwb.due.find? (fun d => !d.2) with
  | some d => some d
  | none => s.uwb.due.foldl (fun (b : Option (Nat × Bool)) d => match b with
      | some x => if d.1 < x.1 then some d else some x
      | none => some d) none

/-- The session key a burst rests on, and the ports of its rounds. -/
def burstKey (s : State) (token : Nat) (renewal : Bool) : Bytes × List Nat :=
  if renewal then
    (((locatedOf s token).map (·.kS)).getD [],
     ((zonePorts s (definedZones s) false).filter (portUsable s)).flatMap (fun p => List.replicate (param s 0x0506) p))
  else match s.path with
    | some p => (((p.auths.find? (fun a => a.ans.idx == token)).map (·.kS)).getD [],
        (portSet s p.req.kind p.req.doors).flatMap (fun q => List.replicate (param s 0x0505) q))
    | none => ([], [])

/-- A path's ranging of a token is over. -/
def markRanged (token : Nat) (s : State) : State :=
  s.onPath (fun p => { p with auths := p.auths.map (fun a => if a.ans.idx = token then { a with ranged := true } else a) })

/-- UWB is available to a burst (R238, R253): to a path by its port set, to a session altogether. -/
def burstGone (s : State) (renewal : Bool) : Bool :=
  if renewal then uwbGoneAll s
  else s.path.all (fun p => uwbGone s (portSet s p.req.kind p.req.doors))
/-- The instant at which a renewal's RANGE_START is sent (R243): now inside the announced window, or at the first multiple of the
interval whose window is not over. -/
def announcedAt (s : State) (token : Nat) : Nat :=
  match s.uwb.announced.find? (fun a => a.1 == token) with
  | none => now s
  | some (_, t, ms) =>
    let k := if now s ≤ t + 3000 then 0 else (now s - t - 3000 + 1000 * ms - 1) / max 1 (1000 * ms)
    let d := t + 1000 * ms * k
    if now s + 1000 < d then d else now s
/-- The turns with a session that has just begun (R239): the sessions in the order they began, from the one whose turn it is. -/
def turnWith (turn begun : List Nat) (new : Nat) : List Nat :=
  match turn.head? with
  | some h => begun.dropWhile (· ≠ h) ++ [new] ++ begun.takeWhile (· ≠ h)
  | none => [new]
/-- RANGE_START (Table 10-3) goes out and the session opens (R238, R241): the next-burst field announces `ZONE_PERIOD` unless the path
is locate-only (log 30). -/
def openBurst (token : Nat) (renewal : Bool) (kS seed : Bytes) (plan : List Nat) (s : State) : State :=
  let id := ((tokenRec s token).map tokId).getD 0
  let locate : Bool := match s.path with | some p => !renewal && p.req.kind = .locate | none => false
  let ms := if locate then 0 else 10 * param s 0x0304
  let head := [0x40, 1] ++ beBytes 4 id ++ seed ++ [byte plan.length, 0] ++ beBytes 2 ms
  s.onUwb (fun u => { u with
    lastStart := (let p := head ++ (cmac kS (7 :: head)).take 8; p ++ fcs p),
    opened := u.opened + 1,
    turn := turnWith u.turn (u.sessions.map (·.num)) u.opened,
    announced := u.announced.filter (fun a => a.1 ≠ token) ++ (if ms = 0 then [] else [(token, now s + 1000 * ms, ms)]),
    sessions := u.sessions ++ [{ num := u.opened, token := token, renewal := renewal, seed := seed, kSts := cmac kS (4 :: seed),
                                 vUpper := (cmac kS (5 :: seed)).take 12, kRep := cmac kS (6 :: seed), plan := plan }] })
/-- RANGING_BURST_BEGIN (R238, R239, R243): the burst served next finds a free session, a seed from the STS wire, UWB available and
no port under reflectometry. A path's burst that no longer fits ends its path (R16). -/
def execRangingBurstBegin (token : Nat) (s : State) : Out :=
  match nextDue s with
  | none => next s
  | some (t, renewal) =>
    if t ≠ token || s.uwb.sessions.length ≥ 4 || s.pwr.state ≠ .flood || !running s || riding s || (s.uwb.refl ≠ 0 && !s.uwb.reflHeld) then next s else
    let drop := fun (s : State) => s.onUwb (fun u => { u with due := u.due.filter (fun d => d.1 ≠ token) })
    let (kS, plan) := burstKey s token renewal
    if kS.isEmpty || plan.isEmpty || burstGone s renewal || (tokenRec s token).isNone || (renewal && !holdsSession s token) then next (if renewal then drop s else markRanged token (drop s))
    else if !renewal && !s.path.any (fun p => fits s p (rangingUs s (portSet s p.req.kind p.req.doors) + 1000 + signalUs s p)) then
      next (deadlinePath (drop s))
    else
      match draw .sts 16 s with
      | (none, s) => next s
      | (some seed, s) => next (openBurst token renewal kS seed plan (drop (if renewal then advanceTo (announcedAt s token) s else s)))

/-- A token's ranging session: the one whose round runs, else the one whose turn it is, else its first (R256). -/
def sessOf (s : State) (token : Nat) : Option RSess :=
  let l := s.uwb.sessions.filter (fun x => x.token == token)
  (l.find? (·.cur.isSome)).orElse (fun _ => (l.find? (fun x => s.uwb.turn.head? == some x.num)).orElse (fun _ => l.head?))
/-- Changes a session. -/
def onSess (num : Nat) (f : RSess → RSess) (s : State) : State :=
  s.onUwb (fun u => { u with sessions := u.sessions.map (fun x => if x.num = num then f x else x) })
/-- A block of 16 bytes of the STS generator (R241): AES-128 under K_sts of V_upper and the counter, `k` blocks on from where it stands. -/
def stsBlock (x : RSess) (k : Nat) : Bytes := aesEnc x.kSts (x.vUpper ++ beBytes 4 (x.sts + k))

/-! ### Rounds (R242 to R246) -/

/-- A burst ends (R246): every port's outcome, the token's newest evidence when a port has a result (R197), and its keys erased. A revoked
token's results are discarded. -/
def endRanging (x : RSess) (s : State) : State :=
  let s := s.onUwb (fun u => { u with sessions := u.sessions.filter (fun y => y.num ≠ x.num), turn := u.turn.filter (· ≠ x.num) })
  let ports := (List.range 5).filter (fun p => x.rounds.any (fun r => r.port == p))
  let outs := if (tokenRec s x.token).isNone then [] else ports.map (fun p => portOutcome s x.token p x.rounds)
  let s := outs.foldl (fun s o => rangeEvent o (s.onUwb (fun u => { u with
    results := u.results.filter (fun r => !(r.token == o.token && r.port == o.port)) ++ [o] }))) s
  let s := s.onZon (fun z => { z with located := z.located.map (fun l =>
    if l.idx = x.token && outs.any (·.dist.isSome) then { l with newest := now s } else l) })
  let s := if x.renewal then s else markRanged x.token s
  updateUwb (if s.uwb.sessions.isEmpty then boundaryM .frozenUwb s else s)

/-- RANGING_ROUND_START (R239, R241, R242): the next planned round of the session whose turn it is, on its port; rounds planned on a port
that is no longer usable are not made (R234). The STS generator's counter passes the 32 blocks of each of the round's four frames with an
STS (Table 10-4, log 94). -/
def execRangingRoundStart (token port : Nat) (s : State) : Out :=
  match sessOf s token with
  | none => next s
  | some x =>
    if s.uwb.sessions.any (·.cur.isSome) || s.uwb.turn.head? ≠ some x.num || x.plan.head? ≠ some port || riding s then next s
    else if !portUsable s port then
      let left := x.plan.filter (portUsable s)
      if left.isEmpty then next (endRanging x s) else next (onSess x.num (fun x => { x with plan := left }) s)
    else next (onSess x.num (fun x => { x with
      cur := some { num := x.count, port := port, since := now s, delayPs := delayOf s port, stsMin := paramW s 0x0511, fpMax := paramW s 0x0512 },
      count := x.count + 1, plan := x.plan.tail, sts := x.sts + 128 }) s)

/-- Changes the round that a token's session runs. -/
def onRound (token : Nat) (f : RSess → Round → Round) (s : State) : State :=
  match sessOf s token with
  | none => s
  | some x => onSess x.num (fun x => { x with cur := x.cur.map (f x) }) s
/-- UWB_RESPONSE_RECEIVED (R245): STS quality, first-path difference in ps, the two times, and the phase difference. -/
def execUwbResponseReceived (token quality fpPs tround1 treply2 : Nat) (phase : Option Int) (s : State) : Out :=
  next (onRound token (fun _ r =>
    if r.resp then r else { r with resp := true, quality := min 255 quality, fpPs := fpPs, tround1 := tround1, treply2 := treply2, phase := phase }) s)

/-- UWB_REPORT_RECEIVED (R245, Table 10-1): a PSDU of 20 bytes and their FCS is counted when the FCS holds, its round number is that of the
round and its MAC verifies. -/
def execUwbReportReceived (token : Nat) (psdu : Bytes) (s : State) : Out :=
  let payload := psdu.take 20
  next (onRound token (fun x r =>
    if psdu.length = 22 && psdu.drop 20 == fcs payload && u8 payload 0 = 0x41 && u8 payload 1 = r.num &&
        (cmac x.kRep (payload.take 12)).take 8 == payload.drop 12 then
      { r with report := some (beNat (slice payload 2 5), beNat (slice payload 7 5)) }
    else r) s)

/-- The round as computed (R244, R245, R248), by the limits that stood as it began (R257). -/
def roundDone (s : State) (r : Round) : Round :=
  match r.report with
  | some (reply1, round2) =>
    if !r.resp then r else
    let ok := r.quality ≥ r.stsMin && r.fpPs ≤ 10 * r.fpMax
    let fs := tofFs r.tround1 round2 reply1 r.treply2
    { r with valid := ok, dist := some (distOf fs r.delayPs (s.uwb.ports.getD (r.port - 1) {}).internal),
             angle := if ok then r.phase.bind (angleOf s r.port) else none }
  | none => r

/-- RANGING_ROUND_END (R79, R240, R242): 1.6 ms after its start; the next session has its turn. One repeat round serves a port with
fewer than 2 valid rounds; a revoked token's burst ends with the round (R256). `overflow` entries of the queue to firmware were discarded in the round (Table 4-2 row 4). -/
def execRangingRoundEnd (token overflow : Nat) (s : State) : Out :=
  match sessOf s token with
  | none => next s
  | some x =>
    match x.cur with
    | none => next s
    | some r =>
      let s := queueOverflow 4 overflow (advanceTo (r.since + 1600) s)
      let done := roundDone s r
      let rounds := x.rounds ++ [done]
      let s := match clockRatio done with | some v => crystalSample token v s | none => s
      let s := updateUwb ((boundaryM .round s).onUwb (fun u => { u with turn := u.turn.tail ++ u.turn.take 1 }))
      if (tokenRec s token).isNone then next (endRanging { x with cur := none, rounds := rounds } s)
      else if !x.plan.isEmpty then next (onSess x.num (fun x => { x with cur := none, rounds := rounds }) s)
      else
        let weak := if x.renewal || x.repeated then none else
          (List.range 5).find? (fun p => portUsable s p && rounds.any (fun r => r.port == p) && (rounds.filter (fun r => r.port == p && r.valid)).length < 2)
        match weak with
        | some p => next (onSess x.num (fun x => { x with cur := none, rounds := rounds, plan := [p], repeated := true }) s)
        | none => next (endRanging { x with cur := none, rounds := rounds } s)

/-- Every open and due burst ends without results. -/
def dropBursts (s : State) : State :=
  let toks := (s.uwb.sessions.map (·.token)) ++ (s.uwb.due.map (·.1))
  let s := s.onUwb (fun u => { u with sessions := [], due := [], turn := [] })
  toks.foldl (fun s t => markRanged t s) (updateUwb (boundaryM .frozenUwb (boundaryM .round s)))
/-- UWB_SELFTEST_FAIL (R253): UWB becomes unavailable; open bursts end without results. -/
def execUwbSelftestFail (s : State) : Out :=
  if !started s then next s else
  next (dropBursts (s.onUwb (fun u => { u with failed := true })))

/-! ### Reflectometry (R235 to R237) -/

/-- REFLECTOMETRY_AUTO (R237). -/
def execReflectometryAuto (port : Nat) (s : State) : Out :=
  let x := s.uwb.ports.getD (port - 1) {}
  if port = 0 || port > 4 || !portEnabled s port || s.pwr.state ≠ .flood || !running s || s.path.isSome || !s.paths.isEmpty ||
      !s.uwb.sessions.isEmpty || !s.uwb.due.isEmpty || s.uwb.reflRef.isSome || s.soundRun.isSome then next s
  else if (storedDelay s port).isSome && now s < x.at_ + 3600000000 * param s 0x0508 then next s
  else next (s.onUwb (fun u => { u with refl := setBit u.refl (port - 1) }))

/-- The state of Table 10-2. -/
def reflState (rho : Int) : Nat := if rho.natAbs < 50 then 4 else if rho ≥ 600 then 2 else if rho ≤ -600 then 3 else 1

/-- The command that reflectometry runs for. -/
def reflTag (s : State) : Option Nat :=
  match s.uwb.reflRef with
  | some r => some r.tag
  | none => (s.soundRun.filter (fun r => bitSet r.left 3)).map (·.ref.tag)
/-- A port's result (R235, R236): a good one is committed when none is stored or it agrees with the previous good one; a write that was
deferred is tried again otherwise. -/
def portMeasured (port st d : Nat) (s : State) : State :=
  let x := s.uwb.ports.getD (port - 1) {}
  let agrees : Bool := match x.prevGood with | some g => (d - g) + (g - d) ≤ 50 | none => false
  let commit := st = 1 && ((storedDelay s port).isNone || agrees)
  let s := s.onUwb (fun u => { u with refl := clrBit u.refl (port - 1), ports := modAt u.ports (port - 1) (fun y => { y with
    state := st,
    prevGood := if st = 1 then some d else y.prevGood, shown := some (d, now s) }) })
  let s := match if commit then some d else x.delay with
    | some v => queueJob { items := [.record 0x0052 port (le16 v)], after := .cable port v } s
    | none => s
  updateUwb (emitT (reflTag s) evUwbCable (if st = 2 || st = 3 then 1 else 0) ([byte port, byte st] ++ le16 d) s)
/-- REFLECTOMETRY_PORT_DONE (R235 to R237): `roundTripPs` is the time to the first reflection, of coefficient `rhoPermille`. Bursts that
wait for the transceiver come before the remaining ports. -/
def execReflectometryPortDone (port : Nat) (rhoPermille : Int) (roundTripPs : Nat) (s : State) : Out :=
  let busy := !s.uwb.sessions.isEmpty || (s.uwb.reflHeld && !s.uwb.due.isEmpty)
  if port = 0 || !bitSet s.uwb.refl (port - 1) || busy || s.pwr.state ≠ .flood || riding s || !s.clk.xtal26 then next s else
  let st := reflState rhoPermille
  let s := portMeasured port st (if st = 4 then 0 else sat 65535 (roundTripPs / 2 - (s.uwb.ports.getD (port - 1) {}).internal)) s
  if s.uwb.refl ≠ 0 then next (s.onUwb (fun u => { u with reflHeld := !u.due.isEmpty })) else
  let s := boundaryM .refl (s.onUwb (fun u => { u with reflHeld := false }))
  match s.uwb.reflRef with
  | some r => next (cmdDone r stOk [] (s.onUwb (fun u => { u with reflRef := none })))
  | none => next (soundPart 3 ([1, 2, 3, 4].any (fun p => portEnabled s p && (let x := (s.uwb.ports.getD (p - 1) {}).state; x = 2 || x = 3))) s)

end Sys2Proof.Machine
end

