-- ==== Sys2Proof/Machine/Release.lean ====
section
/-! DEFINITION. The release commands (11_release_and_immobiliser R258 to R278): sessions, door records, timeouts, release frames,
ENGINE_STATUS and the start outputs. -/

namespace Sys2Proof.Machine
open Sys2Proof

/-! ### Host commands -/

/-- SESSION_END (R262, R265): an ID that names no open session ends none. -/
def execSessionEnd (m : MbxCmd) (s : State) : Out :=
  next (runCmd 0x0601 m s (fun ref p s =>
    needLen 4 p ref s fun s =>
    need (zeros p 2 2) ref stBadParam s fun s =>
    let id := u16 p 0
    if id = 0xFFFF then reply ref [] (closeAll 3 (some ref.tag) s)
    else
      let s := closeAccess id 3 (some ref.tag) s
      reply ref [] (match s.rel.start with | some t => if t.id = id then closeStart 3 (some ref.tag) s else s | none => s)))

/-- SESSION_STATUS (Table 6-6). -/
def execSessionStatus (m : MbxCmd) (s : State) : Out :=
  next (runCmd 0x0602 m s (fun ref p s =>
    needLen 0 p ref s fun s =>
    let acc := s.rel.access.map (fun a =>
      le16 a.id ++ [0, 0] ++ le16 (a.doors.foldl (fun k d => setBit k d.door) 0) ++ le16 a.token ++
        le32 ((a.doors.map (fun d => (d.due - now s) / 1000)).foldl max 0))
    let st := s.rel.start.toList.map (fun t => le16 t.id ++ [1, 0] ++ le16 0 ++ le16 t.driver ++ le32 ((t.due - now s) / 1000))
    reply ref ([byte (acc.length + st.length), 0] ++ (acc ++ st).flatten) s))

/-- START_WITHDRAW (R134, R265). -/
def execStartWithdraw (m : MbxCmd) (s : State) : Out :=
  next (runCmd 0x0604 m s (fun ref p s => needLen 0 p ref s fun s => reply ref [] (closeStart 3 (some ref.tag) s)))

/-- A door record's fields lie within their values (Table 11-1). -/
def doorFieldsOk (s : State) (r : Bytes) : Bool :=
  let ch := u8 r 4
  let src := u8 r 10
  let idx := u8 r 11
  u32 r 0 ≠ 0 && 1 ≤ ch && ch ≤ 7 &&
  (if bitSet ch 0 then 1 ≤ u8 r 5 && u8 r 5 ≤ 2 else u8 r 5 = 0) &&
  (if bitSet ch 1 then 1 ≤ u8 r 6 && u8 r 6 ≤ 4 && 1 ≤ u8 r 7 && u8 r 7 ≤ 15 else u8 r 6 = 0 && u8 r 7 = 0) &&
  (if bitSet ch 2 then u8 r 8 ≤ 7 && (s.bus.pins.getD (u8 r 8) {}).function = 1 else u8 r 8 = 0xFF) &&
  u8 r 9 ≤ 100 && src ≤ 3 &&
  (match src with | 0 => idx = 0 | 1 => 1 ≤ idx && idx ≤ 8 | 2 => idx = 0 | _ => idx ≤ 15) &&
  u16 r 12 ≤ 600 && zeros r 14 2

/-- DOOR_MAP_WRITE (R258, R515). -/
def execDoorMapWrite (m : MbxCmd) (s : State) : Out :=
  next (runCmd 0x0605 m s (fun ref p s =>
    need (u8 p 1 ≤ 1) ref stBadParam s fun s =>
    needLen (if u8 p 1 = 0 then 4 else 20) p ref s fun s =>
    let r := p.drop 4
    let buses := doorBuses s ++ (if bitSet (u8 r 4) 0 then [u8 r 5] else [])
    need (u8 p 0 ≤ 15 && zeros p 2 2 && (u8 p 1 = 0 || (doorFieldsOk s r && distinct (canIdents s s.par.written buses))))
      ref stBadParam s fun s =>
    queueJob { items := [.record 0x0022 (u8 p 0) (if u8 p 1 = 0 then [] else r)], after := .reply ref } s))

/-! ### Timeouts and frames -/

/-- DOOR_TIMEOUT (R262, R285). `opening`: a door of the same session opens on the same base tick, and the opening prevails; its source's
own command follows. -/
def execDoorTimeout (door : Nat) (opening : Bool) (s : State) : Out :=
  match s.rel.access.find? (fun a => a.doors.any (fun d => d.door == door)) with
  | none => next s
  | some a =>
    let s := advanceTo (((a.doors.find? (fun d => d.door == door)).map (·.due)).getD 0) s
    next (if opening then closeAccess a.id 0 none s else dropDoor door s)

/-- START_TIMEOUT (R265). -/
def execStartTimeout (s : State) : Out :=
  match s.rel.start with
  | none => next s
  | some t => next (closeStart 1 none (advanceTo t.due s))

/-- GPIO_PULSE_END (R261). -/
def execGpioPulseEnd (pin : Nat) (s : State) : Out :=
  match s.rel.pulses.find? (fun p => p.1 == pin) with
  | none => next s
  | some p =>
    let s := (advanceTo p.2 s).onRel (fun r => { r with pulses := r.pulses.filter (fun q => q.1 ≠ pin) })
    next (if pinWanted s pin then s else relPin pin false s)

/-- RELEASE_REPEAT (R274). -/
def execReleaseRepeat (s : State) : Out :=
  match s.rel.start with
  | none => next s
  | some t =>
    let s := startFrame true (advanceTo t.nextRepeat s)
    next (s.onRel (fun r => { r with start := r.start.map (fun t => { t with nextRepeat := t.nextRepeat + 1000 * t.repeatMs }) }))

/-- RELEASE_FRAME_TIMEOUT (R274): the oldest release frame that the controller of CAN1 or CAN2 could not send within 5 ms is
abandoned. -/
def execReleaseFrameTimeout (bus : Nat) (s : State) : Out :=
  if !running s || bus = 0 || bus > 2 then next s else
  match (s.bus.canTx ++ s.bus.canWait).find? (fun f => f.bus == bus && f.rel) with
  | none => next s
  | some f =>
    let s := s.onBus (fun b => b.canWait.foldl (fun b x => if x = f then b else canPut x b) { b with canTx := b.canTx.erase f, canWait := [] })
    next (busDiag (bus - 1) 5 false (advanceTo (f.at_ + 5000) s))

/-! ### Engine state (R265, R266, R276) -/

/-- ENGINE_STATUS (R275, R276, Table 11-4): a rejected frame is only counted. An open session keeps its bus, identifier and key. -/
def execEngineStatus (f : Bytes) (s : State) : Out :=
  let (bus, ident, key) := match s.rel.start with
    | some t => (t.bus, t.rxIdent, t.key)
    | none => (param s 0x0606, param s 0x0608, vaultKey s 3)
  if !running s || bus = 0 || !canUp s bus then next s else
  let reject := s.onBus (fun b => { b with rejected :=
    if bus = 1 then (sat 255 (b.rejected.1 + 1), b.rejected.2) else (b.rejected.1, sat 255 (b.rejected.2 + 1)) })
  let echo := beNat (slice f 2 4)
  match key, s.rel.firstSent, s.rel.lastSent with
  | some k, some lo, some hi =>
    if f.length ≠ 16 || u8 f 1 > 3 || !zeros f 6 2 || echo < lo || echo > hi ||
        (cmac k (beBytes 4 ident ++ f.take 8)).take 8 ≠ f.drop 8 then next reject
    else
      let s := s.onRel (fun r => { r with engVer := some (max 1 (u8 f 0)) })
      let s := s.onRel (fun r => { r with engine := (r.engine.1, bitSet (u8 f 1) 1) })
      let s := if ignInput s = 0 then ignitionReads (bitSet (u8 f 1) 1) s else s
      if runInput s ≠ 0 then next s
      else if !bitSet (u8 f 1) 0 then next (s.onRel (fun r => { r with engine := (false, r.engine.2) }))
      else match s.rel.start with
        | some t => if echo < t.openFresh then next s else next (runningConfirmed s)
        | none => next (runningConfirmed s)
  | _, _, _ => next reject

/-- RUN_INPUT_CONFIRMED (R266): the `REL_RUN_INPUT` contact has been asserted for 100 ms. -/
def execRunInputConfirmed (s : State) : Out :=
  let x := contact s (runInput s)
  if runInput s = 0 || !running s || !x.asserted then next s else next (runningConfirmed (advanceTo (x.since + 100000) s))

/-! ### Start outputs (R268, R269, Table 11-2) -/

/-- An output's diagnoses, bit k for code k, and whether an open was found only while on. Output 0 is START_A, 1 START_B. -/
def outDiag (s : State) (out : Nat) : Nat × Bool := if out = 0 then s.rel.diagA else s.rel.diagB
/-- Sets the diagnoses and the count of clean checks. -/
def setOutDiag (out : Nat) (d : Nat × Bool) (clean : Nat) (s : State) : State :=
  s.onRel (fun r => if out = 0 then { r with diagA := d, clean := (clean, r.clean.2) } else { r with diagB := d, clean := (r.clean.1, clean) })
/-- A diagnosis is detected: reported once (R46); an open found again while off is no longer an on-state open only. -/
def outFound (out code : Nat) (on : Bool) (s : State) : State :=
  let cur := outDiag s out
  let t := setOutDiag out (setBit cur.1 code, if code ≠ 3 then cur.2 else if bitSet cur.1 3 then cur.2 && on else on) 0 s
  if bitSet cur.1 code then t else emitF evStartOutputDiag 1 [byte out, byte code] [byte out, byte code] t
/-- An output's off-state check, whose diagnosis is 0 when it is clean: an open clears at once, a short after three clean checks. -/
def outChecked (out code : Nat) (s : State) : State :=
  let cur := outDiag s out
  if code ≠ 0 then outFound out code false s
  else if cur.1 = 0 then s
  else
    let n := (if out = 0 then s.rel.clean.1 else s.rel.clean.2) + 1
    let gone := (bitsOf 4 cur.1).filter (fun k => k = 3 || n ≥ 3)
    let left := gone.foldl clrBit cur.1
    gone.foldl (fun s k => emitC evStartOutputDiag 1 [byte out, byte k] [byte out, byte k] s)
      (setOutDiag out (left, cur.2 && bitSet left 3) (if left = 0 then 0 else n) s)

/-- START_OUTPUT_CHECK (R268): every 1 s in Slack, Flood and Stranded, and 2 ms after a withdrawal: START_A's ball above 3.0 V without and
with the test source, START_B's below 0.5 V and below 1.5 V, each on an output that is off. A member that does not drive runs none
(Table 20-1). -/
def execStartOutputCheck (aBat aOpen bGnd bOpen : Bool) (s : State) : Out :=
  if !drives s || !(awake s || (started s && s.pwr.state = .stranded)) then next s else
  let s := advanceTo s.rel.checkAt s
  let s := s.onRel (fun r => { r with checkAt := now s + 1000000 })
  let s := if s.rel.startA then s else outChecked 0 (if aBat then 2 else if aOpen then 3 else 0) s
  next (if s.rel.startB then s else outChecked 1 (if bGnd then 1 else if bOpen then 3 else 0) s)

/-- START_OUTPUT_FAULT (R268, R269): `kind` 1 the current limit, which turns the output off for the session and names START_A's
short to ground or START_B's short to battery; 3 an open load, which leaves it on. -/
def execStartOutputFault (output kind : Nat) (s : State) : Out :=
  let on := if output = 0 then s.rel.startA else s.rel.startB
  if output > 1 || !on || !running s then next s
  else if kind = 3 then next (outFound output 3 true s)
  else
    let s := s.onRel (fun r =>
      if output = 0 then { r with startA := false, start := r.start.map (fun t => { t with aKilled := true }) }
      else { r with startB := false, start := r.start.map (fun t => { t with bKilled := true }) })
    next (outFound output (if output = 0 then 1 else 2) true s)

end Sys2Proof.Machine
end

