-- ==== Sys2Proof/Machine/Radio.lean ====
section
/-! DEFINITION. The sub-GHz radio's commands (12_sub_ghz_radio): records, calibration, transmissions, tuner, coexistence, duty. -/

namespace Sys2Proof.Machine
open Sys2Proof

/-! ### Records (R287 to R289, R306) -/

/-- The stored regulatory record's lock (R289): byte 416 of record 0x0050. -/
def regLocked (s : State) : Bool := match recBody s 0x0050 0 with | some b => u8 b 416 = 1 | none => false
/-- The entries of a list differ. -/
def distinctNat : List Nat → Bool
  | [] => true
  | a :: r => !r.contains a && distinctNat r
/-- The checks of R288 on 416 bytes. -/
def regOk (r : Bytes) : Bool :=
  let b := u8 r 1
  let count := ((List.range b).map (fun k => u16 r (18 + 8 * k))).sum
  u8 r 0 = 1 && 1 ≤ b && b ≤ 8 && 1 ≤ u32 r 4 && u32 r 4 ≤ 3600000 && u32 r 8 ≤ 3600000 &&
  zeros r (12 + 8 * b) (64 - 8 * b) && count ≤ 256 && u32 r 412 = crc32c (r.take 412) &&
  (List.range b).all (fun k =>
    let f := u32 r (12 + 8 * k)
    let n := u16 r (18 + 8 * k)
    300000 ≤ f && 1 ≤ u16 r (16 + 8 * k) && 1 ≤ n && n ≤ 256 && f + (n - 1) * u16 r (16 + 8 * k) ≤ 960000) &&
  distinctNat (chanFreqs r) &&
  (List.range 256).all (fun n =>
    if n < count then -40 ≤ signed 8 (u8 r (108 + n)) && signed 8 (u8 r (108 + n)) ≤ 32
    else !maskAllows r n && u8 r (108 + n) = 0)
/-- A PROVISIONED rewrite only tightens (Table 12-3). -/
def regTightens (old new : Bytes) : Bool :=
  slice old 0 2 = slice new 0 2 && slice old 12 64 = slice new 12 64 && u32 new 4 ≤ u32 old 4 && u32 new 8 ≤ u32 old 8 &&
  (List.range 256).all (fun n => (!maskAllows new n || maskAllows old n) && signed 8 (u8 new (108 + n)) ≤ signed 8 (u8 old (108 + n))) &&
  (List.range 48).all (fun c => u8 new (364 + c) ≤ u8 old (364 + c))

/-- REG_RECORD_WRITE (R288, R289). -/
def execRegRecordWrite (m : MbxCmd) (s : State) : Out :=
  next (runCmd 0x0702 m s (fun ref p s =>
    let old := recBody s 0x0050 0
    let lc := lifecycle s
    need (lc = .factory || lc = .provisioned) ref stNotInState s fun s =>
    needLen 416 p ref s fun s =>
    need (regOk p) ref stBadParam s fun s =>
    need (lc = .factory || !regLocked s) ref stDenied s fun s =>
    need (lc = .factory || (match old with | some b => regTightens b p | none => true)) ref stDenied s fun s =>
    queueJob { items := [.record 0x0050 0 (p ++ [if regLocked s then 1 else 0])], after := .regRecord ref } s))

/-- REG_RECORD_READ (R287): the stored record; without one there is none to return (log 32). -/
def execRegRecordRead (m : MbxCmd) (s : State) : Out :=
  next (runCmd 0x0703 m s (fun ref p s =>
    needLen 0 p ref s fun s =>
    match recBody s 0x0050 0 with
    | some b => reply ref (b.take 416) s
    | none => respond ref stNotInState [] s))

/-- The fields of a power table (Table 12-7). -/
def powerTableOk (t : Bytes) : Bool :=
  let target := fun (i : Nat) => signed 8 (u8 t (4 * i))
  (List.range 32).all (fun i => -40 ≤ target i && target i ≤ 32 && u8 t (4 * i + 1) ≤ 3 && u8 t (4 * i + 3) = 0) &&
  (List.range 31).all (fun i => target i < target (i + 1))
/-- POWER_TABLE_WRITE (R306). -/
def execPowerTableWrite (m : MbxCmd) (s : State) : Out :=
  next (runCmd 0x0701 m s (fun ref p s =>
    needLen 128 p ref s fun s =>
    need (powerTableOk p) ref stBadParam s fun s =>
    queueJob { items := [.record 0x0051 0 p], after := .powerTable ref } s))

/-- RADIO_STATUS (R289, R295, R309, R310, R315). -/
def execRadioStatus (m : MbxCmd) (s : State) : Out :=
  next (runCmd 0x0700 m s (fun ref p s =>
    needLen 0 p ref s fun s =>
    let n := ((s.rad.cal.map (·.chan)).filter (calUsable s)).length
    let dts := ((workingSet s).filter (calUsable s)).filterMap (fun c =>
      (s.rad.cal.find? (fun e => e.chan == c)).map (fun e => s.rad.temp - e.temp))
    let dt := dts.foldl (fun (b : Int) x => if x.natAbs > b.natAbs then x else b) 0
    let reg := if (recBody s 0x0050 0).isNone then 0 else if regLocked s then 2 else 1
    reply ref (le16 n ++ [byte (tunerCode s), byte s.rad.vswr] ++ le32 (radDutyUsed s) ++ le16 (twos 16 dt) ++ [byte reg, 0]) s))

/-! ### Calibration -/

/-- RADIO_CAL_RUN (R298, Table 12-10): one at a time. -/
def execRadioCalRun (m : MbxCmd) (s : State) : Out :=
  next (runCmd 0x0704 m s (fun ref p s =>
    needLen 4 p ref s fun s =>
    need (u16 p 0 ≤ 255 && 1 ≤ u16 p 2 && u16 p 2 ≤ 256) ref stBadParam s fun s =>
    let want := match s.rad.reg with
      | some r => (List.range 256).filter (fun n => u16 p 0 ≤ n && n < u16 p 0 + u16 p 2 && maskAllows r n)
      | none => []
    need (!want.isEmpty) ref stRegulatory s fun s =>
    need s.rad.calRef.isNone ref stBusy s fun s =>
    accepted ref (s.onRad (fun r => { r with calReq := want, calRef := some ref }))))

/-- The duration of a calibration step, in us (Table 12-4). -/
def calStepUs (k : Nat) : Nat := [70, 40, 35, 23, 10].getD k 0
/-- A scheduled response window opens within `us` (R299). -/
def windowSoon (s : State) (us : Nat) : Bool :=
  s.path.any (fun p => !p.ended && p.step = .guard && p.windowAt ≠ 0 && p.windowAt < now s + us) ||
  s.zon.poll.any (fun q => !q.opened && q.at_ + 500 < now s + us)
/-- Nothing bars scheduled low-precedence radio work of `us` microseconds (R299). -/
def radioGap (s : State) (us : Nat) : Bool :=
  s.pwr.state = .flood && awake s && !riding s && s.clk.xtal26 && s.rad.reg.isSome && s.rad.tx.isNone && !packetRuns s && !windowSoon s (us + 25)

/-- RADIO_BG_CAL_STEP (R298, R299): the next step of the calibration under way, or the first of the next entry; `temp` is the Strand
die temperature read. -/
def execRadioBgCalStep (temp : Int) (s : State) : Out :=
  let s := strandReads temp s
  match s.rad.run with
  | some r => if r.mandatory || r.stepFrom.isSome || !radioGap s (calStepUs r.step) then next s
      else next (s.onRad (fun x => { x with run := some { r with stepFrom := some (now s) } }))
  | none =>
    if !radioGap s (calStepUs 0) then next s else
    match nextCal s with
    | some n => next (s.onRad (fun x => { x with run := some { chan := n, stepFrom := some (now s) } }))
    | none => next s

/-- What a step finds goes into its field of the shadow entry (Table 12-4); `dc` are the DC-offset codes of step 4. -/
def calField (step value : Nat) (dc : List Nat) (c : CalEntry) : CalEntry :=
  match step with
  | 0 => { c with vco := value % 64 }
  | 1 => { c with kvco := value % 256 }
  | 2 => { c with gain := value % 1024 }
  | 3 => { c with iq := value % 65536, dc := (List.range 8).map (fun k => dc.getD k 0) }
  | _ => { c with pa := value % 64 }
/-- A mandatory calibration is over: the receiver has its channel, or the transmission's checks are made again (R301, Table 12-5). -/
def mandatoryDone (chan : Nat) (s : State) : State :=
  match s.rad.tx with
  | none => if packetRuns s then hopTo chan s else s
  | some tx =>
    let (st, s) := txAfterCal s
    if st = stOk then s else serveTx (txEnded tx st s)
/-- The wires rise 40 us before a mandatory calibration ends, 28 us into its third step (R313, Table 12-9). -/
def coexEarly (r : CalRun) (from_ : Nat) (s : State) : State :=
  match s.rad.tx with
  | some t => if r.mandatory && r.step = 2 && param s 0x0704 = 1 && !s.rad.coex.1 then coexRaise t.prec (advanceTo (from_ + 28) s) else s
  | none => s
/-- RADIO_CAL_STEP_DONE (R293, R301): `value` and `dc` are what the step found. A mandatory calibration runs on to its fifth step. -/
def execRadioCalStepDone (value : Nat) (dc : List Nat) (s : State) : Out :=
  match s.rad.run with
  | none => next s
  | some r =>
    match r.stepFrom with
    | none => next s
    | some t =>
      let s := coexEarly r t s
      let s := advanceTo (t + calStepUs r.step) s
      let r := { r with shadow := calField r.step value dc r.shadow, step := r.step + 1,
                        stepFrom := if r.mandatory then some (now s) else none }
      if r.step < 5 then next (s.onRad (fun x => { x with run := some r }))
      else
        let s := storeCal r s
        next (if r.mandatory then mandatoryDone r.chan s else s)

/-- HOP_LOCK_FAIL (R296, Table 12-5): the entry of the hop goes and a mandatory calibration follows. -/
def execHopLockFail (chan : Nat) (s : State) : Out :=
  if s.rad.locked ≠ some chan || !calUsable s chan then next s else
  match s.rad.tx with
  | none => if packetRuns s then next (mandatoryCal chan (invalidateCal chan s)) else next s
  | some t =>
    if t.chan ≠ chan || (t.radiating && now s > t.since + 20) then next s else
    next (mandatoryCal chan ((invalidateCal chan s).onRad (fun r => { r with tx := some { t with radiating := false, waiting := true } })))

/-! ### Transmissions -/

/-- RADIO_TEST_TX (R301, Table 12-10): a path, a window, a test or a feeder sounding comes first. -/
def execRadioTestTx (m : MbxCmd) (temp : Int) (s : State) : Out :=
  next (runCmd 0x0705 m s (fun ref p s =>
    needLen 8 p ref s fun s =>
    need (300000 ≤ u32 p 0 && u32 p 0 ≤ 960000 && u8 p 4 ≤ 31 && u8 p 5 ≤ 1 && 1 ≤ u16 p 6 && u16 p 6 ≤ 1000) ref stBadParam s fun s =>
    need (s.path.isNone && s.zon.poll.isNone && s.rad.tx.all (fun t => t.prec > 3) && !s.soundRun.any (fun r => bitSet r.left 2)) ref stBusy s fun s =>
    let (st, s) := txRequest { freq := u32 p 0, asked := u8 p 4, airUs := 1000 * u16 p 6, prec := 3, ref := some ref, modulated := u8 p 5 = 1 } (strandReads temp s)
    if st = stOk || st = stAccepted then accepted ref s else respond ref st [] s))

/-- RADIO_TX_REQUEST (R301): `freq` in kHz, `power` a power table index, `prec` the precedence. -/
def execRadioTxRequest (freq power airUs prec : Nat) (temp : Int) (s : State) : Out :=
  if !running s then next s
  else next (txRequest { freq := freq, asked := power, airUs := airUs, prec := prec } (strandReads temp s)).2

/-- A tuner acquisition has converged (R307). -/
def acquired (band vswr : Nat) (s : State) : State :=
  let (codes, s) := drawCodes s
  onTuner band (fun x => { x with codes := codes, state := tunerAfter s x.state vswr, high := 0, over_ := 0 }) (s.onRad (fun r => { r with vswr := sat 255 vswr }))
/-- RADIO_PACKET_END (R306, R307, R309, R311): `vswr` in tenths and `fwd`, the forward power in 0.01 dB from the entry's target, are
what the coupler measured. An acquisition probe's search has converged. -/
def execRadioPacketEnd (vswr : Nat) (fwd : Int) (s : State) : Out :=
  match s.rad.tx with
  | none => next s
  | some t =>
    if !t.radiating || (t.prec = 3 && t.ref.isSome) then next s else
    let s := advanceTo (t.since + t.airUs) s
    match t.probe with
    | some b => next (serveTx (acquired b vswr (endTx s)))
    | none => next (serveTx (txEnded t stOk (endTx (tunerPacket (bandOf s t.chan) vswr (paMeasured t fwd s)))))

/-- RADIO_TEST_TX_END (R301, R306, R307). -/
def execRadioTestTxEnd (vswr : Nat) (fwd : Int) (s : State) : Out :=
  match s.rad.tx with
  | none => next s
  | some t =>
    if !t.radiating || t.prec ≠ 3 || t.ref.isNone then next s else
    let s := advanceTo (t.since + t.airUs) s
    next (serveTx (txEnded t stOk (endTx (tunerPacket (bandOf s t.chan) vswr (paMeasured t fwd s)))))

/-- TUNER_ACQUIRE (R307, R308, R311): the probe of an acquisition that is due begins, at entry 0 on the band's first allowed channel. -/
def execTunerAcquire (band : Nat) (temp : Int) (s : State) : Out :=
  let s := strandReads temp s
  let t := tunerOf s band
  let due := (t.state = 0 && s.rad.band = some band) || t.high ≥ 3 || (s.rad.mismatch && t.state = 4)
  match (List.range 256).find? (fun n => allowed s n && bandOf s n = band) with
  | none => next s
  | some c =>
    if param s 0x0707 = 0 || !due || s.pair.role = .lee || !radioGap s 200 || s.rad.run.any (·.mandatory) ||
      (t.last ≠ 0 && now s < t.last + 1000000) then next s else
    let f := (chanFreqs (s.rad.reg.getD [])).getD c 0
    let (st, s) := txRequest { freq := f, asked := 0, airUs := 200, prec := 4, probe := some band } s
    if st = stOk || st = stAccepted then next (onTuner band (fun x => { x with last := now s }) s) else next s

/-! ### Coexistence and duty -/

/-- COEX_GRANT_ASSERT (R313, R303): a waiting transmission begins; a REPOLL that found no grant is sent again. -/
def execCoexGrantAssert (s : State) : Out :=
  let s := s.onRad (fun r => { r with grant := true })
  match s.rad.tx with
  | some t => if t.waiting && !s.rad.run.any (·.mandatory) then next (txResume s) else next s
  | none => next (resendRepoll s)

/-- COEX_GRANT_NEGATE (R314). -/
def execCoexGrantNegate (s : State) : Out :=
  let s := s.onRad (fun r => { r with grant := false })
  match s.rad.tx with
  | some t =>
    if !t.radiating || param s 0x0704 ≠ 1 then next s else
    let s := emit evCoexAbort 0 (le32 t.freq) (s.onRad (fun r => { r with lastTx := stBusy }))
    next (serveTx (txEnded t stBusy (endTx s)))
  | none => next s

/-- COEX_WAIT_EXPIRY (R313). -/
def execCoexWaitExpiry (s : State) : Out :=
  match s.rad.tx with
  | some t =>
    if !t.waiting || s.rad.grant || param s 0x0704 ≠ 1 || s.rad.run.any (·.mandatory) then next s else
    let s := advanceTo (t.since + 10 * param s 0x0705) s
    next (serveTx (txEnded t stBusy (endTx (s.onRad (fun r => { r with lastTx := stBusy })))))
  | none => next s

/-- RADIO_DUTY_BIN_ROLL (R315): the minute is over; the oldest of 60 bins goes. -/
def execRadioDutyBinRoll (s : State) : Out :=
  if s.pwr.state = .off then next s
  else next ((monoAt s.rad.binAt s).onRad (fun r => { r with duty := (0 :: r.duty).take 60, binAt := r.binAt + 60000000 }))

end Sys2Proof.Machine
end

