-- ==== Sys2Proof/Machine/Sense.lean ====
section
/-! DEFINITION. Handle sensing, contact inputs and wake sources (13_capacitive_sensing_and_wake, R318 to R329; R483). -/

namespace Sys2Proof.Machine
open Sys2Proof

/-- Capacitive channel `c`. -/
def capChan (s : State) (c : Nat) : CapChan := s.sen.cap.getD c {}
/-- Changes a capacitive channel. -/
def onCap (c : Nat) (f : CapChan → CapChan) (s : State) : State := s.onSen (fun x => { x with cap := modAt x.cap c f })
/-- Changes a contact input. -/
def onContact (n : Nat) (f : Contact → Contact) (s : State) : State := s.onSen (fun x => { x with cin := modAt x.cin (n - 1) f })
/-- `SENSE_TOUCH_TH` of a channel. -/
def touchTh (s : State) (c : Nat) : Nat := param s (0x0811 + c)
/-- `CIN_CONFIG` of an input. -/
def cinConfig (s : State) (n : Nat) : Nat := param s (0x0830 + n)
/-- The channel is scanned. -/
def capOn (s : State) (c : Nat) : Bool := c < 16 && bitSet (param s 0x0801) c
/-- The guard of a channel, 0 or 1, is diagnosed shorted. -/
def guardBad (s : State) (c : Nat) : Bool := (s.sen.guards.getD (c / 8) (false, 0)).1
/-- Sensing runs: in Neap and in every running state, and from the baselines of start-up on (Table 3-5). -/
def sensing (s : State) : Bool :=
  (started s && (s.pwr.state = .neap || s.pwr.state.isRunning)) || (s.pwr.state = .startup && s.pwr.phase = .firmware && !s.pwr.recovery)
/-- Wake triggers are watched, in start-up from the moment the Cliff die is supplied (R62). -/
def watching (s : State) : Bool := sensing s || (s.pwr.state = .startup && (s.pwr.phase = .supplied || s.pwr.phase = .rails || s.pwr.phase = .rom))
/-- An LF burst, a sounding being one (Table 7-1), or a transponder's charge phase is being sent: no conversion is begun (R319, R329). -/
def fieldOn (s : State) : Bool :=
  !betweenBursts s || (match s.path with | some p => p.step = .tpCharge && !p.ended | none => false)

/-! ### Host commands -/

/-- SENSE_STATUS (R319, R320). -/
def execSenseStatus (m : MbxCmd) (s : State) : Out :=
  next (runCmd 0x0800 m s (fun ref p s =>
    needLen 0 p ref s fun s =>
    reply ref ((List.range 16).flatMap (fun c =>
      let x := capChan s c
      let st := if !capOn s c then 4 else if x.diag = 1 || guardBad s c then 2 else if x.diag = 2 then 3 else if x.touched then 1 else 0
      le16 (x.base.getD 0) ++ le16 (match x.base with | some b => twos 16 ((x.last : Int) - b) | none => 0) ++ [byte st, 0])) s))

/-- CONTACT_STATUS (R324 to R326). -/
def execContactStatus (m : MbxCmd) (s : State) : Out :=
  next (runCmd 0x0802 m s (fun ref p s =>
    needLen 0 p ref s fun s =>
    let mask := fun (f : Contact → Bool) => (s.sen.cin.zipIdx.foldl (fun k (x, i) => if f x then setBit k i else k) 0)
    reply ref [byte (mask (·.asserted)), byte (mask (·.stuck)), byte (mask (·.openWire)), if s.sen.wakeN then 1 else 0] s))

/-- SENSE_REBASE (R322, R329): confirmations of the channels end. -/
def execSenseRebase (m : MbxCmd) (s : State) : Out :=
  next (runCmd 0x0803 m s (fun ref p s =>
    needLen 4 p ref s fun s =>
    need (zeros p 2 2) ref stBadParam s fun s =>
    let s := (bitsOf 16 (u16 p 0)).foldl (fun s c => onCap c (fun x => { x with confirm := 0 }) s) s
    reply ref [] (s.onSen (fun x => { x with rebase := x.rebase ||| u16 p 0 }))))

/-- WAKE_MAP_WRITE (R327, R142): the coils are channels 1 to 48, none twice (log 26). -/
def execWakeMapWrite (m : MbxCmd) (s : State) : Out :=
  next (runCmd 0x0801 m s (fun ref p s =>
    needLen 16 p ref s fun s =>
    let n := u8 p 4
    let coils := (List.range n).map (fun k => u8 p (8 + k))
    need (u8 p 0 ≤ 31 && (u8 p 1 ≤ 1 || u8 p 1 = 0xFF) && n ≤ 8 && zeros p 5 3 && zeros p (8 + n) (8 - n) &&
      coils.all (fun c => 1 ≤ c && c ≤ 48) && distinctNat coils && r142 coils) ref stBadParam s fun s =>
    queueJob { items := [.record 0x0023 (u8 p 0) (p.drop 1)], after := .reply ref } s))

/-! ### Scans (R319 to R323) -/

/-- The channel's baseline is taken anew (R320). -/
def rebaseline (c : Nat) (s : State) : State :=
  onCap c (fun x => { x with base := none, gather := [], touched := false, low := 0, neg := [], confirm := 0 }) s
/-- A diagnosis of a channel: 1 shorted, 2 open (R323, R46). -/
def setCapDiag (c code : Nat) (s : State) : State :=
  let s := onCap c (fun x => { x with diag := code, clean := 0, touched := false, confirm := 0 }) s
  emitF evSenseDiag 1 [byte c] [byte c, byte code] s
/-- Its clearing record. -/
def clrCapDiag (c : Nat) (s : State) : State :=
  let code := (capChan s c).diag
  emitC evSenseDiag 1 [byte c] [byte c, byte code] (onCap c (fun x => { x with diag := 0, clean := 0 }) s)

/-- A guard's test in a scan that served it (R323, R329): its channels become shorted with it. -/
def guardTest (g : Nat) (ok : Bool) (s : State) : State :=
  let put := fun (v : Bool × Nat) (s : State) => s.onSen (fun x => { x with guards := x.guards.set g v })
  match s.sen.guards.getD g (false, 0), ok with
  | (false, _), true => s
  | (true, _), false => put (true, 0) s
  | (false, _), false =>
    let s := ((List.range 8).map (· + 8 * g)).foldl (fun s c => onCap c (fun x => { x with touched := false, low := 0, confirm := 0 }) s) s
    emitF evSenseDiag 1 [byte (32 + g)] [byte (32 + g), 1] (put (true, 0) s)
  | (true, n), true =>
    if n ≥ 2 then emitC evSenseDiag 1 [byte (32 + g)] [byte (32 + g), 1] (put (false, 0) s) else put (true, n + 1) s

/-- The baseline's own rules on a good conversion (R320). -/
def takeBase (th v : Nat) (t : Nat) (x : CapChan) : CapChan :=
  match x.base with
  | none =>
    let g := x.gather ++ [v]
    if g.length ≥ 8 then { x with base := some (roundDiv g.sum 8), gather := [], drifted := t } else { x with gather := g }
  | some b =>
    if !x.touched && v + th ≤ b then
      let g := x.neg ++ [v]
      if g.length ≥ 4 then { x with base := some (roundDiv g.sum 4), neg := [], drifted := t } else { x with neg := g }
    else { x with neg := [] }

/-- A conversion's delta is at or above a threshold. -/
def atLeast (x : CapChan) (v th : Nat) : Bool := match x.base with | some b => v ≥ b + th | none => false

/-- One conversion of a scan, 120 us long (R318, R321, R323). `few`: not too many channels read at or above their thresholds. -/
def scanConv (few : Bool) (s : State) (k : Conv) : State :=
  let c := k.chan
  let s := dueAt (now s + 120) s
  let x := capChan s c
  match k.counts with
  | none =>
    let s := onCap c (fun x => { x with clean := 0, touched := false, confirm := 0, neg := [] }) s
    if x.diag = 1 then s
    else setCapDiag c 1 (if x.diag = 2 then clrCapDiag c s else s)
  | some v =>
    let th := touchTh s c
    let s := onCap c (fun x => { takeBase th v (now s) x with last := v }) s
    let x := capChan s c
    let lowBase : Bool := param s 0x0808 ≠ 0 && (match x.base with | some b => b < param s 0x0808 | none => false)
    if x.diag = 2 && x.base.isNone then s
    else if x.diag = 1 || (x.diag = 2 && !lowBase) then
      if x.clean ≥ 2 then clrCapDiag c s else onCap c (fun x => { x with clean := x.clean + 1 }) s
    else if lowBase then (if x.diag = 2 then onCap c (fun x => { x with clean := 0 }) s else setCapDiag c 2 s)
    else if x.touched then
      match x.base with
      | some b =>
        if 4 * v < 4 * b + 3 * th then
          onCap c (fun x => if x.low ≥ 1 then { x with touched := false, low := 0 } else { x with low := x.low + 1 }) s
        else onCap c (fun x => { x with low := 0 }) s
      | none => s
    else if few && atLeast x v th && x.confirm = 0 && !guardBad s c then onCap c (fun x => { x with confirm := 1, confAt := now s }) s
    else s

/-- A touch is confirmed (R321, R327). -/
def confirmTouch (c v : Nat) (s : State) : State :=
  let b := ((capChan s c).base).getD 0
  let s := onCap c (fun x => { x with touched := true, touchedAt := now s, confirm := 0, low := 0 }) s
  serveTrigger c (emit evTouch 0 (byte c :: le16 (v - b)) s)

/-- A contact's debounced state (R324, R326, R327): reported, read by the doors and the engine inputs, and a trigger when it turns
asserted. -/
def contactReads (n : Nat) (high : Bool) (s : State) : State :=
  let cfg := cinConfig s n
  let on := high != bitSet cfg 0
  let s := onContact n (fun x => { x with high := high }) s
  let x := contact s n
  if x.asserted = on then s else
  let s := emit evContact 0 [byte n, if on then 1 else 0] (onContact n (fun x => { x with asserted := on, since := now s }) s)
  let s := if !on && x.stuck then emitC evContactStuck 1 [byte n] [byte n] (onContact n (fun x => { x with stuck := false }) s) else s
  let s := doorSource (fun r => u8 r 10 = 1 && u8 r 11 = n) on s
  let s := if ignInput s = n then ignitionReads on s else s
  let s := if runInput s = n then s.onRel (fun r => { r with engine := if on then r.engine else (false, r.engine.2) }) else s
  if on && !x.openWire && (s.pwr.state ≠ .neap || bitSet cfg 4) then serveTrigger (15 + n) s else s

/-- An end-of-line sample (R325): two equal samples in a row count; an open wire clears after three clean scans. -/
def eolSample (s : State) (e : EolSample) : State :=
  let n := e.input
  if n = 0 || n > 8 || !bitSet (cinConfig s n) 3 || (2000 < e.mv && e.mv ≤ 3000) then s else
  let code := if e.mv < 500 then 0 else if e.mv ≤ 2000 then 1 else 2
  let x := contact s n
  let s := onContact n (fun x => { x with eolLast := some code }) s
  let twice : Bool := x.eolLast = some code
  if code = 2 then
    let s := onContact n (fun x => { x with eolClean := 0 }) s
    if !twice || x.openWire then s
    else emitF evSenseDiag 1 [byte (15 + n)] [byte (15 + n), 2] (onContact n (fun x => { x with openWire := true }) s)
  else if x.openWire then
    if x.eolClean < 2 then onContact n (fun x => { x with eolClean := x.eolClean + 1 }) s
    else
      let s := emitC evSenseDiag 1 [byte (15 + n)] [byte (15 + n), 2] (onContact n (fun x => { x with openWire := false, eolClean := 0 }) s)
      if twice then contactReads n (code = 1) s else s
  else if twice then contactReads n (code = 1) s
  else s

/-- A channel that is no longer scanned reads disabled, without a diagnosis. -/
def capLeaves (s : State) (c : Nat) : State :=
  if capOn s c then s else onCap c (fun _ => {}) (if (capChan s c).diag ≠ 0 then clrCapDiag c s else s)
/-- An input whose end-of-line mode is off has no open wire. -/
def eolLeaves (s : State) (n : Nat) : State :=
  if bitSet (cinConfig s n) 3 || !(contact s n).openWire then s
  else emitC evSenseDiag 1 [byte (15 + n)] [byte (15 + n), 2] (onContact n (fun x => { x with openWire := false, eolLast := none, eolClean := 0 }) s)
/-- The scan's end (R319, R322, R24): rebaselined channels, the parameters, then what they switch off. -/
def scanEnd (s : State) : State :=
  let s := (bitsOf 16 s.sen.rebase).foldl (fun s c => rebaseline c s) s
  let s := boundaryM .scan (s.onSen (fun x => { x with rebase := 0 }))
  [1, 2, 3, 4, 5, 6, 7, 8].foldl eolLeaves ((List.range 16).foldl capLeaves s)
/-- Microseconds that `us` counted on SLOW take, with the SLOW period as last measured (R77). -/
def slowUs (s : State) (us : Nat) : Nat := us * s.clk.slowPeriod / 2000000
/-- A scan begins at its rate, counted on SLOW (R319); the first conversions of start-up come as its row has them (Table 3-5). -/
def scanBegins (s : State) : State :=
  if s.pwr.state = .startup then s else
  let s := dueAt s.sen.scanAt s
  s.onSen (fun x => { x with scanAt := now s + slowUs s (1000000 / max 1 (param s (if s.pwr.state = .neap then 0x0802 else 0x0803))) })
/-- The conversions of a scan (R318, R319): each enabled channel once, in ascending order, within the range of 655.35 pF (log 123). A
channel whose measurement the command does not give reads a free value (log 8). -/
def scanOrder (convs : List Conv) (s : State) : List Conv × State :=
  ((List.range 16).filter (capOn s)).foldl (fun (l, s) c =>
    match convs.find? (fun k => k.chan == c) with
    | some k => (l ++ [{ k with counts := k.counts.map (min 65535) }], s)
    | none => let (v, s) := drawFree s
      (l ++ [{ chan := c, counts := some (v % 65536) }], s)) ([], s)
/-- The samples of a scan (R325): each end-of-line input once, in ascending order; one whose voltage the command does not give reads a
free value (log 8). -/
def eolOrder (eol : List EolSample) (s : State) : List EolSample × State :=
  ([1, 2, 3, 4, 5, 6, 7, 8].filter (fun n => bitSet (cinConfig s n) 3)).foldl (fun (l, s) n =>
    match eol.find? (fun e => e.input == n) with
    | some e => (l ++ [e], s)
    | none => let (v, s) := drawFree s
      (l ++ [{ input := n, mv := v }], s)) ([], s)

/-- SCAN (R319 to R325): the conversions and samples in their order; none is begun during an LF burst or a transponder's charge. -/
def execScan (convs : List Conv) (eol : List EolSample) (guard1Ok guard2Ok : Bool) (s : State) : Out :=
  if !sensing s || fieldOn s then next s else
  let s := scanBegins s
  let (convs, s) := scanOrder convs s
  let (eol, s) := eolOrder eol s
  let s := if convs.any (fun k => k.chan < 8) then guardTest 0 guard1Ok s else s
  let s := if convs.any (fun k => k.chan ≥ 8) then guardTest 1 guard2Ok s else s
  let over_ := convs.filter (fun k => match k.counts with
    | some v => atLeast (capChan s k.chan) v (touchTh s k.chan)
    | none => false)
  let s := convs.foldl (scanConv (over_.length ≤ param s 0x0807)) s
  let s := if param s 0x0804 = 1 then
      convs.foldl (fun s k => if (capChan s k.chan).confirm = 1 then confirmTouch k.chan (k.counts.getD 0) s else s) s
    else s
  next (scanEnd (eol.foldl eolSample s))

/-- CONFIRM_CONVERSION (R321, R329): 1 ms after the conversion before it, or after the burst that held it back, 120 us long. -/
def execConfirmConversion (chan counts : Nat) (s : State) : Out :=
  let x := capChan s chan
  let counts := min 65535 counts
  if !sensing s || x.confirm = 0 || !capOn s chan || fieldOn s then next s else
  let s := dueAt (max x.confAt s.lf.lastEnd + 1120) s
  if !atLeast x counts (touchTh s chan) then next (onCap chan (fun x => { x with confirm := 0, last := counts }) s)
  else if x.confirm + 1 ≥ param s 0x0804 then next (confirmTouch chan counts (onCap chan (fun x => { x with last := counts }) s))
  else next (onCap chan (fun x => { x with confirm := x.confirm + 1, confAt := now s, last := counts }) s)

/-- BASELINE_DRIFT (R320). -/
def execBaselineDrift (chan : Nat) (s : State) : Out :=
  let x := capChan s chan
  match x.base with
  | none => next s
  | some b =>
    let delta : Int := (x.last : Int) - b
    if !sensing s || !capOn s chan || x.touched || x.diag ≠ 0 || 2 * delta.natAbs ≥ touchTh s chan then next s else
    let s := dueAt (x.drifted + 100000 * param s 0x0805) s
    next (onCap chan (fun x => { x with
      drifted := now s, base := some (if delta > 0 then b + 1 else if delta < 0 then b - 1 else b) }) s)

/-- MAX_TOUCH_EXPIRY (R322). -/
def execMaxTouchExpiry (chan : Nat) (s : State) : Out :=
  let x := capChan s chan
  if !sensing s || !x.touched then next s
  else next (rebaseline chan (dueAt (x.touchedAt + 1000000 * param s 0x0806) s))

/-! ### Contacts and WAKE_N (R324, R326) -/

/-- CONTACT_CHANGE (R324): the comparator's level has held for `CIN_DEBOUNCE`. -/
def execContactChange (input : Nat) (high : Bool) (s : State) : Out :=
  if !watching s || input = 0 || input > 8 || bitSet (cinConfig s input) 3 then next s else next (contactReads input high s)

/-- STUCK_TIMEOUT (R326): inputs 1 to 8, and 9 for WAKE_N. -/
def execStuckTimeout (input : Nat) (s : State) : Out :=
  if !sensing s then next s
  else if input = 9 then
    if !s.sen.wakeN || s.sen.wakeStuck then next s else
    let s := dueAt (s.sen.wakeFrom + 1000000 * param s 0x080A) s
    next (emitF evContactStuck 1 [9] [9] (s.onSen (fun x => { x with wakeStuck := true })))
  else
    let x := contact s input
    if input = 0 || input > 9 || !x.asserted || x.stuck then next s else
    let s := dueAt (x.since + 1000000 * param s 0x080A) s
    next (emitF evContactStuck 1 [byte input] [byte input] (onContact input (fun x => { x with stuck := true }) s))

/-- WAKE_N_ASSERT (R326, R327). -/
def execWakeNAssert (s : State) : Out :=
  if !watching s || s.sen.wakeN then next s
  else next (serveTrigger 24 (s.onSen (fun x => { x with wakeN := true, wakeFrom := now s })))

/-- WAKE_N_NEGATE (R326). -/
def execWakeNNegate (s : State) : Out :=
  if !s.sen.wakeN then next s else
  let s := s.onSen (fun x => { x with wakeN := false })
  if s.sen.wakeStuck then next (emitC evContactStuck 1 [9] [9] (s.onSen (fun x => { x with wakeStuck := false }))) else next s

/-! ### Bus wakes (R327, R483) -/

/-- The bus may be woken now: in Neap, as it is entered, or latched before mailbox ready. -/
def busWakeable (s : State) : Bool := watching s && (s.pwr.state = .neap || s.pwr.neapEntry || s.pwr.state = .startup)
/-- A wake-up frame matches (R483). -/
def wakeFrameMatches (s : State) (bus : Nat) (f : WakeFrame) : Bool :=
  let k := 0x0E08 + 3 * (bus - 1)
  let data := param s (k + 2)
  (f.ident &&& param s (k + 1)) = (param s k &&& param s (k + 1)) &&
    (if data = 0 then !f.data.isEmpty else (u8 f.data 0 &&& data) ≠ 0)

/-- CAN_WAKE (R483, R327): a wake-up pattern, or a frame that the selective decoder has seen. -/
def execCanWake (bus : Nat) (frame : Option WakeFrame) (s : State) : Out :=
  let mode := param s 0x0E07 / 4 ^ (bus - 1)
  let hit := match frame with
    | none => bitSet mode 0
    | some f => bitSet mode 1 && wakeFrameMatches s bus f
  if bus = 0 || bus > 2 || !busWakeable s || !hit then next s else next (serveTrigger (24 + bus) s)

/-- LIN_WAKE (R327). -/
def execLinWake (bus : Nat) (s : State) : Out :=
  if bus = 0 || bus > 4 || !watching s then next s else next (serveTrigger (26 + bus) s)

end Sys2Proof.Machine
end

