-- ==== Sys2Proof/Machine/Security.lean ====
section
/-! DEFINITION. Signed objects, grants, key packages, attestation, the log's checkpoints and tamper commands
(14_security_and_tamper, R338 to R356; R468 to R471; R136, R137). -/

namespace Sys2Proof.Machine
open Sys2Proof

/-! ### Envelopes (R338, R339) -/

/-- Bytes of an SLH-DSA-SHAKE-256s signature. -/
def sigLen : Nat := 29792
/-- A header of Table 14-3. Device objects carry the running firmware's version (log 34). -/
def envHeader (kind signer seq major minor : Nat) (body : Bytes) : Bytes :=
  le16 kind ++ [1, byte signer] ++ le32 body.length ++ Config.serial ++ le32 seq ++ [byte major, byte minor, 0, 0] ++
    shake256 body 64 ++ zeroBytes 32
/-- An envelope's body. -/
def envBody (e : Bytes) : Bytes := slice e 128 (u32 e 4)
/-- Check 1 of R339. -/
def envFormOk (e : Bytes) : Bool :=
  e.length ≥ 128 + sigLen && u8 e 2 = 1 && e.length = 128 + u32 e 4 + sigLen && zeros e 30 2 && zeros e 96 32
/-- The digest and the signature verify (check 5). -/
def envSigned (key e : Bytes) : Bool :=
  slice e 32 64 == shake256 (envBody e) 64 && Config.slhVerify key Config.slhContext (e.take 128) (e.drop (128 + u32 e 4))
/-- The running bank. -/
def runningBank (s : State) : Bank := s.sec.banks.getD s.sec.active {}

/-- The object kind that a command expects (check 2). -/
def VerifyFor.kind : VerifyFor → Nat
  | .firmware => 1
  | .plugin _ => 2
  | .grant n => 0x000F + n
/-- The staging area of a command. -/
def VerifyFor.area : VerifyFor → Nat
  | .firmware => 1
  | .plugin _ => 2
  | .grant _ => 3
/-- A staging area's bytes. -/
def stageOf (s : State) (area : Nat) : Bytes := if area = 1 then s.sec.stage1 else if area = 2 then s.sec.stage2 else s.sec.stage3
/-- Changes a staging area. -/
def setStage (area : Nat) (b : Bytes) (s : State) : State :=
  s.onSec (fun x => if area = 1 then { x with stage1 := b } else if area = 2 then { x with stage2 := b } else { x with stage3 := b })

/-- The signer is permitted (check 4, Table 14-1). A lifecycle change that Table 14-1 does not have is left to the application. -/
def signerOk (s : State) (what : VerifyFor) (e : Bytes) : Bool :=
  let g := u8 e 3
  let oem := g = 2 && s.sec.oemRoot.isSome
  match what with
  | .firmware => g = 1
  | .plugin _ => g = 1 || oem
  | .grant 1 =>
    let to_ := u8 (envBody e) 0
    match lifecycle s, to_ with
    | .factory, _ => g = 1
    | _, 2 => g = 1 || oem
    | _, _ => oem
  | .grant 4 => oem || (g = 1 && s.sec.oemRoot.isNone)
  | .grant _ => oem
/-- The signer's public key. -/
def signerKey (s : State) (g : Nat) : Bytes := if g = 1 then Config.jorholtRoot else s.sec.oemRoot.getD []
/-- The sequence stands above, or for firmware and plug-ins at or above, its counter (check 6, R388). -/
def seqOk (s : State) (what : VerifyFor) (e : Bytes) : Bool :=
  let q := u32 e 24
  match what with
  | .firmware => q ≥ fwCounter s
  | .plugin _ => u8 (envBody e) 5 > 15 || q ≥ (ctrValue s (0x0210 + u8 (envBody e) 5)).getD 0xFFFFFFFE
  | .grant n => match ctrValue s 0x0202 with
    | some v => q > v
    | none => n = 3

/-- The first check of R339 that fails: its order and status. -/
def envCheck (s : State) (what : VerifyFor) (e : Bytes) : Option (Nat × Nat) :=
  if !envFormOk e then some (1, stBadParam)
  else if u16 e 0 ≠ what.kind then some (2, stBadParam)
  else if !(slice e 8 16 == Config.serial || (what.area ≤ 2 && zeros e 8 16)) then some (3, stAuthFail)
  else if !signerOk s what e then some (4, stAuthFail)
  else if !envSigned (signerKey s (u8 e 3)) e then some (5, stAuthFail)
  else if !seqOk s what e then some (6, stDenied)
  else none

/-- STAGE_WRITE (R136, R341, R350). Staging an area under verification is busy (R130). -/
def execStageWrite (m : MbxCmd) (s : State) : Out := next (runCmd 0x0A00 m s (fun ref p s =>
  need (9 ≤ p.length && p.length ≤ 1024) ref stBadLength s fun s =>
  let area := u8 p 0
  let off := u32 p 4
  let data := p.drop 8
  need (1 ≤ area && area ≤ 3 && zeros p 1 3) ref stBadParam s fun s =>
  need (!(s.pwr.state == .breach && area ≠ 3) && !(s.pwr.recovery && area ≠ 1)) ref stNotInState s fun s =>
  need (match s.sec.verify with | some v => v.1.area ≠ area | none => true) ref stBusy s fun s =>
  let held := stageOf s area
  need (off = 0 || off = held.length) ref stBadParam s fun s =>
  need (off + data.length ≤ (if area = 1 then 1048576 else if area = 2 then 98304 else 65536)) ref stNoResource s fun s =>
  let s := if area = 1 && off = 0 then
      s.onSec (fun x => { x with banks := modAt x.banks (1 - x.active) (fun b => { programs := b.programs + 1 }) }) else s
  reply ref [] (setStage area (if off = 0 then data else held ++ data) s)))

/-- A verification begins: the sequencer is shared (R137, R339, R465). -/
def beginVerify (what : VerifyFor) (ref : CmdRef) (s : State) : State :=
  need (!pinnedBusy s && s.sec.sign.isNone && s.sec.verify.isNone) ref stBusy s fun s =>
  accepted ref (s.onSec (fun x => { x with verify := some (what, ref) }))

/-- FW_ACTIVATE (R341). -/
def execFwActivate (m : MbxCmd) (s : State) : Out := next (runCmd 0x0A01 m s (fun ref p s =>
  needLen 0 p ref s fun s =>
  need (s.pwr.state ≠ .breach) ref stNotInState s fun s => beginVerify .firmware ref s))

/-- GRANT_APPLY (R339, R354): in Breach kind 3 only; after the 64th Breach fuse re-provisioning is denied. -/
def execGrantApply (m : MbxCmd) (s : State) : Out := next (runCmd 0x0A02 m s (fun ref p s =>
  needLen 4 p ref s fun s =>
  let k := u8 p 0
  need (1 ≤ k && k ≤ 4 && zeros p 1 3) ref stBadParam s fun s =>
  need (s.pwr.state ≠ .breach || k = 3) ref stNotInState s fun s =>
  need (k ≠ 3 || s.sec.breachFuses < 64) ref stDenied s fun s => beginVerify (.grant k) ref s))

/-! ### Applying a verified object -/

/-- A vault slot's stored record (R334). -/
def keyItem (slot bind type : Nat) (key : Bytes) : Item := .record 0x0040 slot ([byte bind, byte type] ++ keyWrap Config.kek key)
/-- The certificate of a FACTORY grant (R343, R346). -/
def certOk (c : Bytes) : Bool :=
  let b := envBody c
  envFormOk c && u16 c 0 = 0x0021 && u8 c 3 = 1 && u32 c 4 = 84 && slice c 8 16 == Config.serial && b.take 16 == Config.serial &&
    slice b 16 64 == Config.identityPub && envSigned Config.jorholtRoot c

/-- A grant that can be applied: queued as one write with its sequence (R340). -/
def queueGrant (items : List Item) (after : After) (seq : Nat) (s : State) : State :=
  queueJob { cls := 3, items := items ++ [.ctr 0x0202 seq], after := after } s
/-- A grant ends with a status. -/
def grantEnds (ref : CmdRef) (status : Nat) (s : State) : State := cmdDone ref status [] s

/-- Kind 1: a lifecycle change of Table 14-1 (R331, R343, R289). `none` while TKEK is awaited. -/
def lifecycleGrant (ref : CmdRef) (e : Bytes) (s : State) : Option State :=
  let b := envBody e
  let seq := u32 e 24
  let to_ := u8 b 0
  if !zeros b 1 3 || !(1 ≤ to_ && to_ ≤ 5) then some (grantEnds ref stBadParam s) else
  match lifecycle s, to_ with
  | .factory, 2 =>
    let cert := b.drop 4
    if !certOk cert then some (grantEnds ref stAuthFail s)
    else if !s.sec.vaultOk then some (grantEnds ref stNotInState s)
    else
      let waits := s.rng.waiting.any (fun w => w.1 = .vault)
      let s := if waits then s else zeroiseRng (s.onRng (fun r => { r with test := 0, lfsr := 1 }))
      match draw .vault 32 s with
      | (none, _) => none
      | (some k, s) => some (queueGrant [.record 0x0001 0 [2, 0], keyItem 5 0 2 k] (.lifecycle ref 1 2 none (some k) (some cert)) seq s)
  | .provisioned, 3 =>
    if b.length ≠ 4 then some (grantEnds ref stBadParam s) else
    match recBody s 0x0050 0 with
    | none => some (grantEnds ref stNotInState s)
    | some r => some (queueGrant [.record 0x0001 0 [3, 0], .record 0x0050 0 (r.take 416 ++ [1])] (.lifecycle ref 2 3 none none none) seq s)
  | lc, 5 =>
    if b.length ≠ 4 then some (grantEnds ref stBadParam s)
    else if lc = .decommissioned || lc = .blank then some (grantEnds ref stNotInState s)
    else
      let dead := (List.range 64).filter (fun k => k ≥ 2 && ((s.sec.vault.getD k {}).key).isSome)
      some (queueGrant (.record 0x0001 0 [5, 0] :: dead.map (fun k => .record 0x0040 k [])) (.lifecycle ref lc.code 5 none none none) seq s)
  | _, _ => some (grantEnds ref stNotInState s)

/-- Kind 2: SERVICE (R343, R345). -/
def serviceGrant (ref : CmdRef) (e : Bytes) (s : State) : State :=
  let b := envBody e
  if b.length ≠ 4 || u16 b 0 = 0 || u16 b 0 > 1440 || u8 b 2 > 1 || u8 b 3 ≠ 0 then grantEnds ref stBadParam s
  else if lifecycle s ≠ .field then grantEnds ref stNotInState s
  else queueGrant [] (.lifecycle ref 3 4 (some (u16 b 0, u8 b 2)) none none) (u32 e 24) s

/-- Kind 3: re-provisioning (R343, R354, R388). `none` while TKEK is awaited. -/
def reprovisionGrant (ref : CmdRef) (e : Bytes) (s : State) : Option State :=
  let lc := lifecycle s
  let breach := s.pwr.state == .breach
  if envBody e ≠ [0, 0, 0, 0] then some (grantEnds ref stBadParam s)
  else if !(lc = .field || lc = .service || (breach && (lc = .provisioned || lc = .factory))) || !s.sec.vaultOk then some (grantEnds ref stNotInState s)
  else match drawKey 32 s with
    | (none, _) => none
    | (some k, s) =>
      let lost := (List.range 16).filter (fun f => (ctrValue s (0x0210 + f)).isNone)
      let items := [.record 0x0001 0 [2, 0], keyItem 5 0 2 k] ++ (if breach then [.record 0x0002 0 [2]] else []) ++
        lost.map (fun f => Item.ctr (0x0210 + f) 0)
      some (queueGrant items (.reprovision ref lc.code k) (u32 e 24) s)

/-- The entries of a key package: slot, type, binding and key (R343); `none` when the text is not a list of entries. -/
def keyEntries : Nat → Bytes → Option (List (Nat × Nat × Nat × Bytes))
  | 0, b => if b.isEmpty then some [] else none
  | n + 1, b =>
    if b.isEmpty then some [] else
    let len := match u8 b 1 with | 1 => 16 | 2 => 32 | 3 => 64 | _ => 0
    if len = 0 || b.length < 4 + len || u8 b 3 ≠ 0 then none
    else (keyEntries n (b.drop (4 + len))).map (fun l => (u8 b 0, u8 b 1, u8 b 2, slice b 4 len) :: l)
/-- An entry that R344 admits. -/
def keyEntryOk (s : State) (signer : Nat) (x : Nat × Nat × Nat × Bytes) : Bool :=
  let (slot, type, bind, _) := x
  if type = 3 then signer = 1 && s.sec.oemRoot.isNone && slot ≠ 0 && slot ≠ 5 && !(6 ≤ slot && slot ≤ 47) && bind = 0
  else if slot = 1 || slot = 2 then type = 2 && bind = 0
  else if slot = 3 || slot = 4 then type = 1 && bind = 0
  else 48 ≤ slot && slot ≤ 63 && bind ≤ 3
/-- Kind 4: a key package (R343, R344). -/
def keyGrant (ref : CmdRef) (e : Bytes) (s : State) : State :=
  let b := envBody e
  if b.length < 28 then grantEnds ref stBadParam s else
  match vaultKey s 1 with
  | none => grantEnds ref stAuthFail s
  | some k => match gcmOpen k (b.take 12) (e.take 32) (slice b 12 (b.length - 28)) (b.drop (b.length - 16)) with
    | none => grantEnds ref stAuthFail s
    | some pt => match keyEntries pt.length pt with
      | none => grantEnds ref stBadParam s
      | some l =>
        if !l.all (keyEntryOk s (u8 e 3)) then grantEnds ref stBadParam s else
        let keys := l.filter (fun x => x.2.1 ≠ 3)
        let root := ((l.filter (fun x => x.2.1 = 3)).getLast?).map (fun x => x.2.2.2)
        queueGrant (keys.map (fun x => keyItem x.1 x.2.2.1 x.2.1 x.2.2.2))
          (.keys ref (keys.map (fun x => (x.1, x.2.2.1, x.2.2.2))) root) (u32 e 24) s

/-- A plug-in's slot from its body, `none` when a field is outside its values (Table 19-2, R417). -/
def pluginSlot (e : Bytes) : Option Slot :=
  let b := envBody e
  let code := u32 b 8
  let ini := u32 b 12
  let zro := u32 b 16
  let claims := ((List.range 4).map (fun k => u8 b (28 + k))).filter (· ≠ 0)
  if b.length < 64 || b.take 4 ≠ ascii "APLG" || u8 b 4 ≠ 1 || u8 b 5 > 15 || u16 b 6 ≠ 0 || code < 4 || code % 4 ≠ 0 || ini % 4 ≠ 0 ||
      zro % 4 ≠ 0 || u32 b 20 % 4 ≠ 0 || u32 b 20 ≥ code || u8 b 24 % 2 = 1 || u8 b 25 ≠ 0 || u8 b 27 = 1 || u8 b 27 > 20 ||
      !zeros b 32 32 || b.length ≠ 64 + code + ini || !distinctNat claims || claims.any (fun c => 0x11 ≤ c && c ≤ 0x13) then none
  else some {
    state := 1, family := u8 b 5, version := u32 e 28, seq := u32 e 24, codeSize := code, dataSize := ini + zro, entry := u32 b 20,
    events := u8 b 24, timers := u8 b 26, allowance := u8 b 27, claims := claims, image := b.drop 64 }
/-- A verified plug-in is loaded (R417). -/
def loadPlugin (slot : Nat) (ref : CmdRef) (e : Bytes) (s : State) : State :=
  match pluginSlot e with
  | none => cmdDone ref stBadParam [] s
  | some x =>
    let others := (s.ext.slots.zipIdx.filter (fun (y, k) => k ≠ slot && y.state ≠ 0)).map (·.1)
    let total := (others.map footprint).sum + footprint x
    if total > 98304 || others.any (fun y => y.claims.any x.claims.contains || (y.timers &&& x.timers) ≠ 0) then cmdDone ref stNoResource [] s
    else changeSlot slot x (some ref) s

/-- A firmware image's verification is over (R341): the bank is pending and protected, or erased. -/
def firmwareVerified (ref : CmdRef) (fail : Option (Nat × Nat)) (e : Bytes) (s : State) : State :=
  let k := 1 - s.sec.active
  let bank := fun (f : Bank → Bank) (s : State) => s.onSec (fun x => { x with banks := modAt x.banks k f })
  match fail with
  | some (n, st) => cmdDone ref st [] (emitT (some ref.tag) evFwVerify 1 [byte k, if n = 6 then 2 else 1] (bank (fun b => { programs := b.programs }) s))
  | none =>
    let s := bank (fun b => {
      present := true, image := envBody e, secVersion := u32 e 24, major := u8 e 28, minor := u8 e 29, digest := slice e 32 64,
      pending := true, protect := true, verifies := true, programs := b.programs }) s
    cmdDone ref stOk [] (emitT (some ref.tag) evFwVerify 0 [byte k, 0] s)

/-- What a verified object does; a grant that waits for TKEK keeps its envelope (R367). While a fatal alarm stands it does not wait
(log 130). -/
def applyVerified (what : VerifyFor) (ref : CmdRef) (s : State) : State :=
  let e := stageOf s what.area
  let fail := envCheck s what e
  let over_ := fun (s : State) => setStage what.area [] (s.onSec (fun x => { x with verify := none }))
  match what with
  | .firmware => firmwareVerified ref fail e (over_ s)
  | .plugin slot => match fail with
    | some (_, st) => cmdDone ref st [] (over_ s)
    | none => loadPlugin slot ref e (over_ s)
  | .grant k => match fail with
    | some (_, st) => grantEnds ref st (over_ s)
    | none =>
      let waits := fun (s : State) => (if rngDown s then grantEnds ref stNotInState (over_ s)
        else if s.rng.waiting.any (fun w => w.1 = .vault) then s else
        s.onRng (fun r => { r with waiting := r.waiting ++ [(.vault, now s)] }))
      match k with
      | 1 =>
        let fresh := lifecycle s = .factory && u8 (envBody e) 0 = 2 && !s.rng.waiting.any (fun w => w.1 = .vault)
        (match lifecycleGrant ref e s with
         | some s => over_ s
         | none => waits (if fresh then zeroiseRng (s.onRng (fun r => { r with test := 0, lfsr := 1 })) else s))
      | 2 => serviceGrant ref e (over_ s)
      | 3 => (match reprovisionGrant ref e s with
         | some s => over_ s
         | none => waits (tryReseed (s.onRng (fun r => { r with reseedFrom := if r.drbg.isSome then some (r.reseedFrom.getD (now s)) else r.reseedFrom }))))
      | _ => keyGrant ref e (over_ s)

/-- ENVELOPE_VERIFY_DONE (R339); nothing while the grant already waits for TKEK. -/
def execEnvelopeVerifyDone (s : State) : Out :=
  match s.sec.verify with
  | some (what, ref) => if s.rng.waiting.any (fun w => w.1 = .vault) then next s else next (applyVerified what ref s)
  | none => next s

/-- A grant that waited for TKEK goes on once it can be drawn. -/
def resumeGrant (s : State) : State :=
  match s.sec.verify with
  | some (what, ref) => if s.rng.waiting.any (fun w => w.1 = .vault) then applyVerified what ref s else s
  | none => s
/-- The wait for TKEK ends unserved: nothing is applied (Table 15-3). -/
def failGrant (s : State) : State :=
  match s.sec.verify with
  | some (what, ref) =>
    if !s.rng.waiting.any (fun w => w.1 = .vault) then s else
    let s := s.onRng (fun r => { r with waiting := r.waiting.filter (fun w => w.1 ≠ .vault) })
    grantEnds ref stNotInState (setStage what.area [] (s.onSec (fun x => { x with verify := none })))
  | none => s

/-! ### Commits of grants (R332, R333, R344, R345, R354) -/

/-- What every committed transition does (R332). -/
def transitionDone (ref : CmdRef) (from_ to_ : Nat) (s : State) : State :=
  let s := emitT (some ref.tag) evLifecycle 0 [byte from_, byte to_] s
  let s := closeSecure true 4 (closeSecure false 4 s)
  cmdDone ref stOk [] (updateUwb s)
/-- A lifecycle change has committed. -/
def lifecycleCommit (ref : CmdRef) (from_ to_ : Nat) (service : Option (Nat × Nat)) (tkek cert : Option Bytes) (s : State) : State :=
  let keep := fun (x : List Vault) => match tkek with
    | some k => modAt x 5 (fun _ => { key := some k })
    | none => if to_ = 5 then x.zipIdx.map (fun (v, k) => if k < 2 then v else {}) else x
  let s := s.onSec (fun x => { x with
    service := service.map (fun g => (now s + 60000000 * g.1, g.2)), halted := if from_ = 4 then (false, false) else x.halted,
    decomFuse := x.decomFuse || to_ == 5, certificate := (match cert with | some c => some c | none => x.certificate), vault := keep x.vault })
  let s := if from_ = 1 && to_ ≠ 2 then zeroiseRng (s.onRng (fun r => { r with test := 0, lfsr := 1 })) else s
  transitionDone ref from_ to_ (if to_ = 5 then wipeTokens s else s)
/-- A re-provisioning has committed (R354): a new TKEK, no token records, Slack when it leaves Breach. -/
def reprovisionCommit (ref : CmdRef) (from_ : Nat) (tkek : Bytes) (s : State) : State :=
  let breach := s.pwr.state == .breach
  let s := s.onSec (fun x => { x with service := none, halted := (false, false), vault := modAt x.vault 5 (fun _ => { key := some tkek }) })
  let s := wipeTokens s
  let s := if breach then
      setPower { tag := some ref.tag } .slack (emitC evBreach 3 [] [] (neapStir (activity (s.onPwr (fun p => { p with strandedBy := 0, persistWanted := false }))))) else s
  transitionDone ref from_ 2 s
/-- A key package has committed (R344); the slots that Breach has zeroised stay so (R356). -/
def keysCommit (ref : CmdRef) (entries : List (Nat × Nat × Bytes)) (root : Option Bytes) (s : State) : State :=
  let entries := if s.pwr.state = .breach then entries.filter (fun e => !breachSlots.contains e.1) else entries
  let s := s.onSec (fun x => { x with
    vault := entries.foldl (fun v (e : Nat × Nat × Bytes) => modAt v e.1 (fun _ => { key := some e.2.2, bind := e.2.1 })) x.vault,
    oemRoot := (match x.oemRoot with | some r => some r | none => root) })
  cmdDone ref stOk [] s

/-! ### Attestation, checkpoints and the objects they give -/

/-- An erosion item's worst instance and its months (R474); an item without instances reads 0 and 0xFFFF. -/
def worstErosion (s : State) (item : Nat) : Nat × Nat :=
  (s.ero.filter (fun e => e.item == item)).foldl (fun (w : Nat × Nat) e => if e.months < w.2 || w.1 = 0 then (e.inst, e.months) else w) (0, 0xFFFF)
/-- The strikes of the last 24 h (R352). -/
def strikesNow (s : State) : Nat := (s.sec.strikes.filter (fun t => s.clk.mono < t + dayUs)).length
/-- The attestation report's body (Table 14-4). -/
def attestBody (nonce : Bytes) (s : State) : Bytes :=
  let b := runningBank s
  Config.serial ++ nonce ++ [byte (lifecycle s).code, byte s.pwr.state.code, byte s.pair.role.code, 0xB1, byte b.major, byte b.minor,
    byte (s.sec.active + (if s.sec.banks.any (·.pending) then 2 else 0)), 0] ++ le32 (fwCounter s) ++ padTo 64 b.digest ++
    s.ext.slots.flatMap (fun x => [byte x.state, 0] ++ le16 x.family ++ le32 x.version) ++ le32 ((ctrValue s 0x0202).getD 0xFFFFFFFF) ++
    le32 (s.sec.logNext + 0xFFFFFFFF) ++ s.sec.logHead ++ le32 (s.sec.ckptNext + 0xFFFFFFFF) ++ le48 (tide s) ++ le32 (startUps s) ++
    [byte s.sec.breachFuses, byte (sat 255 (strikesNow s))] ++ le16 s.sec.tripped ++ le16 (armedMask s) ++
    (List.range 8).flatMap (fun k => let w := worstErosion s (k + 1); [byte (k + 1), byte w.1] ++ le16 w.2) ++ zeroBytes 8
/-- The report's header and body. -/
def attestObject (nonce : Bytes) (s : State) : Bytes :=
  let b := attestBody nonce s
  envHeader 0x0020 3 s.sec.attests (runningBank s).major (runningBank s).minor b ++ b
/-- ATTEST (R346, R137). Without the identity key it is not in state (log 34). -/
def execAttest (m : MbxCmd) (s : State) : Out := next (runCmd 0x0A03 m s (fun ref p s =>
  needLen 32 p ref s fun s =>
  need (!pinnedBusy s && s.sec.sign.isNone && s.sec.verify.isNone) ref stBusy s fun s =>
  need (vaultKey s 0).isSome ref stNotInState s fun s =>
  accepted ref (s.onSec (fun x => { x with sign := some (.attest ref (attestObject p s)), attests := x.attests + 1 }))))

/-- The checkpoint that is due begins (R471): its body is fixed now. -/
def beginCheckpoint (ref : Option CmdRef) (s : State) : State :=
  let x := s.sec
  let last := x.logNext + 0xFFFFFFFF
  let b := Config.serial ++ le32 x.ckptNext ++ le32 x.ckptFrom ++ le32 last ++ x.ckptHash ++ x.logHead ++ le48 (tide s) ++
    le32 (startUps s) ++ [byte (lifecycle s).code] ++ zeroBytes 25
  let o := envHeader 0x0022 3 x.ckptNext (runningBank s).major (runningBank s).minor b ++ b
  s.onSec (fun x => { x with ckptDue := none, sign := some (.checkpoint ref x.logNext x.logHead o) })
/-- LOG_CHECKPOINT (R471). -/
def execLogCheckpoint (m : MbxCmd) (s : State) : Out := next (runCmd 0x0902 m s (fun ref p s =>
  needLen 0 p ref s fun s =>
  need (!pinnedBusy s && s.sec.sign.isNone && s.sec.verify.isNone) ref stBusy s fun s =>
  need (vaultKey s 0).isSome ref stNotInState s fun s => accepted ref (beginCheckpoint (some ref) s)))
/-- CHECKPOINT_BEGIN (R471): a checkpoint that fell due begins once the sequencer is free. -/
def execCheckpointBegin (s : State) : Out :=
  match s.sec.ckptDue with
  | some ref => if started s && s.sec.sign.isNone && s.sec.verify.isNone && (vaultKey s 0).isSome then next (beginCheckpoint ref s) else next s
  | none => next s

/-- A signed object. -/
def signObject (s : State) (o : Bytes) : Bytes := o ++ Config.slhSign ((vaultKey s 0).getD []) Config.slhContext (o.take 128)
/-- The joiner's attestation report as it goes to the partner (R454 step 4). -/
def sendReport (env : Bytes) (s : State) : State :=
  (payloads ((env ++ s.sec.certificate.getD []).length / 40 + 1) (env ++ s.sec.certificate.getD [])).foldl (fun s p => sendBlock 0x51 p s) s
/-- A joiner's report that waited begins (R454 step 3). -/
def startReport (s : State) : State :=
  match s.pair.reportDue with
  | some n => if s.sec.sign.isSome || s.sec.verify.isSome || (vaultKey s 0).isNone then s else
      (s.onSec (fun x => { x with sign := some (.pairReport (attestObject n s)), attests := x.attests + 1 })).onPair (fun p => { p with reportDue := none })
  | none => s
/-- SIGNATURE_DONE (R346, R471, R454). -/
def execSignatureDone (s : State) : Out :=
  match s.sec.sign with
  | none => next s
  | some w =>
    let next := fun (s : State) => next (startReport s)
    let s := s.onSec (fun x => { x with sign := none })
    match w with
    | .attest ref o =>
      let r := signObject s o
      let s := emitT (some ref.tag) evAttestReady 0 (le32 r.length) (s.onSec (fun x => { x with report := some r }))
      next (cmdDone ref stOk [] s)
    | .checkpoint ref nextE h o =>
      let n := s.sec.ckptNext
      let s := s.onSec (fun x => { x with checkpoint := some (n, signObject s o), ckptNext := n + 1, ckptFrom := nextE, ckptHash := h })
      let s := logOnly 0xFF04 (le32 n ++ le32 (nextE + 0xFFFFFFFF)) s
      next (cmdDoneO ref stOk (le32 n) (emitT (ref.map (·.tag)) evLogCheckpoint 0 (le32 n) s))
    | .pairReport o => next (sendReport (signObject s o) s)

/-- OBJECT_READ (R346, R471). -/
def execObjectRead (m : MbxCmd) (s : State) : Out := next (runCmd 0x0A04 m s (fun ref p s =>
  needLen 14 p ref s fun s =>
  let k := u8 p 0
  let off := u32 p 8
  let len := u16 p 12
  need (1 ≤ k && k ≤ 3 && zeros p 1 3 && 1 ≤ len && len ≤ 1000 && (k = 3 || zeros p 4 4)) ref stBadParam s fun s =>
  let o := match k with
    | 1 => s.sec.report
    | 2 => some (match s.sec.certificate with
      | some c => c
      | none => Config.serial ++ Config.identityPub ++ [0xB1, 0, 0, 0])
    | _ => match s.sec.checkpoint with
      | some (n, c) => if n = u32 p 4 then some c else none
      | none => none
  match o with
  | none => respond ref stNotInState [] s
  | some o =>
    need (off < o.length) ref stBadParam s fun s =>
    let d := slice o off len
    reply ref (le16 d.length ++ le32 o.length ++ d) s))

/-- LOG_READ (R469, R470): an entry no longer held reads as 0xFF bytes. -/
def execLogRead (m : MbxCmd) (s : State) : Out := next (runCmd 0x0901 m s (fun ref p s =>
  needLen 8 p ref s fun s =>
  let n := u8 p 4
  need (1 ≤ n && n ≤ (if (s.box ref.member).ifv < 0x12 then 7 else 31) && zeros p 5 3) ref stBadParam s fun s =>
  let first := u32 p 0
  let have_ := (List.range n).filter (fun k => first + k < s.sec.logNext || (logFind (first + k) s).isSome)
  reply ref ([byte have_.length, 0] ++ le32 first ++ have_.flatMap (fun k => (logFind (first + k) s).getD (List.replicate 32 0xFF))) s))

/-- STORE_STATUS (R60, R385). -/
def execStoreStatus (m : MbxCmd) (s : State) : Out := next (runCmd 0x0903 m s (fun ref p s =>
  needLen 0 p ref s fun s =>
  let h := match s.pwr.hold with
    | some h => h
    | none => match recBody s 0x0053 0 with | some b => (u16 b 0, u16 b 2) | none => (0, 0)
  reply ref (le32 (eUsable s) ++ le16 h.1 ++ le16 h.2 ++ le32 (s.store.pages.foldl (fun m p => max m p.erases) 0) ++
    le16 s.store.deferrals ++ [byte (s.store.pages.filter (·.retired)).length, 0]) s))

/-! ### Tamper (R347 to R352) -/

/-- TAMPER_STATUS (R347). -/
def execTamperStatus (m : MbxCmd) (s : State) : Out := next (runCmd 0x0A05 m s (fun ref p s =>
  needLen 0 p ref s fun s => reply ref (le16 s.sec.tripped ++ le16 (armedMask s) ++ [byte s.sec.lastResp, 0]) s))

/-- The newest body of a record, queued writes counted. -/
def newestBody (s : State) (type key : Nat) : Option Bytes :=
  ((s.store.cur.toList.map (·.job) ++ s.store.paused.map (·.job) ++ s.store.queue).flatMap (·.items)).foldl (fun r i => match i with
    | .record t k b => if t = type && k = key then some b else r
    | .ctr .. => r) (recBody s type key)
/-- TAMPER_MAP_WRITE (R350, Table 14-6). -/
def execTamperMapWrite (m : MbxCmd) (s : State) : Out := next (runCmd 0x0A06 m s (fun ref p s =>
  needLen 4 p ref s fun s =>
  let k := u8 p 0
  let r := u8 p 1
  need (k ≤ 11 && r ≤ 2 && zeros p 2 2) ref stBadParam s fun s =>
  need (s.pwr.state ≠ .breach) ref stNotInState s fun s =>
  let map := (newestBody s 0x0060 0).getD ((List.range 16).map (fun i => byte (tamperDefault i).1))
  let ok := match lifecycle s with
    | .factory => true
    | .field => r > u8 map k
    | _ => r ≥ (tamperDefault k).2
  need ok ref stDenied s fun s => queueJob { items := [.record 0x0060 0 (map.set k (byte r))], after := .reply ref } s))

/-- TAMPER_TRIP (R67, R347 to R349): before firmware runs it is kept for it; in Neap, or as Neap is entered, a sensor checked there wakes
the ITF48 first. -/
def execTamperTrip (sensor : Nat) (s : State) : Out :=
  if sensor > 11 then next s
  else if s.pwr.phase = .rails || s.pwr.phase = .rom then 
    next (s.onPwr (fun p => { p with tripSeen := if p.tripSeen.any (fun t => t.1 == sensor) then p.tripSeen else p.tripSeen ++ [(sensor, tide s)] }))
  else if s.pwr.phase ≠ .firmware && s.pwr.phase ≠ .ready then next s
  else if s.pwr.state = .neap && !bitSet neapSensors sensor then next s
  else
    let fresh := bitSet neapSensors sensor && bitSet (armedMask s) sensor && !bitSet s.sec.reads sensor && !bitSet s.sec.heldTripped sensor
    next (tamperTrips sensor (if fresh then neapWake 0x43 false s else s))
/-- TAMPER_SENSOR_CLEAR (R465, R461). -/
def execTamperSensorClear (sensor : Nat) (s : State) : Out :=
  if !bitSet s.sec.reads sensor then next s
  else next (s.onSec (fun x => { x with
    reads := clrBit x.reads sensor, chatter := (x.chatter.filter (fun c => s.clk.mono < c.2 + 10000000)) ++ [(sensor, s.clk.mono)] }))
/-- TAMPER_HOLD_END (R465): 10 s after the last clear reading. -/
def execTamperHoldEnd (sensor : Nat) (s : State) : Out :=
  if !bitSet s.sec.heldTripped sensor || bitSet s.sec.reads sensor then next s else
  let last := (s.sec.chatter.filter (fun c => c.1 == sensor)).foldl (fun m c => max m c.2) 0
  let s := monoAt (last + 10000000) s
  next (s.onSec (fun x => { x with heldTripped := clrBit x.heldTripped sensor, chatter := x.chatter.filter (fun c => c.1 ≠ sensor) }))
/-- STRIKE_EXPIRY (R352): the oldest strike has become 24 h old. -/
def execStrikeExpiry (s : State) : Out :=
  match s.sec.strikes with
  | [] => next s
  | t :: _ =>
    if !started s then next s else
    let s := monoAt (t + dayUs) s
    let l := s.sec.strikes.filter (fun t => s.clk.mono < t + dayUs)
    if l = s.sec.strikes then next s
    else next (queueJob { cls := 3, items := [.record 0x0061 0 (strikeBytes l)] } (s.onSec (fun x => { x with strikes := l })))
/-- SERVICE_EXPIRY (R345). -/
def execServiceExpiry (s : State) : Out :=
  match s.sec.service with
  | some (t, _) => next (endService (dueAt t s))
  | none => next s

/-- COUNTER_WRITE_RETRY (R342, R417). -/
def execCounterWriteRetry (s : State) : Out :=
  let b := runningBank s
  let s := if s.sec.fwRetry then
      queueJob { cls := 3, items := [.ctr 0x0201 (max b.secVersion (fwCounter s))], after := .fwCounter } (s.onSec (fun x => { x with fwRetry := false })) else s
  let l := s.sec.famRetry
  next (l.foldl (fun s (x : Nat × Nat) => queueJob { cls := 3, items := [.ctr (0x0210 + x.1) x.2], after := .family x.1 } s)
    (s.onSec (fun x => { x with famRetry := [] })))

/-! ### The debug port (R43, R355, R401) -/

/-- The debug port reaches a core. -/
def debugReaches (s : State) (c : CoreId) : Bool :=
  lifecycle s = .factory || (c = .ext && (match s.sec.service with | some g => bitSet g.2 0 | none => false))
/-- DEBUG_HALT (R355, R401): where the port does not reach the core, its activity trips sensor 11 (R43). -/
def execDebugHalt (c : CoreId) (s : State) : Out :=
  if !debugReaches s c then execTamperTrip 11 s
  else if s.pwr.phase = .supplied || s.pwr.phase = .rails then next s
  else next (s.onSec (fun x => { x with halted := match c with | .cc => (true, x.halted.2) | .ext => (x.halted.1, true) }))
/-- DEBUG_RESUME (R43, R401). -/
def execDebugResume (c : CoreId) (s : State) : Out :=
  if !debugReaches s c then execTamperTrip 11 s
  else next (s.onSec (fun x => { x with halted := match c with | .cc => (false, x.halted.2) | .ext => (x.halted.1, false) }))

end Sys2Proof.Machine
end

