-- ==== Sys2Proof/Machine/CoreOps.lean ====
section
/-! DEFINITION. Carrying out one instruction of a core: when it may begin (R410), its end (R415), trap entry on the control complex
(R411, R412) and on the extension core, where it ends the invocation (R413, R421). -/

namespace Sys2Proof.Machine
open Sys2Proof

/-- Clocks that a core spends (R415). -/
def spend (c : CoreId) (n : Nat) (s : State) : State :=
  let s := onCore c (fun k => { k with cycle := k.cycle + BitVec.ofNat 64 n }) s
  match c with
  | .cc => s
  | .ext => s.onExt (fun e => { e with left := e.left - n })
/-- An instruction ends: its clocks, and where the core goes on. -/
def finish (c : CoreId) (n : Nat) (pc : Word) (s : State) : State := onCore c (fun k => { k with pc := pc }) (spend c n s)

/-- Trap or interrupt entry on the control complex (R411, R412). -/
def ccEntry (cause tval tpc : Word) (s : State) : State :=
  spend .cc 4 (onCore .cc (fun k => { k with
    tpc := tpc, tcause := cause, tval := tval, pie := k.ie, ie := false, trap := true, idle := false, pc := Config.trapVector 0 }) s)
/-- A synchronous trap on the control complex; inside a handler it stops the lockstep pair (R411). -/
def ccTrap (cause tval tpc : Word) (s : State) : State :=
  if s.cc.trap then onCore .cc (fun k => { k with stopped := true }) s else ccEntry cause tval tpc s

/-- The service requests that SRVC hands over (R421, Table 19-4): in order, up to the first code 0. An unlisted code is passed over. -/
def handedOver (s : State) : List Bytes :=
  (((List.range 8).map (fun i => memReadN s.xc.mem (0x40002000 + 16 * i) 16)).takeWhile (fun r => u8 r 0 ≠ 0)).filter (fun r => u8 r 0 ≤ 3)
/-- The invocation ends (R421, R426, R428): its receive buffer is free again, loads and unloads that waited are made. -/
def endInvocation (s : State) : State :=
  match s.ext.cur with
  | none => s
  | some v => applyPending (s.onExt (fun e => { e with
      cur := none, prevSlot := some v.slot, rxUsed := e.rxUsed.filter (fun k => some k ≠ v.buffer) }))
/-- A trap on the extension core (R413, R421): the core stops, the trap is reported and counted, the invocation ends. -/
def extTrap (code kind : Nat) (tval tpc : Word) (s : State) : State :=
  let s := spend .ext 4 (onCore .ext (fun k => { k with tcause := BitVec.ofNat 32 (code + 256 * kind), tval := tval, tpc := tpc, stopped := true }) s)
  match s.ext.cur with
  | none => s
  | some v =>
    if code = 5 then endInvocation (s.onExt (fun e => { e with requests := handedOver s }))
    else
      let s := onSlot v.slot (fun x => { x with lastCause := code }) s
      let s := if code = 6 then emit evExtBudget 1 [byte v.slot] s else emit evExtTrap 1 ([byte v.slot, byte code] ++ le32 tpc.toNat) s
      endInvocation (trouble v.slot (code = 6) s)
/-- A synchronous trap (Tables 18-7 and 18-9). -/
def trapAt (c : CoreId) (code kind : Nat) (tval tpc : Word) (s : State) : State :=
  match c with
  | .cc => ccTrap (BitVec.ofNat 32 (code + 256 * kind)) tval tpc s
  | .ext => extTrap code kind tval tpc s

/-- The core carries out instructions now. -/
def coreRuns (s : State) (c : CoreId) : Bool :=
  (s.pwr.phase == .firmware || s.pwr.phase == .ready) && s.pwr.state != .neap && !s.pwr.shutdown && !(coreOf s c).stopped && !(coreOf s c).idle &&
  (match c with | .cc => !s.sec.halted.1 | .ext => !s.sec.halted.2 && s.ext.cur.isSome)

/-- The oldest pending interrupt is taken (R410, R411); taking it ends its being pending (log 39). -/
def takeIrq (s : State) : State :=
  match s.cc.irq with
  | [] => s
  | l :: rest => ccEntry (BitVec.ofNat 32 (0x80000000 + l % 256)) 0 s.cc.pc (onCore .cc (fun k => { k with irq := rest }) s)

/-- An instruction boundary (Table 18-10): the budget's end, an interrupt and a forbidden fetch come before the instruction. -/
def instr (c : CoreId) (k : State → State) (s : State) : Out :=
  if !coreRuns s c then next s
  else if c = .ext && s.ext.left = 0 then next (extTrap 6 0 0 s.xc.pc s)
  else if c = .cc && s.cc.ie && !s.cc.irq.isEmpty then next (takeIrq s)
  else
    let pc := (coreOf s c).pc
    if !admits s c 0 pc.toNat 4 then next (trapAt c 3 0 pc pc s) else next (k s)
/-- An instruction that the core lacks or whose word is malformed (R405). -/
def illegal (c : CoreId) (w : Word) (s : State) : State := trapAt c 1 0 w (coreOf s c).pc s

/-- A register instruction of `n` clocks retires: a result and its sticky bits. -/
def aluStep (c : CoreId) (n : Nat) (gd : Reg) (f : Core → Word × Sticky) (s : State) : State :=
  let r := f (coreOf s c)
  finish c n ((coreOf s c).pc + 4) (onCore c (fun k => (k.stick r.2).put gd r.1) s)
/-- A register instruction. -/
def compute (c : CoreId) (n : Nat) (gd : Reg) (f : Core → Word × Sticky) (s : State) : Out := instr c (aluStep c n gd f) s
/-- What an access of `n` bytes traps with: 2 misaligned, 3 forbidden, 0 nothing (R408). -/
def accessTrap (s : State) (c : CoreId) (kind : Nat) (a : Word) (n : Nat) : Nat :=
  if a.toNat % n ≠ 0 then 2 else if !admits s c kind a.toNat n then 3 else 0
/-- A load (R408, R410): aligned, admitted, then read and extended. -/
def loadStep (c : CoreId) (gd ga : Reg) (imm : BitVec 16) (n : Nat) (ext : Word → Word) (s : State) : State :=
  let k := coreOf s c
  let a := k.get ga + sx imm
  let t := accessTrap s c 1 a n
  if t ≠ 0 then trapAt c t 1 a k.pc s
  else
    let r := load c a.toNat n s
    finish c 2 (k.pc + 4) (onCore c (fun k => k.put gd (ext r.1)) r.2)
/-- A load instruction. -/
def loadInto (c : CoreId) (gd ga : Reg) (imm : BitVec 16) (n : Nat) (ext : Word → Word) (s : State) : Out :=
  instr c (loadStep c gd ga imm n ext) s
/-- A store (R408, R410). -/
def storeStep (c : CoreId) (data base : Reg) (imm : BitVec 16) (n : Nat) (s : State) : State :=
  let k := coreOf s c
  let a := k.get base + sx imm
  let t := accessTrap s c 2 a n
  if t ≠ 0 then trapAt c t 2 a k.pc s else finish c 1 (k.pc + 4) (store c a.toNat n (k.get data) s)
/-- A store instruction. -/
def storeFrom (c : CoreId) (data base : Reg) (imm : BitVec 16) (n : Nat) (s : State) : Out := instr c (storeStep c data base imm n) s

/-- The lockstep comparison of the control complex (R414): a difference of the second core is the F3 fault `EV_LOCKSTEP` with its kind.
The first core's result stands (log 74). -/
def lockstep (c : CoreId) (kind : Option Nat) (s : State) : State :=
  match c, kind with
  | .cc, some k => f3Fault evLockstep [byte k] s
  | _, _ => s
/-- How the cores differ when the second one's effective address is off by `second`: in the trap taken, 2, or in the access, 1. -/
def addressMismatch (c : CoreId) (kind : Nat) (a second : Word) (n : Nat) (s : State) : Option Nat :=
  if second = 0 then none
  else if accessTrap s c kind a n ≠ 0 || accessTrap s c kind (a ^^^ second) n ≠ 0 then some 2
  else some 1
/-- A branch (Table 18-3). -/
def branch (c : CoreId) (ga gb : Reg) (offset : BitVec 16) (taken : Word → Word → Bool) (s : State) : Out :=
  instr c (fun s =>
    let k := coreOf s c
    if taken (k.get ga) (k.get gb) then finish c 2 (k.pc + wordOff offset) s else finish c 1 (k.pc + 4) s) s
/-- `ASTATUS` (Table 18-6). -/
def astatus (c : CoreId) (k : Core) : Word :=
  match c with
  | .cc => BitVec.ofNat 32 ((if k.ov then 1 else 0) + (if k.dz then 2 else 0) + (if k.sat then 4 else 0) + (if k.ie then 8 else 0) +
      (if k.pie then 16 else 0) + (if k.trap then 32 else 0))
  | .ext => BitVec.ofNat 32 ((if k.ov then 1 else 0) + (if k.dz then 2 else 0) + (if k.sat then 4 else 0) + 64)
/-- A special register of the control complex alone: an illegal instruction on the extension core (Table 18-5). -/
def ccOnly (c : CoreId) (w : Word) (k : State → State) (s : State) : Out :=
  instr c (fun s => match c with | .cc => k s | .ext => illegal .ext w s) s

end Sys2Proof.Machine
end

