-- ==== Sys2Proof/Machine/Auham.lean ====
section
/-! DEFINITION. The rows of 18_auham_instruction_set: each instruction at its core's pc, illegal words, interrupts and the watchdog's
warning stage; and the register writes that have no row of their own. -/

namespace Sys2Proof.Machine
open Sys2Proof

/-! ### Immediate, upper and jump forms (Table 18-3) -/

/-- ADDI: gd ← ga + sext(imm16). -/
def execAddi (c : CoreId) (gd ga : Reg) (imm : BitVec 16) (s : State) : Out :=
  compute c 1 gd (fun k => (k.get ga + sx imm, {})) s
/-- ANDI: gd ← ga AND imm16. -/
def execAndi (c : CoreId) (gd ga : Reg) (imm : BitVec 16) (s : State) : Out :=
  compute c 1 gd (fun k => (k.get ga &&& zx imm, {})) s
/-- ORI: gd ← ga OR imm16. -/
def execOri (c : CoreId) (gd ga : Reg) (imm : BitVec 16) (s : State) : Out :=
  compute c 1 gd (fun k => (k.get ga ||| zx imm, {})) s
/-- XORI: gd ← ga XOR imm16. -/
def execXori (c : CoreId) (gd ga : Reg) (imm : BitVec 16) (s : State) : Out :=
  compute c 1 gd (fun k => (k.get ga ^^^ zx imm, {})) s
/-- CMPLTI: signed comparison. -/
def execCmplti (c : CoreId) (gd ga : Reg) (imm : BitVec 16) (s : State) : Out :=
  compute c 1 gd (fun k => (flag ((k.get ga).slt (sx imm)), {})) s
/-- CMPLTIU: unsigned comparison. -/
def execCmpltiu (c : CoreId) (gd ga : Reg) (imm : BitVec 16) (s : State) : Out :=
  compute c 1 gd (fun k => (flag ((k.get ga).ult (sx imm)), {})) s
/-- SLLI: left shift by imm16[4:0]; with a reserved bit of the immediate set the word is illegal (R405, R407). -/
def execSlli (c : CoreId) (gd ga : Reg) (imm : BitVec 16) (s : State) : Out :=
  if imm.toNat < 32 then compute c 1 gd (fun k => (shl (k.get ga) (zx imm), {})) s
  else instr c (illegal c (formI gd ga imm 0x0A)) s
/-- SRLI: right shift, zero fill by imm16[4:0]; with a reserved bit of the immediate set the word is illegal (R405, R407). -/
def execSrli (c : CoreId) (gd ga : Reg) (imm : BitVec 16) (s : State) : Out :=
  if imm.toNat < 32 then compute c 1 gd (fun k => (shr (k.get ga) (zx imm), {})) s
  else instr c (illegal c (formI gd ga imm 0x0B)) s
/-- SRAI: right shift, sign fill by imm16[4:0]; with a reserved bit of the immediate set the word is illegal (R405, R407). -/
def execSrai (c : CoreId) (gd ga : Reg) (imm : BitVec 16) (s : State) : Out :=
  if imm.toNat < 32 then compute c 1 gd (fun k => (sar (k.get ga) (zx imm), {})) s
  else instr c (illegal c (formI gd ga imm 0x0C)) s
/-- MOVU: gd ← imm21 shifted left by 11. -/
def execMovu (c : CoreId) (gd : Reg) (imm : BitVec 21) (s : State) : Out := compute c 1 gd (fun _ => (zx imm <<< 11, {})) s
/-- LEAPC: gd ← PC + 4 × sext(imm21). -/
def execLeapc (c : CoreId) (gd : Reg) (imm : BitVec 21) (s : State) : Out := compute c 1 gd (fun k => (k.pc + wordOff imm, {})) s
/-- JLNK: gd ← PC + 4; PC ← PC + 4 × sext(offset21). -/
def execJlnk (c : CoreId) (gd : Reg) (offset : BitVec 21) (s : State) : Out :=
  instr c (fun s =>
    let pc := (coreOf s c).pc
    finish c 2 (pc + wordOff offset) (onCore c (fun k => k.put gd (pc + 4)) s)) s
/-- JLNKR: the target is read before gd is written; a target off a word boundary traps (R410). -/
def execJlnkr (c : CoreId) (gd ga : Reg) (imm : BitVec 16) (s : State) : Out :=
  instr c (fun s =>
    let k := coreOf s c
    let t := k.get ga + sx imm
    if t.toNat % 4 ≠ 0 then trapAt c 2 3 t k.pc s
    else finish c 2 t (onCore c (fun x => x.put gd (k.pc + 4)) s)) s

/-! ### Memory forms (R408) -/

/-- LB: a byte, sign-extended. -/
def execLb (c : CoreId) (gd ga : Reg) (imm : BitVec 16) (s : State) : Out := loadInto c gd ga imm 1 (fun w => (w.setWidth 8).signExtend 32) s
/-- LBU: a byte, zero-extended. -/
def execLbu (c : CoreId) (gd ga : Reg) (imm : BitVec 16) (s : State) : Out := loadInto c gd ga imm 1 (id) s
/-- LH: a half-word, sign-extended. -/
def execLh (c : CoreId) (gd ga : Reg) (imm : BitVec 16) (s : State) : Out := loadInto c gd ga imm 2 (fun w => (w.setWidth 16).signExtend 32) s
/-- LHU: a half-word, zero-extended. -/
def execLhu (c : CoreId) (gd ga : Reg) (imm : BitVec 16) (s : State) : Out := loadInto c gd ga imm 2 (id) s
/-- LW: a word; the second lockstep core's address is off by `second` (R414). -/
def execLw (c : CoreId) (gd ga : Reg) (imm : BitVec 16) (second : Word) (s : State) : Out :=
  instr c (fun s => lockstep c (addressMismatch c 1 ((coreOf s c).get ga + sx imm) second 4 s) (loadStep c gd ga imm 4 id s)) s
/-- SB: stores data[7:0]. -/
def execSb (c : CoreId) (data base : Reg) (imm : BitVec 16) (s : State) : Out := storeFrom c data base imm 1 s
/-- SH: stores data[15:0]. -/
def execSh (c : CoreId) (data base : Reg) (imm : BitVec 16) (s : State) : Out := storeFrom c data base imm 2 s
/-- SW: stores data; the second lockstep core's address is off by `second` (R414). -/
def execSw (c : CoreId) (data base : Reg) (imm : BitVec 16) (second : Word) (s : State) : Out :=
  instr c (fun s => lockstep c (addressMismatch c 2 ((coreOf s c).get base + sx imm) second 4 s) (storeStep c data base imm 4 s)) s

/-! ### Branches -/

/-- BEQ: taken when equal. -/
def execBeq (c : CoreId) (ga gb : Reg) (offset : BitVec 16) (s : State) : Out := branch c ga gb offset (fun a b => a == b) s
/-- BNE: taken when not equal. -/
def execBne (c : CoreId) (ga gb : Reg) (offset : BitVec 16) (s : State) : Out := branch c ga gb offset (fun a b => a != b) s
/-- BLT: signed less. -/
def execBlt (c : CoreId) (ga gb : Reg) (offset : BitVec 16) (s : State) : Out := branch c ga gb offset (fun a b => a.slt b) s
/-- BGE: signed not less. -/
def execBge (c : CoreId) (ga gb : Reg) (offset : BitVec 16) (s : State) : Out := branch c ga gb offset (fun a b => !a.slt b) s
/-- BLTU: unsigned less. -/
def execBltu (c : CoreId) (ga gb : Reg) (offset : BitVec 16) (s : State) : Out := branch c ga gb offset (fun a b => a.ult b) s
/-- BGEU: unsigned not less. -/
def execBgeu (c : CoreId) (ga gb : Reg) (offset : BitVec 16) (s : State) : Out := branch c ga gb offset (fun a b => !a.ult b) s

/-! ### Functions of major opcode 0x01 (Table 18-4) -/

/-- ADD: gd ← ga + gb; the second lockstep core's result is off by `second` (R414). -/
def execAdd (c : CoreId) (gd ga gb : Reg) (second : Word) (s : State) : Out :=
  instr c (fun s => lockstep c (if second = 0 then none else some 0) (aluStep c 1 gd (fun k => (k.get ga + k.get gb, {})) s)) s
/-- SUB: gd ← ga − gb. -/
def execSub (c : CoreId) (gd ga gb : Reg) (s : State) : Out := compute c 1 gd (fun k => (k.get ga - k.get gb, {})) s
/-- AND: gd ← ga AND gb. -/
def execAnd (c : CoreId) (gd ga gb : Reg) (s : State) : Out := compute c 1 gd (fun k => (k.get ga &&& k.get gb, {})) s
/-- OR: gd ← ga OR gb. -/
def execOr (c : CoreId) (gd ga gb : Reg) (s : State) : Out := compute c 1 gd (fun k => (k.get ga ||| k.get gb, {})) s
/-- XOR: gd ← ga XOR gb. -/
def execXor (c : CoreId) (gd ga gb : Reg) (s : State) : Out := compute c 1 gd (fun k => (k.get ga ^^^ k.get gb, {})) s
/-- SLL: left shift by the whole of gb (R407). -/
def execSll (c : CoreId) (gd ga gb : Reg) (s : State) : Out := compute c 1 gd (fun k => (shl (k.get ga) (k.get gb), {})) s
/-- SRL: right shift, zero fill (R407). -/
def execSrl (c : CoreId) (gd ga gb : Reg) (s : State) : Out := compute c 1 gd (fun k => (shr (k.get ga) (k.get gb), {})) s
/-- SRA: right shift, sign fill (R407). -/
def execSra (c : CoreId) (gd ga gb : Reg) (s : State) : Out := compute c 1 gd (fun k => (sar (k.get ga) (k.get gb), {})) s
/-- CMPLT: signed comparison. -/
def execCmplt (c : CoreId) (gd ga gb : Reg) (s : State) : Out := compute c 1 gd (fun k => (flag ((k.get ga).slt (k.get gb)), {})) s
/-- CMPLTU: unsigned comparison. -/
def execCmpltu (c : CoreId) (gd ga gb : Reg) (s : State) : Out := compute c 1 gd (fun k => (flag ((k.get ga).ult (k.get gb)), {})) s
/-- NEG: gd ← 0 − ga. -/
def execNeg (c : CoreId) (gd ga : Reg) (s : State) : Out := compute c 1 gd (fun k => (0 - k.get ga, {})) s
/-- ADDSAT: signed sum, saturating (R406). -/
def execAddsat (c : CoreId) (gd ga gb : Reg) (s : State) : Out := compute c 1 gd (fun k => saturate ((k.get ga).toInt + (k.get gb).toInt)) s
/-- SUBSAT: signed difference, saturating (R406). -/
def execSubsat (c : CoreId) (gd ga gb : Reg) (s : State) : Out := compute c 1 gd (fun k => saturate ((k.get ga).toInt - (k.get gb).toInt)) s
/-- NEGSAT: gd ← −ga, saturating (R406). -/
def execNegsat (c : CoreId) (gd ga : Reg) (s : State) : Out := compute c 1 gd (fun k => saturate (-(k.get ga).toInt)) s
/-- MUL: low word of the product. -/
def execMul (c : CoreId) (gd ga gb : Reg) (s : State) : Out := compute c 3 gd (fun k => (k.get ga * k.get gb, {})) s
/-- MULHS: high word of the signed product. -/
def execMulhs (c : CoreId) (gd ga gb : Reg) (s : State) : Out := compute c 3 gd (fun k => (mulHS (k.get ga) (k.get gb), {})) s
/-- MULHU: high word of the unsigned product. -/
def execMulhu (c : CoreId) (gd ga gb : Reg) (s : State) : Out := compute c 3 gd (fun k => (mulHU (k.get ga) (k.get gb), {})) s
/-- DIVS: signed quotient. -/
def execDivs (c : CoreId) (gd ga gb : Reg) (s : State) : Out := compute c 34 gd (fun k => divS (k.get ga) (k.get gb)) s
/-- DIVU: unsigned quotient. -/
def execDivu (c : CoreId) (gd ga gb : Reg) (s : State) : Out := compute c 34 gd (fun k => divU (k.get ga) (k.get gb)) s
/-- REMS: signed remainder. -/
def execRems (c : CoreId) (gd ga gb : Reg) (s : State) : Out := compute c 34 gd (fun k => remS (k.get ga) (k.get gb)) s
/-- REMU: unsigned remainder. -/
def execRemu (c : CoreId) (gd ga gb : Reg) (s : State) : Out := compute c 34 gd (fun k => remU (k.get ga) (k.get gb)) s

/-! ### System functions (Table 18-5) -/

/-- SRVC: the service call trap resumes after itself (R412). -/
def execSrvc (c : CoreId) (s : State) : Out := instr c (fun s => trapAt c 5 0 0 ((coreOf s c).pc + 4) s) s
/-- BRKPT: the breakpoint trap; under a SERVICE grant with debug it halts the extension core instead (R421). -/
def execBrkpt (c : CoreId) (s : State) : Out :=
  instr c (fun s =>
    let debug : Bool := match s.sec.service with | some g => bitSet g.2 0 | none => false
    if c = .ext && debug then s.onSec (fun x => { x with halted := (x.halted.1, true) })
    else trapAt c 4 0 0 (coreOf s c).pc s) s
/-- TRET: PC ← `TPC`; IE ← PIE; TRAP ← 0. -/
def execTret (c : CoreId) (s : State) : Out :=
  ccOnly c (formR 0 0 0 0x002 0x30) (fun s =>
    let k := s.cc
    if k.tpc.toNat % 4 ≠ 0 then ccTrap 0x302 k.tpc k.pc s
    else finish .cc 2 k.tpc (onCore .cc (fun x => { x with ie := x.pie, trap := false }) s)) s
/-- IDLE: stalls until an interrupt is pending, whatever IE holds. -/
def execIdle (c : CoreId) (s : State) : Out :=
  ccOnly c (formR 0 0 0 0x003 0x30) (fun s => finish .cc 1 (s.cc.pc + 4) (onCore .cc (fun x => { x with idle := x.irq.isEmpty }) s)) s
/-- RDSTATUS: gd ← `ASTATUS`. -/
def execRdstatus (c : CoreId) (gd : Reg) (s : State) : Out := compute c 1 gd (fun k => (astatus c k, {})) s
/-- WRSTATUS: the writable fields of `ASTATUS`; on the extension core OV, DZ and SAT alone. -/
def execWrstatus (c : CoreId) (ga : Reg) (s : State) : Out :=
  instr c (fun s =>
    let v := (coreOf s c).get ga
    finish c 1 ((coreOf s c).pc + 4) (onCore c (fun k => { k with
      ov := v.getLsbD 0, dz := v.getLsbD 1, sat := v.getLsbD 2,
      ie := (match c with | .cc => v.getLsbD 3 | .ext => k.ie), pie := (match c with | .cc => v.getLsbD 4 | .ext => k.pie) }) s)) s
/-- A read of a special register of the control complex. -/
def readSpecial (fn : BitVec 11) (c : CoreId) (gd : Reg) (f : Core → Word) (s : State) : Out :=
  ccOnly c (formR gd 0 0 fn 0x30) (fun s => finish .cc 1 (s.cc.pc + 4) (onCore .cc (fun k => k.put gd (f k)) s)) s
/-- RDCAUSE: gd ← `TCAUSE`. -/
def execRdcause (c : CoreId) (gd : Reg) (s : State) : Out := readSpecial 0x012 c gd (·.tcause) s
/-- RDTVAL: gd ← `TVAL`. -/
def execRdtval (c : CoreId) (gd : Reg) (s : State) : Out := readSpecial 0x013 c gd (·.tval) s
/-- RDTPC: gd ← `TPC`. -/
def execRdtpc (c : CoreId) (gd : Reg) (s : State) : Out := readSpecial 0x014 c gd (·.tpc) s
/-- WRTPC: `TPC` ← ga. -/
def execWrtpc (c : CoreId) (ga : Reg) (s : State) : Out :=
  ccOnly c (formR 0 ga 0 0x015 0x30) (fun s => finish .cc 1 (s.cc.pc + 4) (onCore .cc (fun k => { k with tpc := k.get ga }) s)) s
/-- RDCYCLE: gd ← `CYCLE`[31:0], the high word latched. -/
def execRdcycle (c : CoreId) (gd : Reg) (s : State) : Out :=
  instr c (fun s =>
    let n := (coreOf s c).cycle
    finish c 1 ((coreOf s c).pc + 4) (onCore c (fun k => { k with cycleHigh := (n >>> 32).setWidth 32 }.put gd (n.setWidth 32)) s)) s
/-- RDCYCLEH: gd ← the high word latched. -/
def execRdcycleh (c : CoreId) (gd : Reg) (s : State) : Out := compute c 1 gd (fun k => (k.cycleHigh, {})) s

/-! ### Traps from outside the instruction -/

/-- ILLEGAL_INSTRUCTION (R405): a word that is no instruction of the core; a legal word is not this command. -/
def execIllegalInstruction (c : CoreId) (word : Word) (s : State) : Out :=
  if auhamLegal c word then next s else instr c (illegal c word) s
/-- INTERRUPT (R410): a line becomes pending on the control complex; it ends an IDLE, and with IE set it is taken. -/
def execInterrupt (line : Nat) (s : State) : Out :=
  if line > 255 then next s else
  let s := onCore .cc (fun k => { k with irq := if k.irq.contains line then k.irq else k.irq ++ [line], idle := false }) s
  next (if coreRuns s .cc && s.cc.ie then takeIrq s else s)
/-- CC_WATCHDOG_WARNING (R410, R411): the warning stage traps at the next boundary. -/
def execCcWatchdogWarning (s : State) : Out :=
  let s' := onCore .cc (fun k => { k with idle := false }) s
  next (if coreRuns s' .cc then ccEntry 6 0 s.cc.pc s' else s)

/-- REGISTER_WRITE (R393, R7, R371, R426, R427): a write of a device register. -/
def execRegisterWrite (addr : RegAddr) (value : Word) (s : State) : Out :=
  next (if started s && s.pwr.state ≠ .neap then writeReg addr value s else s)

end Sys2Proof.Machine
end

