-- ==== Sys2Proof/Machine/Pair.lean ====
section
/-! DEFINITION. The pair (20_redundant_pair, R429 to R456; R28, R389): the Causeway link, roles, mirroring, takeover, switchover and
hot replacement. -/

namespace Sys2Proof.Machine
open Sys2Proof

/-! ### The link (R433, R434) -/

/-- A member of a pair that is up and awake enough to talk. -/
def linkLive (s : State) : Bool := s.pwr.cwPair && started s && s.pwr.state ≠ .neap
/-- A block arrives (R433): out of sequence it is discarded and a resend asked for; a valid one clears the miss count (R445). -/
def recvBlock (seq : Nat) (s : State) (k : State → State) : Out :=
  if !linkLive s || !s.pair.up then next s
  else if seq ≠ s.pair.rx then next (sendBlock 0x11 (le32 s.pair.rx) s)
  else next (k (s.onPair (fun p => { p with rx := p.rx + 1, missed := 0 })))

/-- The nonce of a negotiate block is drawn (R434, R365); without a seed it waits. -/
def drawLinkNonce (s : State) : State :=
  match draw .nonce 16 s with
  | (some n, s) => s.onPair (fun p => { p with nonce := some n })
  | (none, s) => s
/-- CAUSEWAY_LOCK (R434): a negotiate block is sent. -/
def execCausewayLock (s : State) : Out :=
  if !linkLive s then next s else next (drawLinkNonce (s.onPair (fun p => { p with locked := true, nonce := none })))

/-! ### What Lee holds: the mirrored items (Table 20-5) -/

/-- Record types that are mirrored. -/
def mirroredTypes : List Nat := [0x0010, 0x0020, 0x0021, 0x0022, 0x0023, 0x0030, 0x0050, 0x0051, 0x0060]
/-- A record as it is mirrored: a token record carries K_token itself, for Lee to wrap (R442). -/
def recItem (s : State) (type key : Nat) (body : Bytes) : MirrorItem :=
  if type = 0x0030 && !body.isEmpty then
    .record type key (body.take 8 ++ (match vaultKey s 5 with | some k => (keyUnwrap k (slice body 8 24)).getD [] | none => []))
  else .record type key body
/-- Everything of Table 20-5, for a joiner (R438, R454): the counters first. -/
def allItems (s : State) : List MirrorItem :=
  (s.store.ctrs.filter (fun c => c.key ≤ 0x200)).filterMap (fun c => c.standing.map (fun v => .record (0x8000 + c.key) 0 v.body)) ++
  (s.store.recs.filter (fun r => mirroredTypes.contains r.type)).filterMap (fun r => (recBody s r.type r.key).map (recItem s r.type r.key)) ++
  s.par.active.map (fun e => .param e.1 e.2) ++ (s.path.toList.map (fun p => MirrorItem.pathState 0 (now s) p)) ++ sessionItems s ++
  s.zon.located.map (fun l => .located (now s) l (s.uwb.results.filter (fun r => r.token == l.idx))) ++
  s.lf.model.map (fun c => .coupling c.row c.col c.re c.im ((now s - c.at_) / 1000) c.temp) ++ [linkItem s] ++
  (s.mbx.lanes.zipIdx.flatMap (fun (l, k) => l.map (fun q => MirrorItem.command k q.tag q.opcode q.payload q.seq))) ++
  s.evt.ring.map (fun r => .event r.bytes) ++ [.power s.pwr.state.code]

/-- The state transfer is sent (R438, R454 step 5); it takes the next mirror sequence. -/
def startTransfer (s : State) : State :=
  let b := (allItems s).flatMap MirrorItem.bytes
  let s := (payloads (b.length / 40 + 1) b).foldl (fun s p => sendBlock 0x52 p s) s
  s.onPair (fun p => { p with
    partner := 2, joined := false, mirrorTx := p.mirrorTx + 1, transfer := some (p.mirrorTx + 1, now s),
    backlog := p.backlog ++ [(p.mirrorTx + 1, b.length)] })
/-- A partner has become Lee (R438): a known serial is sent the state at once, another waits for `PAIR_ADMIT`. -/
def partnerJoins (s : State) : State :=
  match s.pair.serial with
  | some n => if recBody s 0x0090 0 = some n then startTransfer s else s.onPair (fun p => { p with partner := 2, joined := false, transfer := none })
  | none => s

/-- This member becomes Lee (R430, R432, R437, R451): its outputs and release pins are withdrawn; what it served it now awaits from its partner. -/
def becomeLee (s : State) : State :=
  let s := { safeOutputs s with path := none, paths := [], awaited := [] }
  let s := (List.range 8).foldl (fun s k => if (s.bus.pins.getD k {}).function = 1 then relPin k false s else s) s
  let s := s.onRel (fun r => { r with access := [], start := none, pulses := [] })
  takeRole .lee (s.onPair (fun p => { p with joined := false, partner := 2, transfer := none, switch_ := none, commits := [], mirrorRx := 0, partial_ := [], heard := [] }))

/-- Roles are settled (R436, R437): a member that is Headland stays so unless its partner is too; the time as Headland of one that is not
reads 0 (log 24). -/
def settleRoles (b : NegoBlock) (s : State) : State :=
  let mine := s.pair.role == .headland
  let ms := match s.pair.headFrom with | some t => (now s - t) / 1000 | none => 0
  let wants := !s.pwr.cwRole
  let head := if mine && b.headMs > 0 then
      (if wants ≠ (b.role = 1) then wants else if ms = b.headMs then ownLower b.serial else ms > b.headMs)
    else if mine then true
    else if b.headMs > 0 then false
    else if wants = (b.role = 1) then ownLower b.serial
    else wants
  if head then partnerJoins (if mine then s else takeRole .headland s)
  else becomeLee s

/-- NEGOTIATE (R434, R435): keys under the higher common version; with slot 2 empty, a failed CMAC or no common version the
partner stays absent. A renegotiation in band changes the keys only. -/
def execNegotiate (b : NegoBlock) (s : State) : Out :=
  if !linkLive s || !s.pair.locked then next s else
  let v := min 2 b.verMax
  match vaultKey s 2 with
  | none => next (s.onPair (fun p => { p with partner := 0 }))
  | some k =>
    if !b.cmacOk || v = 0 || v < b.verMin then next (s.onPair (fun p => { p with partner := 0 })) else
    let s := if s.pair.nonce.isNone then drawLinkNonce s else s
    match s.pair.nonce with
    | none => next s
    | some n =>
      let (lo, hi) := if ownLower b.serial then (n, b.nonce) else (b.nonce, n)
      let okm := shake256 (ascii "ITF48-CW-2" ++ [byte v] ++ k ++ lo ++ hi) 36
      let again := s.pair.up
      let s := s.onPair (fun p => { p with
        up := true, version := v, link := some { kGcm := okm.take 32, salt := okm.drop 32 }, nonce := none, tx := 0, rx := 0, sent := [],
        serial := some b.serial, missed := 0, misses := 0, lastBeat := now s, lastSent := now s })
      if again then next s else
      let s := s.onPair (fun p => { p with mirrorTx := 0, mirrorAck := 0, mirrorRx := 0, partial_ := [], backlog := [], transfer := none })
      let s := emitX evPairLink 0 [1, byte v] { clear := faultActive s evPairLink [] } s
      next (settleRoles b s)

/-- PARTNER_ABSENT_TIMEOUT (R436): 200 ms after mailbox ready without a partner. -/
def execPartnerAbsentTimeout (s : State) : Out :=
  if !linkLive s || s.pair.up || s.pair.role ≠ .lee || s.pair.joined then next s else
  next (takeRole .headland (dueAt (s.pwr.readyAt + 200000) s))

/-! ### Takeover and switchover (R28, R446 to R451) -/

/-- A mirrored path resumes from its point (R28). -/
def resumeMirrored (point : Nat) (p : Path) (s : State) : State :=
  let p := { p with cur := none, todo := [], ended := false, outcome := none, denied := none, since := now s }
  if point ≤ 1 then
    firstStep 0 (takeRelKeys { s with path := some { p with
      step := .toFlood, answers := [], auths := [], retries := 0, refreshed := false, collided := false, early := false, tokenGone := false } })
  else
    let done := fun (a : Auth) => (point ≥ 3 && a.committed = some true) ||
      (match ctrValue s a.ans.idx with | some v => v ≥ a.ans.counter | none => false)
    let auths := p.auths.map (fun a => { a with committed := if done a then some true else none, ranged := a.noRange })
    let s := enterFlood (takeRelKeys { s with path := some { p with step := .commitRange, auths := auths } })
    let s := auths.foldl (fun s a => if a.committed.isSome then s else commitCounter a.ans.idx a.ans.counter a.authSeq a.resync s) s
    let s := s.onUwb (fun u => { u with due := u.due ++ (auths.filter (fun a => !a.ranged)).map (fun a => (a.ans.idx, false)) })
    let wait := if auths.any (fun a => !a.ranged) then commitRangeUs s p else if auths.any (fun a => a.committed.isNone) then 1500 else 0
    if !fits s p (wait + 1000 + signalUs s p) then deadlinePath s
    else if p.req.kind = .transponder && auths.all (fun a => a.committed = some true) then transponderGrant s else s

/-- The mirrored sessions are taken over, with their outputs, levels and each door's remaining time (R261, R270, R442). What the mirror does not
carry, whether ignition has been seen on, begins again (DEDUCED, log 118). -/
def resumeSessions (s : State) : State :=
  let l := s.pair.sessions
  let s := l.foldl (fun s m =>
    let s := s.onRel (fun r => { r with nextId := if r.nextId ≤ m.id then idAfter m.id else r.nextId })
    if m.start then
      s.onRel (fun r => { r with start := some {
        id := m.id, driver := m.token, due := m.ends.headD (now s), transponder := m.transponder, repeatMs := 10 * param s 0x060A,
        nextRepeat := now s + 10000 * param s 0x060A, bus := param s 0x0606, ident := param s 0x0607, rxIdent := param s 0x0608,
        version := param s 0x0605, runInput := param s 0x060B, ignInput := param s 0x060C,
        span := 1000000 * param s 0x0603, key := vaultKey s 3, cands := [(m.token, 0, 0)], ignSeen := ignNow s } })
    else
      let holds := ((bitsOf 16 m.doors).zip m.ends).filterMap (fun d => (recBody s 0x0022 d.1).map (fun r =>
        ({ door := d.1, record := r, span := doorTimeout s r, due := d.2 } : DoorHold)))
      let s := s.onRel (fun r => { r with
        access := r.access ++ [{ id := m.id, token := m.token, doors := holds }], doorKey := vaultKey s 4,
        doorFmt := some (param s 0x0605, param s 0x0609) })
      holds.foldl (fun s h => if u8 h.record 9 = 0 then pinJoin h.record true s else s) s) (s.onPair (fun p => { p with sessions := [] }))
  energise (reserveBlock (s.onRel (fun r => { r with fresh := none, block := none, blockWait := none, masks := (busMask s 1, busMask s 2) })))

/-- The pair mailbox goes on (R448): responses are sent again, commands without one are executed from their beginning; under version
1 every command in flight is aborted (R435). A frame that Headland had received and not mirrored is answered `ST_ABORTED`. The count is of the commands aborted. -/
def resumeMailbox (s : State) : Nat × State :=
  let p := s.pair
  let refOf := fun (x : Nat × QCmd) => ({ lane := x.1, tag := x.2.tag, opcode := x.2.opcode, seq := x.2.seq } : CmdRef)
  let old := p.version < 2
  let s := s.onPair (fun p => { p with
    taken := p.mirrored.map (fun x => x.2.tag), mirrored := [], accepted := [], responses := [], heard := [] })
  let s := p.responses.foldl (fun s f => s.onBox false (pushOut { f with flags := f.flags ||| 5 })) s
  let pathTags := (p.path.toList.filterMap (fun x => x.2.req.ref)).map (·.tag)
  let (gone, kept) := (if old then (p.mirrored, []) else ([], p.mirrored))
  let s := gone.foldl (fun s x => respond (refOf x) stAborted [] s) s
  let lost := p.accepted.filter (fun x => old || !(pathTags.contains x.2.tag) && x.2.opcode ≠ 0x0B01)
  let s := lost.foldl (fun s x => cmdDone (refOf x) stAborted [] s) s
  let s := kept.foldl (fun s x => s.onBox false (fun b => { b with lanes := modAt b.lanes x.1 (· ++ [x.2]) })) s
  let (n, s) := p.heard.foldl (fun (r : Nat × State) x =>
    if x.2.seq ≠ r.2.mbx.rx.getD x.1 0 then r
    else (r.1 + 1, refuse 1 (refOf x) stAborted [] (r.2.onBox false (fun b => { b with rx := b.rx.set x.1 (x.2.seq + 1) })))) (0, s)
  (gone.length + lost.length + n, s)

/-- This member, which was Lee, becomes Headland (R446, R448, R451): `planned` for a switchover. -/
def takeOver (planned : Bool) (s : State) : State :=
  let missed := s.pair.missed
  let links := s.pair.up && missed < 3
  let own := s.pair
  let lastOf := fun (src q : Nat) => match (own.ring.filter (fun r => r.source == src)).getLast? with | some r => (r.seq + 1) % 65536 | none => q
  let s := s.onEvt (fun e => { e with seq := e.seq.zipIdx.map (fun (q, k) => lastOf k q), ring := lastN 256 (own.ring ++ e.ring) })
  let dT := s.lf.temp - own.beat.1
  let s := s.onLf (fun l => { l with model := l.model.map (fun c => { c with temp := c.temp + dT }), chans := l.chans.map (fun c => { c with rbr := 400 }) })
  let s := takeRole .headland (s.onPair (fun p => { p with
    up := links, joined := false, partner := if links then 2 else 0, missed := 0, ring := [], path := none, commits := [], transfer := none,
    takeovers := if planned then p.takeovers else sat 0xFFFF (p.takeovers + 1) }))
  let sw := own.accepted.find? (fun x => x.2.opcode == 0x0B01)
  let (aborted, s) := resumeMailbox { s with pair := { s.pair with path := own.path } }
  let s := s.onPair (fun p => { p with path := none })
  let s := if planned then s else emit evPairTakeover 1 (byte missed :: le16 aborted) s
  let s := match sw with
    | some x => cmdDone { lane := x.1, tag := x.2.tag, opcode := 0x0B01, seq := x.2.seq } stOk [] s
    | none => s
  let s := resumeSessions s
  let s := match own.path with
    | some (point, p) => if awake s then resumeMirrored point p s else s
    | none => s
  let s := if links then partnerJoins s else s
  pumpEvents (updateUwb (wires s))

/-- A path commit that the pair failed (R389). -/
def commitFailed (id value : Nat) (s : State) : State :=
  let s := emit evPairCommitFail 1 (le16 (0x8000 + id)) s
  let s := s.onPair (fun p => { p with commits := (p.commits.filter (fun c => !(c.1 == id && c.2.1 == value && c.2.2.2 == 1))).map (fun c =>
    if c.1 = id && c.2.1 = value then (c.1, c.2.1, c.2.2.1, 3) else c) })
  counterDone id value false false s
/-- The partner is lost (R446, R449): the link counts as down. -/
def linkDown (s : State) : State :=
  if !s.pair.up then s else
  let v := s.pair.version
  let waiting := s.pair.commits.filter (fun c => c.2.2.2 ≤ 1)
  let head := s.pair.role == .headland
  let s := s.onPair (fun p => { p with up := false, partner := 0, joined := p.joined && !head, transfer := none, locked := false })
  let s := emit evPairLink 1 [0, byte v] s
  if head then waiting.foldl (fun s c => commitFailed c.1 c.2.1 s) s else s

/-! ### Heartbeats (R445, R446, R456) -/

/-- HEARTBEAT_SEND (R445, R434): at 0xF000_0000 the link negotiates again in band. -/
def execHeartbeatSend (s : State) : Out :=
  if !linkLive s || !s.pair.up then next s else
  let s := dueAt (s.pair.lastSent + 1000) s
  let cls := s.flt.active.foldl (fun m f => max m (f.cls + 1)) 0
  let s := if s.pair.tx ≥ 0xF0000000 && s.pair.nonce.isNone then drawLinkNonce s else s
  let s := sendBlock 0x10 (le48 s.clk.base ++ le16 (twos 16 s.lf.temp) ++ [byte s.pwr.state.code, byte (if cls = 0 then 0xFF else cls - 1)] ++
    le32 s.pair.mirrorTx ++ [if neapReady none s then 1 else 0]) s
  next (s.onPair (fun p => { p with lastSent := now s }))
/-- HEARTBEAT (R443, R445); `overflow` blocks were discarded at the receive queue before it (R79). A mirror sequence beyond what arrived asks for a resend. -/
def execHeartbeat (seq baseTick : Nat) (temp : Int) (power faultClass lastMirror : Nat) (neapOk : Bool) (overflow : Nat) (s : State) : Out :=
  recvBlock seq (queueOverflow 7 overflow s) (fun s =>
    let s := s.onPair (fun p => { p with lastBeat := now s, misses := 0, beat := (temp, power, faultClass), beatTick := baseTick, neapOk := neapOk })
    if s.pair.role = .lee && s.pair.joined && lastMirror > s.pair.mirrorRx then sendBlock 0x11 (le32 s.pair.rx) s else s)
/-- HEARTBEAT_MISS (R445, R446, R449). -/
def execHeartbeatMiss (s : State) : Out :=
  if !linkLive s || !(s.pair.up || (s.pair.role = .lee && s.pair.joined)) then next s else
  let s := dueAt (s.pair.lastBeat + 1020 + 1000 * s.pair.misses) s
  let s := s.onPair (fun p => { p with missed := sat 255 (p.missed + 1), misses := p.misses + 1 })
  if s.pair.missed < 3 then next s
  else if s.pair.role = .headland then next (linkDown s)
  else
    let silent := param s 0x0B02 = 0 || now s ≥ s.pair.alive.2 + 300
    let fit := s.pair.joined && !s.flt.active.any (fun f => f.cls ≥ 2) && s.pwr.state ≠ .breach
    next (if silent && fit then takeOver false s else linkDown s)
/-- PAIR_ALIVE_TOGGLE (R456): this member's output, or the partner's as its input shows it. -/
def execPairAliveToggle (input : Bool) (s : State) : Out :=
  if !s.pwr.cwPair || !started s || s.pwr.state = .neap then next s
  else if input then
    if param s 0x0B02 = 0 then next s else next (s.onPair (fun p => { p with alive := (p.alive.1, now s) }))
  else if param s 0x0B01 = 0 then next s
  else
    let s := dueAt (s.pair.aliveOut + 100) s
    let lvl := !s.pair.alive.1
    let s := s.onPair (fun p => { p with alive := (lvl, p.alive.2), aliveOut := now s })
    next (s.onBus (fun b => { b with pins := modAt b.pins (param s 0x0B01 - 1) (fun x => { x with out := lvl, level := lvl }) }))
/-- YIELD (R446): Lee takes over at once. -/
def execYield (seq : Nat) (s : State) : Out :=
  recvBlock seq s (fun s => if s.pair.role = .lee && s.pair.joined then takeOver false s else s)

/-! ### Mirror transactions on Lee (R442, R443, R447) -/

/-- A tick of the sender as a tick of this member. -/
def shiftTick (d : Int) (t : Nat) : Nat := ((t : Int) + d).toNat
/-- A mirrored path in this member's ticks. -/
def shiftPath (d : Int) (p : Path) : Path :=
  { p with req := { p.req with at_ := shiftTick d p.req.at_ }, deadline := shiftTick d p.deadline, since := shiftTick d p.since,
           windowAt := shiftTick d p.windowAt, stepEnd := shiftTick d p.stepEnd }
/-- A record from its 32 bytes (Table 6-11). -/
def evOf (b : Bytes) : EvRec :=
  { source := u8 b 0, cls := u8 b 1 % 4, clear := bitSet (u8 b 1) 2, tag := if bitSet (u8 b 1) 3 then some (u8 b 12) else none,
    seq := u16 b 2, time := u48 b 4, code := u16 b 10, refSource := u8 b 13, refSeq := u16 b 14, params := slice b 16 16 }
/-- Lee follows Headland's power state (R452). -/
def followPower (code : Nat) (s : State) : State :=
  match code with
  | 1 => if awake s then enterNeap s else s
  | 2 => if awake s then s.onPwr (fun p => { p with state := .slack }) else s
  | 3 => if awake s then s.onPwr (fun p => { p with state := .flood }) else s
  | _ => s

/-- One mirrored item is applied (Table 20-5): records are queued for Lee's own store (R443), the rest stays in SRAM. -/
def applyItem (s : State) : MirrorItem → State
  | .record t k b =>
    if t ≥ 0x8000 then
      let id := t - 0x8000
      let s := if id = 0x200 then s.onPair (fun p => { p with freshness := some (leNat b) }) else s
      queueJob { cls := 3, items := [.ctr id (leNat b)] } s
    else if t = 0x0030 && !b.isEmpty then
      (match vaultKey s 5 with
       | some w => queueJob { cls := 3, items := [.record t k (b.take 8 ++ keyWrap w (b.drop 8))] } s
       | none => s)
    else if t = 0x0050 then queueJob { cls := 3, items := [.record t k (b.take 416 ++ [if regLocked s then 1 else 0])] } s
    else
      let s := if t = 0x0010 then s.onPar (fun p => { p with written := pSet p.written k (leNat b) }) else s
      queueJob { cls := 3, items := [.record t k b] } s
  | .param i v =>
    let s := s.onPar (fun p => { p with active := pSet p.active i v })
    if i ≠ 0x0201 then s else if lfIdle s then retune s else s.onLf (fun l => { l with retuneDue := true })
  | .pathState point a p => s.onPair (fun q => { q with path := if p.ended then none else some (point, shiftPath ((now s : Int) - a) p) })
  | .session id st tp doors token rem o => s.onPair (fun p => { p with
      sessions := p.sessions.filter (fun x => x.id ≠ id) ++
        (if o then [{ id := id, start := st, transponder := tp, doors := doors, token := token, ends := rem.map (fun r => now s + 1000 * r) }] else []) })
  | .located a l rs =>
    let d := (now s : Int) - a
    let l := { l with newest := shiftTick d l.newest, reports := l.reports.map (fun (p, t, c, x, w) => (p, shiftTick d t, c, x, w)) }
    let rs := rs.map (fun r => { r with at_ := shiftTick d r.at_ })
    (s.onZon (fun z => { z with located := z.located.filter (fun x => x.idx ≠ l.idx) ++ [l] })).onUwb (fun u => { u with
      results := u.results.filter (fun r => r.token ≠ l.idx) ++ rs })
  | .coupling r c x y age t => s.onLf (fun l => { l with model := putCoups [{ row := r, col := c, re := x, im := y, at_ := now s - 1000 * age, temp := t }] l.model })
  | .command lane tag op p q =>
    (s.onPair (fun x => { x with heard := x.heard.filter (fun h => !(h.1 == lane && h.2.seq == q)), mirrored := x.mirrored ++ [(lane, { tag := tag, opcode := op, payload := p, seq := q })] })).onBox false (fun b =>
      { b with rx := b.rx.set lane (q + 1), inFlight := tag :: b.inFlight })
  | .response lane tag op body =>
    let q := s.mbx.tx.getD lane 0
    let acc := u8 body 0 = stAccepted
    let mine := s.pair.mirrored.filter (fun x => x.2.tag == tag)
    let cmd := (mine ++ s.pair.heard.filter (fun h => h.1 == lane && h.2.tag == tag)).head?
    let f : OutFrame := { ftype := 2, lane := lane, tag := tag, ifv := s.mbx.ifv, opcode := op, payload := body, seq := q,
                          fin := !acc, answers := cmd.map (·.2.seq) }
    let s := s.onPair (fun p => { p with
      heard := p.heard.filter (fun h => !(h.1 == lane && h.2.tag == tag)), mirrored := p.mirrored.filter (fun x => x.2.tag ≠ tag), accepted := if acc then p.accepted ++ mine else p.accepted,
      responses := lastN 8 (p.responses ++ [f]) })
    s.onBox false (fun b => { b with
      rx := (match cmd with | some c => if c.2.seq = b.rx.getD lane 0 then b.rx.set lane (c.2.seq + 1) else b.rx | none => b.rx),
      tx := modAt b.tx lane (· + 1), held := modAt b.held lane (fun h => lastN 8 (h ++ [f])), inFlight := if acc then b.inFlight else b.inFlight.erase tag })
  | .power c => followPower c s
  | .freshness b => s.onPair (fun p => { p with freshness := some b })
  | .link v k x r t =>
    s.onBox false (fun b => { b with linked := true, ifv := v, chan := if k.isEmpty then none else some { kGcm := k, salt := x }, rx := r, tx := t })
  | .event r =>
    let e := evOf r
    let s := s.onPair (fun p => { p with ring := lastN 256 (p.ring ++ [e]) })
    match (if e.code = evCmdDone then e.tag else none) with
    | some t => (s.onPair (fun p => { p with accepted := p.accepted.filter (fun x => x.2.tag ≠ t) })).onBox false (fun b => { b with inFlight := b.inFlight.erase t })
    | none => s

/-- A transaction is applied whole (R442). -/
def applyItems (l : List MirrorItem) (s : State) : State :=
  let loc := l.any (fun i => match i with | .located .. => true | _ => false)
  updateUwb (l.foldl applyItem (if loc then s.onZon (fun z => { z with located := [] }) else s))

/-- MIRROR (R442): a block of a transaction; its last applies and acknowledges it. -/
def execMirror (seq mirrorSeq : Nat) (items : List MirrorItem) (last : Bool) (s : State) : Out :=
  recvBlock seq s (fun s =>
    if s.pair.role ≠ .lee then s else
    let all := s.pair.partial_ ++ items
    if !last then s.onPair (fun p => { p with partial_ := all })
    else if mirrorSeq ≠ s.pair.mirrorRx + 1 then s.onPair (fun p => { p with partial_ := [] })
    else
      let s := applyItems all (s.onPair (fun p => { p with partial_ := [], mirrorRx := mirrorSeq }))
      sendBlock 0x21 (le32 mirrorSeq) s)

/-- The join is complete on Headland (R454): the partner's serial is kept and `PAIR_ADMIT` ends. -/
def joinComplete (started_ : Nat) (s : State) : State :=
  let s := s.onPair (fun p => { p with joined := true, partner := 1, transfer := none })
  let s := emitT (s.pair.admission.map (fun a => a.1.tag)) evPairJoined 0 (le32 (now s - started_)) s
  let s := match s.pair.serial with
    | some n => if recBody s 0x0090 0 = some n then s else queueJob { cls := 3, items := [.record 0x0090 0 n] } s
    | none => s
  match s.pair.admission with
  | some (ref, _, _, _) => cmdDone ref stOk [] (s.onPair (fun p => { p with admission := none }))
  | none => s
/-- MIRROR_ACKNOWLEDGE (R442, R454). -/
def execMirrorAcknowledge (seq mirrorSeq : Nat) (s : State) : Out :=
  recvBlock seq s (fun s =>
    if s.pair.role ≠ .headland then s else
    let s := s.onPair (fun p => { p with mirrorAck := max p.mirrorAck mirrorSeq, backlog := p.backlog.filter (fun b => b.1 > mirrorSeq) })
    match s.pair.transfer with
    | some (q, t) => if mirrorSeq ≥ q then joinComplete t s else s
    | none => s)
/-- RESEND_REQUEST (R433): the held blocks are sent again; a gap that reaches past them makes the partner rejoin (R438). -/
def execResendRequest (first : Nat) (s : State) : Out :=
  if !linkLive s || !s.pair.up then next s else
  let held := s.pair.sent.any (fun b => b.1 == first) || first ≥ s.pair.tx
  if held then next (s.onPair (fun p => { p with missed := 0 }))
  else if s.pair.role = .headland then next (partnerJoins (s.onPair (fun p => { p with missed := 0 })))
  else next (s.onPair (fun p => { p with missed := 0, joined := false, partner := 2 }))

/-- COUNTER_COMMIT_REQUEST (R389): Lee queues the counter in class 1. -/
def execCounterCommitRequest (seq counter value : Nat) (s : State) : Out :=
  recvBlock seq s (fun s =>
    if s.pair.role ≠ .lee then s else
    let s := if counter = 0x200 then s.onPair (fun p => { p with freshness := some value }) else s
    queueJob { cls := 1, items := [.ctr counter value], after := .leeCommit counter } s)
/-- COUNTER_COMMIT_ACKNOWLEDGE (R389): with its own copy done the counter counts as committed; a deferral fails it. -/
def execCounterCommitAcknowledge (seq counter : Nat) (deferred : Bool) (s : State) : Out :=
  recvBlock seq s (fun s =>
    match s.pair.commits.find? (fun c => c.1 == counter && c.2.2.2 ≤ 1) with
    | none => s
    | some c =>
      if deferred then commitFailed counter c.2.1 s
      else if c.2.2.2 = 1 then counterDone counter c.2.1 true true (s.onPair (fun p => { p with commits := p.commits.erase c }))
      else s.onPair (fun p => { p with commits := p.commits.map (fun x => if x = c then (c.1, c.2.1, c.2.2.1, 2) else x) }))
/-- PAIR_COMMIT_TIMEOUT (R389): 1.00 ms after the request. -/
def execPairCommitTimeout (s : State) : Out :=
  match s.pair.commits.find? (fun c => c.2.2.2 ≤ 1) with
  | none => next s
  | some c => next (commitFailed c.1 c.2.1 (dueAt (c.2.2.1 + 1000) s))

/-- TRIGGER_FORWARD (R431): confirmed on Headland when it arrives. -/
def execTriggerForward (seq trigger : Nat) (s : State) : Out :=
  recvBlock seq s (fun s => if s.pair.role = .headland && trigger ≤ 31 then serveTrigger trigger s else s)
/-- BREACH_BLOCK (R453). -/
def execBreachBlock (seq : Nat) (s : State) : Out := recvBlock seq s (enterBreach 0x80 true false)
/-- TAMPER_STRANDED_BLOCK (R453). -/
def execTamperStrandedBlock (seq : Nat) (s : State) : Out := recvBlock seq s (enterStranded false 0 false)

/-! ### Commands (R435, R451, R454) -/

/-- PAIR_STATUS. -/
def execPairStatus (m : MbxCmd) (s : State) : Out := next (runCmd 0x0B00 m s (fun ref p s =>
  needLen 0 p ref s fun s =>
  let q := s.pair
  reply ref ([byte q.role.code, byte q.partner, byte q.version, byte q.missed] ++ le32 (q.backlog.map (·.2)).sum ++ le16 q.takeovers) s))

/-- PAIR_SWITCHOVER (R451). -/
def execPairSwitchover (m : MbxCmd) (s : State) : Out := next (runCmd 0x0B01 m s (fun ref p s =>
  needLen 0 p ref s fun s =>
  need (paired s && !ref.member) ref stNotInState s fun s =>
  need (s.path.isNone && s.pair.switch_.isNone) ref stBusy s fun s =>
  let s := accepted ref s
  let s := mirror [linkItem s] s
  sendBlock 0x40 (le32 s.pair.mirrorTx) (s.onPair (fun p => { p with switch_ := some (ref, now s) }))))
/-- HANDOVER (R451): Lee confirms with a handover block of its own and becomes Headland; the confirmation makes the old Headland Lee. -/
def execHandover (seq lastMirror : Nat) (s : State) : Out :=
  recvBlock seq s (fun s =>
    if s.pair.role = .lee then
      (if s.pair.joined && s.pair.mirrorRx ≥ lastMirror then takeOver true (sendBlock 0x40 (le32 lastMirror) s) else s)
    else if s.pair.switch_.isSome then becomeLee s else s)
/-- SWITCHOVER_TIMEOUT (R451). -/
def execSwitchoverTimeout (s : State) : Out :=
  match s.pair.switch_ with
  | none => next s
  | some (ref, t) => next (cmdDone ref stTimeout [] ((dueAt (t + 10000) s).onPair (fun p => { p with switch_ := none })))

/-- The attestation request goes out once its nonce is drawn (R454 step 3). -/
def sendAdmit (s : State) : State :=
  match s.pair.admission with
  | some (ref, t, [], 0) => (match draw .nonce 32 s with
    | (some n, s) => sendBlock 0x50 n (s.onPair (fun p => { p with admission := some (ref, t, n, 0) }))
    | (none, s) => s)
  | _ => s
/-- PAIR_ADMIT (R454). -/
def execPairAdmit (m : MbxCmd) (s : State) : Out := next (runCmd 0x0B02 m s (fun ref p s =>
  needLen 0 p ref s fun s =>
  need (s.pair.role == .headland && s.pair.up && s.pair.partner == 2 && !s.pair.joined && s.pair.version ≥ 2 && !ref.member) ref stNotInState s fun s =>
  need (s.pair.admission.isNone && s.pair.transfer.isNone) ref stBusy s fun s =>
  sendAdmit (accepted ref (s.onPair (fun p => { p with admission := some (ref, now s, [], 0) })))))
/-- ADMIT_TIMEOUT (R454). -/
def execAdmitTimeout (s : State) : Out :=
  match s.pair.admission with
  | none => next s
  | some (ref, t, _, _) => next (cmdDone ref stTimeout [] ((dueAt (t + 2000000) s).onPair (fun p => { p with admission := none, transfer := none })))

/-- ATTESTATION_REQUEST (R454 step 3): the joiner signs a report. -/
def execAttestationRequest (seq : Nat) (nonce : Bytes) (s : State) : Out :=
  recvBlock seq s (fun s => if s.pair.role = .lee && !s.pair.joined then startReport (s.onPair (fun p => { p with reportDue := some nonce })) else s)

/-- The certificate chains to the Jorholt root and names a serial (R346). -/
def chainOk (c serial : Bytes) : Bool :=
  envFormOk c && u16 c 0 = 0x0021 && u8 c 3 = 1 && u32 c 4 = 84 && slice c 8 16 == serial && (envBody c).take 16 == serial &&
    envSigned Config.jorholtRoot c
/-- The plug-ins of a report or of this device: families and versions of the loaded slots. -/
def pluginSet (rows : List (Nat × Nat × Nat)) : List (Nat × Nat) := (rows.filter (fun r => r.1 ≠ 0)).map (fun r => (r.2.1, r.2.2))
/-- The checks of R454 step 4. -/
def reportOk (r : JoinReport) (nonce : Bytes) (s : State) : Bool :=
  let e := r.envelope
  let b := envBody e
  let serial := s.pair.serial.getD []
  let theirs := pluginSet ((List.range 4).map (fun k => (u8 b (124 + 8 * k), u16 b (126 + 8 * k), u32 b (128 + 8 * k))))
  let ours := pluginSet (s.ext.slots.map (fun x => (x.state, x.family, x.version)))
  chainOk r.certificate serial && envFormOk e && u16 e 0 = 0x0020 && u8 e 3 = 3 && u32 e 4 = 256 && slice e 8 16 == serial &&
    envSigned (slice (envBody r.certificate) 16 64) e && b.take 16 == serial && slice b 16 32 == nonce && u8 b 48 = (lifecycle s).code &&
    u8 b 52 = (runningBank s).major && u8 b 53 = (runningBank s).minor && theirs.all ours.contains && ours.all theirs.contains &&
    u8 b 49 ≠ 5 && s.pair.beat.2.2 ≠ 3
/-- ATTESTATION_REPORT (R454 steps 4 and 5). -/
def execAttestationReport (seq : Nat) (report : JoinReport) (s : State) : Out :=
  recvBlock seq s (fun s =>
    match s.pair.admission with
    | some (ref, t, n, 0) =>
      if n.isEmpty then s
      else if reportOk report n s then startTransfer (s.onPair (fun p => { p with admission := some (ref, t, n, 1) }))
      else cmdDone ref stAuthFail [] (s.onPair (fun p => { p with admission := none }))
    | _ => s)
/-- STATE_TRANSFER (R438, R454 step 5): the joiner applies the whole, counters first; the join is complete when they are written. -/
def execStateTransfer (seq : Nat) (items : List MirrorItem) (last : Bool) (s : State) : Out :=
  recvBlock seq s (fun s =>
    if s.pair.role ≠ .lee then s else
    let all := s.pair.partial_ ++ items
    if !last then s.onPair (fun p => { p with partial_ := all }) else
    let isCtr := fun (i : MirrorItem) => match i with | .record t _ _ => t ≥ 0x8000 | _ => false
    let s := s.onPair (fun p => { p with partial_ := [], mirrorRx := p.mirrorRx + 1, joined := false, sessions := [], path := none, ring := [] })
    let s := applyItems (all.filter isCtr) s
    let s := queueJob { cls := 3, items := [.record 0x0090 0 (s.pair.serial.getD [])], after := .joined } s
    applyItems (all.filter (fun i => !isCtr i)) s)
/-- The joiner has written every mirrored counter: the join is complete. -/
def joinerDone (s : State) : State := sendBlock 0x21 (le32 s.pair.mirrorRx) (s.onPair (fun p => { p with joined := true, partner := 1 }))

/-- PAIR_WAKE (R67, R452): in Neap, or as it is entered. -/
def execPairWake (s : State) : Out := if s.pwr.cwPair then next (neapWake 0x42 false s) else next s

/-- What waits for a nonce of the pair (R365). -/
def resumeLink (s : State) : State :=
  let s := if s.pair.locked && !s.pair.up && s.pair.nonce.isNone then drawLinkNonce s else s
  sendAdmit s

end Sys2Proof.Machine
end

