-- ==== Sys2Proof/Machine/RngRows.lean ====
section
/-! DEFINITION. The rows of 15_random_numbers: noise sources, blocks, alarms, waits and the software ports. -/

namespace Sys2Proof.Machine
open Sys2Proof

/-- Noise source `n`, 1 or 2. -/
def noise (s : State) (n : Nat) : Noise := s.rng.src.getD (n - 1) {}
/-- Changes a noise source. -/
def onNoise (n : Nat) (f : Noise → Noise) (s : State) : State := s.onRng (fun r => { r with src := modAt r.src (n - 1) f })
/-- A source that samples: numbered 1 or 2, powered, out of Neap. -/
def sampling (s : State) (n : Nat) : Bool := (n == 1 || n == 2) && (noise s n).running && s.pwr.state ≠ .neap

/-- NOISE_SOURCES_START (R358): at the 2.00 ms row of Table 3-5. -/
def execNoiseSourcesStart (s : State) : Out :=
  if !(s.pwr.phase = .rom || s.pwr.phase = .firmware) || s.rng.src.any (·.running) || s.rng.fatal.isSome then next s else
  let s := advanceTo (if coldStart s then 2000 else 1200) s
  next (s.onRng (fun r => { r with src := r.src.map (fun x => { x with running := true, passed := false }) }))

/-- RNG_STARTUP_TEST_PASS (R359). With the test pattern selected, its samples are the pattern's (R373). -/
def execRngStartupTestPass (source : Nat) (s : State) : Out :=
  if !sampling s source || (noise s source).passed then next s else
  let s := if s.rng.test.getLsbD 0 then s.onRng (fun r => { r with lfsr := (lfsrBits 1024 r.lfsr).2 }) else s
  next (onNoise source (fun x => { x with passed := true }) s)

/-- The waiting consumers are served in the order of Table 15-2, the software ports last (R365); waits of requests that have gone end. -/
def serveRng (s : State) : State :=
  let s := resumeTp (resumePath s)
  let s := refillPort .ext (refillPort .cc (resumeGrant (resumeLink (serveOpens s))))
  match s.rng.drbg with
  | some d => if d.counter ≥ 65536 then s else s.onRng (fun r => { r with waiting := r.waiting.filter (fun w => w.1 = .vault) })
  | none => s

/-- RNG_BLOCK_READY (R361 to R363): 2048 passed samples conditioned into a block, which may instantiate or reseed the DRBG and
let waiting consumers be served. -/
def execRngBlockReady (source : Nat) (samples : Bytes) (s : State) : Out :=
  if !sampling s source || !(noise s source).passed || (noise s source).block.isSome || samples.length ≠ 256 then next s else
  let (bits, s) := if s.rng.test.getLsbD 0 then
      let p := lfsrBits 2048 s.rng.lfsr
      (beBytes 256 p.1, s.onRng (fun r => { r with lfsr := p.2 }))
    else (samples, s)
  let s := s.onRng (fun r => { r with
    src := modAt r.src (source - 1) (fun x => { x with block := some (shake256 bits 32) }),
    first := if ((r.src.getD (2 - source) {}).block).isSome then r.first else source - 1 })
  next (updateUwb (serveRng (tryReseed (tryInstantiate s))))

/-- A fatal alarm (R369): the DRBG and the pool are zeroised, waiting consumers fail, the third within 1 h is latched (R370).
The sources stand still until R370 restarts them. -/
def rngFatal (reason : Nat) (s : State) : State :=
  if s.rng.fatal.isSome then s else
  let times := s.rng.fatals.filter (fun t => now s < t + 3600000000) ++ [now s]
  let s := zeroiseRng (s.onRng (fun r => { r with
    fatal := some (now s), fatalWhy := reason, fatals := times, latchedFatal := times.length ≥ 3, reseedFrom := none,
    src := r.src.map (fun x => { x with running := false, passed := false }) }))
  let s := emit evRngFatal 2 [byte reason] s
  let s := if s.rng.waiting.any (fun w => w.1 = .challenge) then (rngDenies s).getD s else s
  let s := [false, true].foldl (fun s m => match (s.box m).waitOpen with
    | some w => respond w.ref stRngUnavailable [] (s.onBox m (fun b => { b with waitOpen := none }))
    | none => s) s
  updateUwb ((failGrant s).onRng (fun r => { r with waiting := [] }))

/-- RNG_HEALTH_FAIL (R360, R368, R369): a failure within the start-up test is reported as that test (Table 15-1). -/
def execRngHealthFail (source test : Nat) (s : State) : Out :=
  if !sampling s source || !(test = 1 || test = 2 || test = 3) || ((noise s source).passed != (test != 1)) then next s else
  let fails := (noise s source).fails.filter (fun t => now s < t + 10000000) ++ [now s]
  let s := onNoise source (fun x => { x with passed := false, fails := fails }) s
  let s := emit evRngHealth 1 [byte source, byte test] s
  next (if fails.length ≥ 3 then rngFatal 1 s else s)

/-- RNG_NO_BLOCK_TIMEOUT (R369): 20 ms with no block while a reseed waits. -/
def execRngNoBlockTimeout (s : State) : Out :=
  match s.rng.reseedFrom, s.rng.drbg with
  | some t, some _ => if s.pwr.state = .neap then next s else next (rngFatal 2 (advanceTo (t + 20000) s))
  | _, _ => next s

/-- RNG_FATAL_RESTART (R370). -/
def execRngFatalRestart (s : State) : Out :=
  match s.rng.fatal with
  | none => next s
  | some t =>
    if s.rng.latchedFatal || s.rng.src.any (·.running) || s.pwr.state = .neap then next s else
    next ((advanceTo (t + 10000000) s).onRng (fun r => { r with
      src := r.src.map (fun x => { x with running := true, passed := false, fails := [] }) }))

/-- RNG_WAIT_TIMEOUT (R367, Table 15-3). -/
def execRngWaitTimeout (user : RngUser) (s : State) : Out :=
  match s.rng.waiting.find? (fun w => w.1 = user) with
  | none => next s
  | some w =>
    let drop := fun (s : State) => s.onRng (fun r => { r with waiting := r.waiting.filter (fun x => x.1 ≠ user) })
    match user with
    | .nonce => next (drop ([false, true].foldl (fun s m => match (s.box m).waitOpen with
        | some o => respond o.ref stRngUnavailable [] ((advanceTo (o.since + 50000) s).onBox m (fun b => { b with waitOpen := none }))
        | none => s) s))
    | .vault => next (drop (failGrant (advanceTo (w.2 + 50000) s)))
    | .challenge => (match s.path with
        | some p => if p.ended then next (drop s) else
          let s := drop (advanceTo p.deadline s)
          next (if p.req.kind = .transponder then denyPath 15 s else deadlinePath s)
        | none => next (drop s))
    | _ => next (drop s)

/-- The software port answers while its core's firmware runs. -/
def portRuns (s : State) : Bool := started s && s.pwr.state ≠ .neap

/-- RNG_DATA_READ (R372). -/
def execRngDataRead (owner : CoreId) (s : State) : Out := next (if portRuns s then (readRngData owner s).2 else s)
/-- RNG_RESEED_REQUEST (Table 15-6, R372). -/
def execRngReseedRequest (owner : CoreId) (s : State) : Out := next (if portRuns s then askReseed owner s else s)
/-- RNG_FLUSH (Table 15-6). -/
def execRngFlush (owner : CoreId) (s : State) : Out := next (if portRuns s then flushPort owner s else s)
/-- RNG_TEST_WRITE (R373). -/
def execRngTestWrite (value : Word) (s : State) : Out := next (if portRuns s then writeRngTest value s else s)

end Sys2Proof.Machine
end

