-- ==== Sys2Proof/Machine/StoreRows.lean ====
section
/-! DEFINITION. The writer's rows of 16_record_store: taking a write or deferring it (R379 to R382), and what follows a commit for
whoever asked (R129, R225, R273, R332, R389). -/

namespace Sys2Proof.Machine
open Sys2Proof

/-- The writer works. -/
def writerRuns (s : State) : Bool := (s.pwr.phase = .ready || s.pwr.phase = .firmware) && s.pwr.state ≠ .neap && !s.pwr.shutdown

/-- A write is deferred, by its origin (R236, R342, R382, R389): a command ends, a path's counter fails, an anti-rollback counter
and a cable delay wait for their own retry, anything else is kept and checked again. -/
def deferWrite (j : Job) (rest : List Job) (s : State) : State :=
  let s := noteDeferral j s
  match j.after with
  | .pathCounter idx v =>
    let s := s.onStore (fun t => { t with queue := rest })
    if s.pair.commits.any (fun c => c.1 == idx && c.2.1 == v && c.2.2.2 == 3) then s
    else counterDone idx v false false (s.onPair (fun p => { p with commits := p.commits.filter (fun c => !(c.1 == idx && c.2.1 == v)) }))
  | .fwCounter => (s.onStore (fun t => { t with queue := rest })).onSec (fun x => { x with fwRetry := true })
  | .family f => (s.onStore (fun t => { t with queue := rest })).onSec (fun x => { x with
      famRetry := x.famRetry ++ j.items.filterMap (fun i => match i with | .ctr _ v => some (f, v) | .record .. => none) })
  | .leeCommit id => sendBlock 0x23 (le16 id ++ [1]) (s.onStore (fun t => { t with queue := rest }))
  | .cable p d => (s.onStore (fun t => { t with queue := rest })).onUwb (fun u => { u with ports := modAt u.ports (p - 1) (fun x => { x with delay := some d }) })
  | a => match a.ref with
    | some _ => endWrite a stStoreDeferred (s.onStore (fun t => { t with queue := rest }))
    | none => s.onStore (fun t => { t with
        queue := t.queue.map (fun x => if x = j then { x with deferred := true } else x),
        retryAt := if t.queue.any (·.deferred) then t.retryAt else s.clk.mono + 10000 })

/-- A regulatory record write as it begins (R289): the lock is a property that stands, whatever was queued before it, and the transition to
FIELD locks the record that stands then. -/
def regJob (s : State) (j : Job) : Job :=
  if j.after = .repair then j else
  { j with items := j.items.map (fun i => match i with
    | .record 0x0050 0 b => if b.isEmpty then i else
        (match j.after, recBody s 0x0050 0 with
         | .lifecycle .., some r => .record 0x0050 0 (r.take 416 ++ [1])
         | .lifecycle .., none => i
         | _, _ => .record 0x0050 0 (b.take 416 ++ [if regLocked s then 1 else 0]))
    | i => i) }
/-- A `REG_RECORD_WRITE` that waited is judged again as it begins (R289): denied once another write has locked or tightened the record. -/
def regRefused (s : State) (j : Job) : Option CmdRef :=
  match j.after, j.items with
  | .regRecord ref, [.record _ _ b] =>
    if lifecycle s = .factory || (!regLocked s && (match recBody s 0x0050 0 with | some o => regTightens o b | none => true)) then none else some ref
  | _, _ => none

/-- STORE_WRITE_BEGIN (R379 to R382): the next write of the lowest class, checked once, or a paused write's copy B. During the holdup
measurement no write begins (R58); a repair is made after mailbox ready (R387); an erase that a write forces comes before its cells. -/
def execStoreWriteBegin (s : State) : Out :=
  if !writerRuns s || s.store.cur.isSome then next s else
  let s := pumpLog s
  match pickWrite s.store with
  | .nothing => next s
  | .resume w rest => next (s.onStore (fun t => { t with cur := some { w with from_ := s.clk.mono }, paused := rest }))
  | .job j rest =>
    if s.pwr.holdBusy || (j.copies.isSome && s.pwr.phase ≠ .ready) then next s else
    match regRefused s j with
    | some ref => next (respond ref stDenied [] (s.onStore (fun t => { t with queue := rest })))
    | none =>
    let w := regJob s j
    if jobOk j s then
      next (s.onStore (fun t => { t with cur := some { job := w, from_ := s.clk.mono + 4000 * forcedErases j t }, queue := rest }))
    else next (deferWrite j rest s)

/-- STORE_DEFERRED_RETRY (R382): every 10 ms the deferred writes are checked again; one that passes goes back to the writer. -/
def execStoreDeferredRetry (s : State) : Out :=
  if !writerRuns s || s.pwr.holdBusy || !s.store.queue.any (·.deferred) then next s else
  let s := monoAt s.store.retryAt s
  next (s.onStore (fun t => { t with
    queue := t.queue.map (fun x => { x with deferred := x.deferred && !jobOk x s }), retryAt := s.clk.mono + 10000 }))

/-- The items that the pair mirrors when they commit (R389, R442); a path's and the freshness counter went ahead at their queuing. -/
def mirroredItems (j : Job) (s : State) : List MirrorItem :=
  match j.after with
  | .repair | .pathCounter .. | .freshness _ | .leeCommit _ => []
  | _ => j.items.filterMap (fun i => match i with
    | .record t k b => if mirroredTypes.contains t then some (recItem s t k b) else none
    | .ctr id v => if id < 0x200 then some (.record (0x8000 + id) 0 (le32 v)) else none)

/-- A committed regulatory record or power table takes effect at the end of the packet in progress, and for the LF engine at the end
of its burst (R291, R306). -/
def radioCommitted (j : Job) (s : State) : State :=
  if !j.items.any (fun i => match i with | .record 0x0050 _ _ | .record 0x0051 _ _ => true | _ => false) then s else
  let power := j.items.any (fun i => match i with | .record 0x0051 _ _ => true | _ => false)
  let s := takeLfRecord (s.onRad (fun r => { r with newTable := true, newPower := r.newPower || power }))
  if packetRuns s then s else txRecheck (takeRadioRecords s)

/-- A revocation is applied (R135): the path denies the token, its sessions end. -/
def revokeCommit (ref : CmdRef) (idx id : Nat) (s : State) : State :=
  let s := emitT (some ref.tag) evTokenRevoked 0 (le16 idx ++ le32 id) s
  let s := s.onPath (fun p => { p with auths := p.auths.map (fun a => if a.ans.idx = idx then { a with revoked := true } else a) })
  let s := { s with lastAuth := s.lastAuth.filter (fun x => x.1 ≠ idx), raised := s.raised.filter (fun x => x.1 ≠ idx) }
  let s := s.onStore (fun t => { t with queue := t.queue.filter (fun j => !(j.cls = 3 && j.items.any (fun i => match i with
    | .record 0x0030 k b => k == idx && !b.isEmpty
    | _ => false) && j.after = .nothing)) })
  let s := ((s.rel.access.filter (fun a => a.token == idx)).map (·.id)).foldl (fun s i => closeAccess i 4 (some ref.tag) s) s
  let s := match s.rel.start with | some t => if t.driver = idx then closeStart 4 (some ref.tag) s else s | none => s
  reply ref [] s

/-- A path counter's own copy B is written (R225, R389): with a partner, its acknowledgement is awaited too. -/
def pathCounterCommit (idx v : Nat) (s : State) : State :=
  match s.pair.commits.find? (fun c => c.1 == idx && c.2.1 == v) with
  | none => counterDone idx v true false s
  | some c =>
    let drop := fun (s : State) => s.onPair (fun p => { p with commits := p.commits.erase c })
    if c.2.2.2 = 2 then counterDone idx v true true (drop s)
    else if c.2.2.2 = 3 then drop s
    else s.onPair (fun p => { p with commits := p.commits.map (fun x => if x = c then (c.1, c.2.1, c.2.2.1, 1) else x) })

/-- A freshness block is committed (R273): values come from it, and the first one after start-up sends a start-state frame with the
permit clear (R274), unless a start session has been taken over. -/
def freshnessCommit (n : Nat) (s : State) : State :=
  if s.rel.blockWait ≠ some n then s else
  let first := s.rel.block.isNone
  let s := s.onRel (fun r => { r with block := some n, blockWait := none, fresh := some (if r.block = some (n - 1) then r.fresh.getD (n * 4096) else n * 4096) })
  if !first || param s 0x0606 = 0 || s.rel.start.isSome then s
  else
    sendRel (param s 0x0606) (param s 0x0607) (param s 0x0605) 2 0 0 (vaultKey s 3) s

/-- The former transport setting is stored again (R89): the event, and a reset of the ITF48 itself, which `RESET_CAUSE` shows as a host
reset (log 25). -/
def revertTransport (s : State) : State :=
  resetBy 2 (emit evMbxTransportReverted 1 [byte (pGet (s.par.trial.getD []) 1)] s)

/-- What follows a commit. -/
def committed (j : Job) (s : State) : State :=
  let s := radioCommitted j (mirror (mirroredItems j s) s)
  match j.after with
  | .nothing | .repair | .powerState | .fwCounter | .family _ =>
    if s.sec.wiping && !((s.store.queue ++ s.store.cur.toList.map (·.job) ++ s.store.paused.map (·.job)).flatMap (·.items)).any (fun i => match i with
        | .record 0x0030 _ [] => true | _ => false) && (recKeys s 0x0030).isEmpty then
      s.onSec (fun x => { x with wiping := false })
    else s
  | .cable p _ => updateUwb (s.onUwb (fun u => { u with ports := modAt u.ports (p - 1) (fun x => { x with delay := none, at_ := now s }) }))
  | .reply ref | .powerTable ref | .regRecord ref => reply ref [] (updateUwb s)
  | .params ref entries => reply ref [] (applyParams entries s)
  | .learned ref idx id => reply ref (le16 idx) (emitT (some ref.tag) evTokenLearned 0 (le16 idx ++ le32 id) s)
  | .revoked ref idx id => revokeCommit ref idx id s
  | .pathCounter idx v => pathCounterCommit idx v s
  | .freshness n => freshnessCommit n s
  | .lifecycle ref a b g k c => lifecycleCommit ref a b g k c s
  | .reprovision ref a k => reprovisionCommit ref a k s
  | .keys ref l root => keysCommit ref l root s
  | .logEntry => logCommitted s
  | .breach => wipeTokens (s.onSec (fun x => { x with breachDue := false }))
  | .leeCommit id => sendBlock 0x23 (le16 id ++ [0]) s
  | .joined => joinerDone s
  | .trial => revertTransport s

/-- STORE_WRITE_COMMIT (R380): copy B is written and the write is reported. -/
def execStoreWriteCommit (s : State) : Out :=
  match s.store.cur with
  | none => next s
  | some w =>
    if !w.aDone || !writerRuns s then next s
    else
      let s := copyTime w s
      next (committed w.job { s with store := { writeCopy true w.job s.store with cur := none } })

end Sys2Proof.Machine
end

