-- ==== Sys2Proof/Machine/BusRows.lean ====
section
/-! DEFINITION. The rows of 22_vehicle_buses: bus status and faults, the door status frame, LIN handle modules, and the
general-purpose pins. -/

namespace Sys2Proof.Machine
open Sys2Proof

/-! ### Commands (R484, R490, R491, R138) -/

/-- The fault kind that `BUS_STATUS` shows: on LIN a silent node is kind 4 (R484); of several the lowest (log 99). -/
def busKind (s : State) (k : Nat) : Nat :=
  let silent := k ≥ 2 && s.bus.nodes.any (fun n => n.bus == k - 1 && n.silent)
  let x := (s.bus.bus.getD k {}).kinds
  ((bitsOf 6 (if silent then setBit x 4 else x)).head?).getD 0
/-- BUS_STATUS (R484): the ENGINE_STATUS frames rejected join the receive error count of their bus (R276, log 60). -/
def execBusStatus (m : MbxCmd) (s : State) : Out := next (runCmd 0x0E00 m s (fun ref p s =>
  needLen 0 p ref s fun s =>
  reply ref ((List.range 6).flatMap (fun k =>
    let x := s.bus.bus.getD k {}
    let f := busKind s k
    let bad := if k = 0 then s.bus.rejected.1 else if k = 1 then s.bus.rejected.2 else 0
    [byte (if f ≠ 0 then 4 else x.state), byte f, byte (min 255 x.tec), byte (min 255 (x.rec_ + bad))])) s))

/-- The pin is a release output or carries the pair-alive signal (R138, R456). -/
def pinHeld (s : State) (k : Nat) : Bool :=
  (s.bus.pins.getD k {}).function == 1 || param s 0x0B01 == k + 1 || param s 0x0B02 == k + 1
/-- A pin as configured. An output keeps the level it had as one; a release output is negated, high-Z; an input shows its pull (log 41). -/
def pinAs (function dir pull : Nat) (p : Pin) : Pin :=
  let out := function = 0 && dir ≠ 0 && p.function = 0 && p.dir ≠ 0 && p.out
  { function := function, dir := dir, pull := pull, out := out, level := if function = 1 then true else if dir = 0 then pull == 2 else out }
/-- GPIO_CONFIG (R490, R491, R138). -/
def execGpioConfig (m : MbxCmd) (s : State) : Out := next (runCmd 0x0E01 m s (fun ref p s =>
  needLen 4 p ref s fun s =>
  let k := u8 p 0
  let f := u8 p 1
  need (k ≤ 7) ref stBadParam s fun s =>
  need (!pinHeld s k) ref stDenied s fun s =>
  need (f ≤ 2 && u8 p 2 ≤ 2 && u8 p 3 ≤ 2 && (f ≠ 1 || u8 p 2 = 2) && (f ≠ 2 || u8 p 2 = 0)) ref stBadParam s fun s =>
  reply ref [] (s.onBus (fun b => { b with pins := modAt b.pins k (pinAs f (u8 p 2) (u8 p 3)) }))))
/-- GPIO_WRITE (R491, R138). -/
def execGpioWrite (m : MbxCmd) (s : State) : Out := next (runCmd 0x0E02 m s (fun ref p s =>
  needLen 2 p ref s fun s =>
  let ks := bitsOf 8 (u8 p 0)
  need (!ks.any (pinHeld s)) ref stDenied s fun s =>
  need (ks.all (fun k => let x := s.bus.pins.getD k {}; x.function == 0 && x.dir != 0)) ref stBadParam s fun s =>
  reply ref [] (s.onBus (fun b => { b with pins := ks.foldl (fun l k => modAt l k (fun x =>
    { x with out := bitSet (u8 p 1) k, level := bitSet (u8 p 1) k })) b.pins }))))
/-- GPIO_READ (R491): ball levels, and which pins are outputs. -/
def execGpioRead (m : MbxCmd) (s : State) : Out := next (runCmd 0x0E03 m s (fun ref p s =>
  needLen 0 p ref s fun s =>
  let mask := fun (f : Pin → Bool) => (s.bus.pins.zipIdx).foldl (fun n (x : Pin × Nat) => if f x.1 then setBit n x.2 else n) 0
  reply ref [byte (mask (·.level)), byte (mask (fun x => x.dir != 0))] s))

/-! ### CAN (R481 to R484) -/

/-- The door status bits that a frame changed from `old` are read as door-open source 3. -/
def doorBitsRead (old bits : Nat) (s : State) : State :=
  ((List.range 16).filter (fun b => bitSet old b != bitSet bits b)).foldl
    (fun s b => doorSource (fun r => u8 r 10 == 3 && u8 r 11 == b) (bitSet bits b) s) s
/-- DOOR_STATUS_FRAME (R482); the first one since start-up tells of no change (R262, log 117); `overflow` frames were discarded at the receive queue before it (R79). -/
def execDoorStatusFrame (bus ident : Nat) (data : Bytes) (overflow : Nat) (s : State) : Out :=
  if !running s || bus = 0 || bus > 2 || bus ≠ param s 0x0E0E || ident ≠ param s 0x0E0F || data.length < 2 || !canUp s bus then next s else
  let bits := beNat (data.take 2)
  let t := (queueOverflow 5 overflow s).onBus (fun b => { b with doorBits := bits, doorAt := now s, doorSeen := true })
  next (doorBitsRead (if s.bus.doorSeen then s.bus.doorBits else bits) bits (busDiag (bus - 1) 4 true t))
/-- DOOR_STATUS_TIMEOUT (R482): the bits keep their last values. -/
def execDoorStatusTimeout (s : State) : Out :=
  let bus := param s 0x0E0E
  if !running s || bus = 0 || bitSet (s.bus.bus.getD (bus - 1) {}).kinds 4 then next s
  else next (busDiag (bus - 1) 4 false (advanceTo (s.bus.doorAt + 1000000) s))

/-- Changes CAN1 or CAN2, numbered 1 and 2. -/
def onCan (bus : Nat) (f : Bus → Bus) (s : State) : State := s.onBus (fun b => { b with bus := modAt b.bus (bus - 1) f })
/-- BUS_OFF (R481): the controller's ISO-TP message is abandoned (R97). -/
def execBusOff (bus : Nat) (s : State) : Out :=
  if !running s || bus = 0 || bus > 2 || !(let x := (s.bus.bus.getD (bus - 1) {}).state; s.clk.xtal26 && (x = 1 || x = 2)) then next s else
  let offs := (s.bus.bus.getD (bus - 1) {}).offs.filter (fun t => now s < t + 10000000) ++ [now s]
  let s := onCan bus (fun x => { x with state := 3, offs := offs, delayed := offs.length ≥ 3 }) s
  let s := if transport s = bus then
      [false, true].foldl (fun s m => (isoAbandon m s).onBox m (fun b => { b with isoRx := none })) s
    else s
  next (emit evBusOff 1 [byte bus] s)
/-- BUS_RECOVERED (R481): the controller rejoins; after a third bus-off within 10 s no sooner than 1 s later. -/
def execBusRecovered (bus : Nat) (s : State) : Out :=
  let x := s.bus.bus.getD (bus - 1) {}
  if !running s || bus = 0 || bus > 2 || x.state ≠ 3 then next s else
  let s := if x.delayed then advanceTo (x.offs.getLast?.getD 0 + 1000000) s else s
  next (onCan bus (fun x => { x with state := 1, delayed := false, tec := 0, rec_ := 0 }) s)
/-- BUS_FAULT (R484): a criterion of Table 22-2 is met or cleared; on LIN kinds 1 and 2 alone, and kinds 4 and 5 come and go with their
own commands. -/
def execBusFault (bus kind : Nat) (clear : Bool) (s : State) : Out :=
  if !running s || bus > 5 || kind = 0 || kind > (if bus < 2 then 3 else 2) then next s else next (busDiag bus kind clear s)

/-! ### LIN (R485 to R488) -/

/-- The node is in the schedule of its bus. -/
def linNamed (s : State) (bus node : Nat) : Bool := 1 ≤ bus && bus ≤ 4 && 1 ≤ node && node ≤ 15 && bitSet (param s (0x0E10 + bus)) node
/-- A path, running or queued, has a door released over the bus (R485). -/
def linReserved (s : State) (bus : Nat) : Bool :=
  let doors := (s.path.toList.filter (fun p => !p.ended)).map (·.req.doors) ++ s.paths.map (·.doors)
  doors.any (fun d => (bitsOf 16 d).any (fun k => match recBody s 0x0022 k with
    | some r => bitSet (u8 r 4) 1 && u8 r 6 == bus
    | none => false))
/-- A LIN status poll's frame: a header of 34 bits and a response of 50 (R485, R489). -/
def pollUs (s : State) : Nat := 84 * 1000000 / ([9600, 10400, 19200, 20000].getD (param s 0x0E10) 20000) + 1
/-- A parameter written while a poll ran takes effect at its frame's end (R24, R492). -/
def pollOver (s : State) : State := if s.bus.pollEnd.isNone then s else boundaryM .frame (s.onBus (fun b => { b with pollEnd := none }))
/-- LIN_STATUS_POLL (R485, Table 22-2): polls of a node are `LIN_POLL` apart, those of a bus 5 ms; a poll that finds three earlier ones
without an answer reports the node (log 42). -/
def execLinStatusPoll (bus node : Nat) (s : State) : Out :=
  if !running s || !drives s || !s.pwr.vbatFull || !linNamed s bus node || linReserved s bus then next s else
  let others := (s.bus.nodes.filter (·.bus == bus)).filterMap (fun n => n.polledAt.map (· + 5000))
  let own := (linNode s bus node).polledAt.toList.map (· + 10000 * param s 0x0E15)
  let s := pollOver (advanceTo ((others ++ own).foldl max 0) s)
  let n := linNode s bus node
  let s := s.onBus (fun b => { b with pollEnd := some (now s + pollUs s) })
  let s := onNode bus node (fun x => { x with
    missed := min 3 (x.missed + 1), heard := if x.missed = 0 then x.heard else 0, silent := x.silent || x.missed ≥ 3, polledAt := some (now s) }) s
  next (if n.missed ≥ 3 && !n.silent then emitF evLinNoResponse 1 [byte bus, byte node] [byte bus, byte node] s else s)
/-- LIN_STATUS (R484, R487, R488): the version, the door-open source 2, and a new handle pull, which confirms the bus's trigger; the first one since start-up tells of no change
(R262, log 117). A silent node answers again after three clean frames. -/
def execLinStatus (bus node : Nat) (data : Bytes) (s : State) : Out :=
  if !running s || !drives s || !linNamed s bus node || data.length ≠ 4 then next s else
  let s := pollOver s
  let n := linNode s bus node
  let pulled := bitSet (u8 data 1) 1
  let isOpen := bitSet (u8 data 1) 0
  let back := n.silent && n.heard ≥ 2
  let s := onNode bus node (fun x => { x with
    version := some (u8 data 0 % 16), doorOpen := isOpen, pulled := pulled, missed := 0, silent := n.silent && !back,
    heard := if n.silent && !back then n.heard + 1 else 0 }) s
  let s := if back then emitC evLinNoResponse 1 [byte bus, byte node] [byte bus, byte node] s else s
  let s := if n.version.isNone || n.doorOpen = isOpen then s else doorSource (fun r => u8 r 10 == 2 && u8 r 6 == bus && u8 r 7 == node) isOpen s
  next (if pulled && n.version.isSome && !n.pulled then serveTrigger (26 + bus) s else s)

end Sys2Proof.Machine
end

