-- ==== Sys2Proof/Machine/Extension.lean ====
section
/-! DEFINITION. The rows of 19_extension_core: plug-in commands, invocations, service requests, steps and the AES port. -/

namespace Sys2Proof.Machine
open Sys2Proof

/-! ### Commands (R417, R418, R422) -/

/-- PLUGIN_LOAD (R417, R339). -/
def execPluginLoad (m : MbxCmd) (s : State) : Out := next (runCmd 0x0C00 m s (fun ref p s =>
  needLen 4 p ref s fun s =>
  need (u8 p 0 ≤ 3 && zeros p 1 3) ref stBadParam s fun s =>
  need (s.pwr.state ≠ .breach) ref stNotInState s fun s => beginVerify (.plugin (u8 p 0)) ref s))
/-- PLUGIN_UNLOAD (R418): at once, or after the slot's invocation ends. -/
def execPluginUnload (m : MbxCmd) (s : State) : Out := next (runCmd 0x0C01 m s (fun ref p s =>
  needLen 4 p ref s fun s =>
  need (u8 p 0 ≤ 3 && zeros p 1 3) ref stBadParam s fun s => reply ref [] (changeSlot (u8 p 0) {} none s)))
/-- EXT_STATUS (R422). -/
def execExtStatus (m : MbxCmd) (s : State) : Out := next (runCmd 0x0C02 m s (fun ref p s =>
  needLen 0 p ref s fun s =>
  reply ref ((List.range 4).flatMap (fun i =>
    let x := slotOf s i
    [byte x.state, 0] ++ le16 x.traps ++ le16 x.overruns ++ [byte x.lastCause, 0])) s))

/-! ### Invocations (R419 to R421) -/

/-- The general registers at entry (R419). -/
def entryRegs (event dataBase : Nat) : Vector Word 32 :=
  ((((Vector.replicate 32 (0 : Word)).set 1 (BitVec.ofNat 32 event)).set 2 0x22000).set 3 (BitVec.ofNat 32 dataBase)).set 30 0x20000
/-- The invocation record (R419). -/
def invocRecord (v : Invoc) : Bytes := [byte v.event, byte v.slot, 0, 0] ++ le48 v.time ++ zeroBytes 6 ++ padTo 48 v.body
/-- The invocation at the head of the queue begins. -/
def beginInvoc (v : Invoc) (s : State) : State :=
  let x := slotOf s v.slot
  let m := memClear s.xc.mem 0x40002000 0x80
  let m := if s.ext.prevSlot = some v.slot then m else memClear m 0x18000 0x8000
  { s with
    ext := { s.ext with cur := some v, left := 400000 },
    xc := { s.xc with
      mem := memPut m 0x22000 (invocRecord v), regs := entryRegs v.event x.dataBase, ov := false, dz := false, sat := false, stopped := false,
      pc := BitVec.ofNat 32 (x.codeBase + x.entry) } }
/-- EXT_INVOCATION_BEGIN (R419): the next queued invocation, once the previous one's requests have been served; one of a slot that is
no longer live is discarded. -/
def execExtInvocationBegin (s : State) : Out :=
  match s.ext.queue with
  | [] => next s
  | v :: rest =>
    if !running s || halted s || s.ext.cur.isSome || !s.ext.requests.isEmpty || s.sec.halted.2 then next s else
    let s := s.onExt (fun e => { e with queue := rest })
    if slotLive s v.slot then next (beginInvoc v s)
    else next (s.onExt (fun e => { e with rxUsed := e.rxUsed.filter (fun k => some k ≠ v.buffer) }))
/-- EXT_WATCHDOG (R421): the budget of 400 000 clocks is used up. -/
def execExtWatchdog (s : State) : Out :=
  if !coreRuns s .ext then next s else
  let s := advanceTo (now s + s.ext.left / 200) s
  next (extTrap 6 0 0 s.xc.pc (spend .ext s.ext.left s))

/-! ### Service requests (R423 to R425) -/

/-- The slot that makes a request, and the machine with the request taken from the head of the list that SRVC handed over. With no
list the command itself is the request of the slot invoked last (log 40). -/
def takeRequest (req : Bytes) (s : State) : Option Nat × State :=
  match s.ext.requests with
  | [] => (match s.ext.cur with | some v => some v.slot | none => s.ext.prevSlot, s)
  | r :: rest => if r == req then (s.ext.prevSlot, s.onExt (fun e => { e with requests := rest })) else (none, s)

/-- ANSWER_REQUEST (R423): the answer's slot is valid for the window; checks 3 and 4 of R216, the record bound to the plug-in's slot. -/
def execAnswerRequest (serial : Nat) (tokenId : Nat) (s : State) : Out :=
  match takeRequest ([1, 0] ++ le16 serial ++ le32 tokenId ++ zeroBytes 8) s with
  | (none, s) => next s
  | (some slot, s) =>
    match s.path, s.ext.frames.find? (fun f => f.1 == serial) with
    | some p, some (_, fslot, poll, off) =>
      if p.step ≠ .window || p.ended || fslot = 255 || poll ≠ p.poll then next s else
      match tokenOf s tokenId with
      | none => next (foreignAnswer tokenId fslot s)
      | some idx =>
        if !(match tokenRec s idx with | some b => boundTo b slot | none => false) || slotFor s tokenId p.nDev ≠ fslot then
          next (foreignAnswer tokenId fslot s)
        else
          let a : Ans := { idx := idx, id := tokenId, poll := poll, slot := fslot, nDev := p.nDev, offNs := 1000 * off,
                           plugin := some slot, serial := serial }
          next (s.onPath (fun p => { p with answers := p.answers.filter (fun x => x.idx ≠ idx) ++ [a] }))
    | _, _ => next s

/-- A `Transmit done` event of a request that is not sent. -/
def refuseTx (slot buffer result : Nat) (s : State) : State :=
  (queueInvoc { slot := slot, event := 5, body := [byte buffer, byte result] } s).2
/-- TRANSMIT_REQUEST (R424): within the slot's step only; at its start time, as soon as possible for 0. -/
def execTransmitRequest (buffer preamble start : Nat) (s : State) : Out :=
  match takeRequest ([2, byte buffer, byte preamble, 0] ++ le48 start ++ zeroBytes 6) s with
  | (none, s) => next s
  | (some slot, s) =>
    let n := leNat (memReadN s.xc.mem (0x21000 + 256 * buffer) 2)
    let wait := (start + 2 ^ 48 - tide s) % 2 ^ 48
    match s.ext.step, s.path with
    | some st, some p =>
      if st.1 ≠ slot || buffer > 15 || s.ext.txUsed.any (fun b => b.2 == buffer) || preamble = 0 || preamble > 8 || n = 0 || n > 240 then
        next (refuseTx slot buffer 2 s)
      else if start ≠ 0 && wait ≥ 2 ^ 47 then next (refuseTx slot buffer 4 s)
      else if start ≠ 0 && now s + wait ≥ st.2.2.2 then next (refuseTx slot buffer 2 s)
      else
        let s := if start = 0 then s else advanceTo (now s + wait) s
        let body := memReadN s.xc.mem (0x21010 + 256 * buffer) n
        let frame := List.replicate preamble 0xAA ++ (twFrame body).drop 1
        let s := s.onExt (fun e => { e with txUsed := e.txUsed ++ [(slot, buffer)] })
        let (st, s) := txRequest { freq := p.freq, asked := param s 0x0701, airUs := twAirUs s frame.length, prec := 1, frame := frame,
                                   plugin := some buffer } s
        if st = stOk || st = stAccepted then next s
        else next (transmitDone buffer (if st = stRegulatory then 1 else 2) s)
    | _, _ => next (refuseTx slot buffer 2 s)

/-- The offset of a verdict's second frame from its declared instant, in ns: 0 without one; `none` for a frame that is not known. -/
def secondOffset (b : Bytes) (s : State) : Option Int :=
  if u16 b 22 = 0xFFFF then some 0
  else match s.ext.frames.find? (fun f => f.1 == u16 b 22) with
    | some (_, 255, _, sync) => some (1000 * (sync - (u48 b 24 : Int)))
    | some (_, _, _, off) => some (1000 * off)
    | none => none
/-- A verdict block for the step's token (R425). -/
def applyVerdict (slot : Nat) (b : Bytes) (a : Ans) (s : State) : State :=
  let over_ := fun (s : State) => nextAuth (s.onExt (fun e => { e with step := none }))
  match u8 b 0 with
  | 0 =>
    let ctr := u32 b 8
    if ctr ≤ tokCounter s a.idx then over_ (emit evTokenAuthFail 1 (le16 a.idx ++ [4]) (logOldCounter a.idx ctr (tokCounter s a.idx) s))
    else
      let a := { a with counter := ctr, strengths := (slice b 12 8).map (·.toNat), pre := u8 b 20 }
      let kS := if u8 b 1 = 0xFF then none else (slotOf s slot).vol.getD (u8 b 1) none
      match secondOffset b s with
      | some off => over_ (authenticated a kS off 0 a.slot s)
      | none => s
  | 1 => over_ (emit evTokenAuthFail 1 (le16 a.idx ++ [1]) s)
  | _ => over_ (foreignAnswer a.id a.slot s)
/-- VERDICT (R425): the block at an address of the slot's data or the stack; taken for the token of the slot's step only, and not once
the token is revoked (R428). -/
def execVerdict (address : Word) (s : State) : Out :=
  match takeRequest ([3, 0, 0, 0] ++ le32 address.toNat ++ zeroBytes 8) s with
  | (none, s) => next s
  | (some slot, s) =>
    let x := slotOf s slot
    let at_ := address.toNat
    let b := memReadN s.xc.mem at_ 32
    match s.ext.step, s.path.bind (·.cur) with
    | some st, some a =>
      let ok : Bool := st.1 == slot && (within at_ 32 x.dataBase x.dataSize || within at_ 32 0x18000 0x8000) && u8 b 0 ≤ 2 &&
        (u8 b 1 ≤ 3 || u8 b 1 == 0xFF) && u16 b 2 == st.2.1 && u32 b 4 == a.id && zeros b 21 1 && zeros b 30 2 &&
        (tokenRec s a.idx).isSome
      next (if ok then applyVerdict slot b a s else s)
    | _, _ => next s
/-- PLUGIN_STEP_END (R424): the step's end time comes without a verdict. -/
def execPluginStepEnd (s : State) : Out :=
  match s.ext.step with
  | none => next s
  | some st => next (stepFails (advanceTo st.2.2.2 s))

/-! ### Frame exchange and AES port (R426, R427) -/

/-- FX_LOOKUP (Table 19-6). -/
def execFxLookup (tokenId : Word) (s : State) : Out := next (if s.ext.cur.isSome then fxWrite tokenId s else s)
/-- AES_ENCRYPT (R427): operation 1. -/
def execAesEncrypt (s : State) : Out := next (aesStart 1 0 s)
/-- AES_DECRYPT (R427): operation 2. -/
def execAesDecrypt (s : State) : Out := next (aesStart 2 0 s)
/-- AES_CMAC (R427): operation 3. -/
def execAesCmac (s : State) : Out := next (aesStart 3 0 s)
/-- AES_CMAC_DKEY (R427): operation 4, into a volatile key. -/
def execAesCmacDkey (dkey : Nat) (s : State) : Out := next (if dkey > 3 then s else aesStart 4 dkey s)
/-- AES_BUSY_READ (Table 19-7): a read of the status word stalls until the operation is done. -/
def execAesBusyRead (s : State) : Out := next (if s.ext.cur.isSome then (readReg (.aes 0x14) s).2 else s)
/-- AES_OP_DONE (Table 19-7). -/
def execAesOpDone (s : State) : Out := next (if s.ext.aesBusy then aesDone s else s)

end Sys2Proof.Machine
end

