-- ==== Sys2Proof/Machine/Faults.lean ====
section
/-! DEFINITION. Fault handling, the paths of event records, the alarm wires' diagnosis, SOUNDING_RUN and the erosion report
(21_faults_events_and_erosion). -/

namespace Sys2Proof.Machine
open Sys2Proof

/-! ### Handling (R459, R460) -/

/-- Every diagnosis of a line and every block status that stands: code, class, instance and parameters (R460). -/
def standing (s : State) : List (Nat × Nat × Bytes × Bytes) :=
  ((List.range 48).map (· + 1)).flatMap (fun c => (bitsOf 8 (lfChan s c).diag).map (fun b =>
    (evLfDiag, 1, [byte c, byte b], [byte c, byte (lfChan s c).diag]))) ++
  s.zon.remaps.map (fun o => (evChannelRemapped, 1, [byte o.1, byte o.2.1], [byte o.2.1, byte o.2.2])) ++
  [(1, s.rel.tpDiag.1), (2, s.rel.tpDiag.2)].flatMap (fun (p : Nat × Nat) =>
    (bitsOf 4 p.2).map (fun k => (evTransponderDiag, 1, [byte p.1, byte k], [byte p.1, byte k]))) ++
  [(0, s.rel.diagA.1), (1, s.rel.diagB.1)].flatMap (fun (p : Nat × Nat) =>
    (bitsOf 4 p.2).map (fun k => (evStartOutputDiag, 1, [byte p.1, byte k], [byte p.1, byte k]))) ++
  [(0, s.pwr.lineKinds.1), (1, s.pwr.lineKinds.2)].flatMap (fun (p : Nat × Nat) =>
    (bitsOf 4 p.2).map (fun k => (evSignalLine, 1, [byte p.1, byte k], [byte p.1, byte k]))) ++
  (List.range 16).filterMap (fun c => if (capChan s c).diag = 0 then none else some (evSenseDiag, 1, [byte c], [byte c, byte (capChan s c).diag])) ++
  (List.range 2).filterMap (fun g => if (s.sen.guards.getD g (false, 0)).1 then some (evSenseDiag, 1, [byte (32 + g)], [byte (32 + g), 1]) else none) ++
  ((List.range 8).map (· + 1)).filterMap (fun n => if (contact s n).stuck then some (evContactStuck, 1, [byte n], [byte n]) else none) ++
  ((List.range 8).map (· + 1)).filterMap (fun n =>
    if (contact s n).openWire then some (evSenseDiag, 1, [byte (15 + n)], [byte (15 + n), 2]) else none) ++
  (if s.sen.wakeStuck then [(evContactStuck, 1, [9], [9])] else []) ++
  (List.range 6).flatMap (fun b => (bitsOf 6 (s.bus.bus.getD b {}).kinds).map (fun k => (evBusFault, 1, [byte b, byte k], [byte b, byte k]))) ++
  (s.bus.nodes.filter (·.silent)).map (fun n => (evLinNoResponse, 1, [byte n.bus, byte n.node], [byte n.bus, byte n.node])) ++
  (bitsOf 5 s.uwb.unavail).map (fun r => (evUwbUnavailable, 1, [byte r], [byte r])) ++
  (if s.rad.mismatch then [(evRadioMismatch, 1, [], [byte s.rad.vswr])] else []) ++
  (if s.rng.fatal.isSome then [(evRngFatal, 2, [], [byte s.rng.fatalWhy])] else []) ++
  (if s.clk.xtal26 then [] else [(evXtal26Fail, 3, [], [])]) ++
  (if s.clk.xtal32 = .failed then [(evXtal32Fail, 1, [], [])] else []) ++
  holdReport s.pwr.hold ++
  (s.ero.filter (·.warned)).map (fun e => (evErosionWarn, 1, [byte e.item, byte e.inst], [byte e.item, byte e.inst] ++ le16 e.months))

/-- FAULT_HANDLING_DONE (R459, R460): the newest suspended handling resumes, else the oldest queued fault is handled. When the
queue drains after a loss, every monitor, diagnosis and status is read again and what persists is raised again. -/
def execFaultHandlingDone (s : State) : Out :=
  match s.flt.handling, s.flt.suspended, s.flt.queue with
  | none, _, _ => next s
  | some _, h :: l, _ => next (s.onFlt (fun f => { f with handling := some h, suspended := l }))
  | some _, [], h :: l => next (s.onFlt (fun f => { f with handling := some h, queue := l }))
  | some _, [], [] =>
    let s := s.onFlt (fun f => { f with handling := none })
    if s.flt.lost = 0 || s.flt.reread then next s else
    let s := readMonitors (s.onFlt (fun f => { f with reread := true }))
    next ((standing s).foldl (fun s d => if faultActive s d.1 d.2.2.1 then s else emitF d.1 d.2.1 d.2.2.1 d.2.2.2 s) s)

/-! ### The host ring (R464, R465) -/

/-- The oldest record of a source that waits: from its queue, or from its tag's slot; and the state without it. -/
def takeRecord (src : Nat) (s : State) : Option (EvRec × State) :=
  let slot := s.evt.cmdDone.find? (fun r => r.source == src)
  let fromSlot := fun (r : EvRec) => some (r, s.onEvt (fun e => { e with cmdDone := e.cmdDone.erase r }))
  match s.evt.queues.getD src [], slot with
  | [], none => none
  | [], some r => fromSlot r
  | q :: l, slot =>
    let older : Bool := match slot with | some r => (q.seq + 65536 - r.seq) % 65536 < 32768 | none => false
    match older, slot with
    | true, some r => fromSlot r
    | _, _ =>
      let wait := s.evt.pinned.find? (fun r => r.source == src)
      some (q, s.onEvt (fun e => { e with
        queues := e.queues.set src (l ++ wait.toList), pinned := match wait with | some r => e.pinned.erase r | none => e.pinned }))

/-- RECORD_TO_HOST_RING (R464 to R466): one record leaves its source for a free entry of the ring, and for the trace; a pinned record takes
its place in the queue, a lost count follows when the queue has room, and the record is mirrored (R442) and offered to the host (R112). -/
def execRecordToHostRing (source : Nat) (s : State) : Out :=
  if s.evt.ring.length ≥ 256 then next s else
  match takeRecord source s with
  | none => next s
  | some (r, s) =>
    let s := flushLost source (s.onEvt (fun e => { e with ring := e.ring ++ [r], trace := lastN 512 (e.trace ++ [r]) }))
    next (pumpEvents (mirror [.event r.bytes] s))

/-! ### Line readback (R44, R462) -/

/-- SIGNAL_LINE_FAULT (R44, R462, Table 2-6): lines 0 FAULT_N and 1 ALARM_N show a short to ground (1) or to battery (2); lines 2
and 3 are the transponder ports TP1 and TP2, which a short turns off (R47, R283). A port's open is found in the charge phase alone; here
it may clear (log 100). -/
def execSignalLineFault (line kind : Nat) (clear : Bool) (s : State) : Out :=
  if !running s || kind = 0 || kind > 3 || (kind = 3 && !(clear && line ≥ 2)) || line > 3 then next s
  else if line ≥ 2 then
    let port := line - 1
    let s := tpFault port kind clear s
    next (match s.path with
      | some p => if !clear && p.req.kind = .transponder && p.req.port = port && !p.ended then denyPath 12 s else s
      | none => s)
  else
    let set := fun (f : Nat → Nat) => s.onPwr (fun p => { p with
      lineKinds := if line = 0 then (f p.lineKinds.1, p.lineKinds.2) else (p.lineKinds.1, f p.lineKinds.2) })
    let on := bitSet (if line = 0 then s.pwr.lineKinds.1 else s.pwr.lineKinds.2) kind
    if on != clear then next s
    else if clear then next (emitC evSignalLine 1 [byte line, byte kind] [byte line, byte kind] (set (fun m => clrBit m kind)))
    else next (emitF evSignalLine 1 [byte line, byte kind] [byte line, byte kind] (set (fun m => setBit m kind)))

/-! ### SOUNDING_RUN (R473) -/

/-- The frequencies of the allowed channels, lowest first within each band. -/
def allowedFreqs (s : State) : List Nat :=
  match s.rad.reg with
  | some r => (chanFreqs r).zipIdx.filterMap (fun c => if maskAllows r c.2 then some c.1 else none)
  | none => []

/-- A mandatory calibration within the feeder sounding (R293, R295): what its steps find is free (log 8). -/
def calInline (n : Nat) (s : State) : State :=
  let (v, s) := (List.range 5).foldl (fun (acc : CalEntry × State) k =>
    let (x, s) := drawFree acc.2
    let (dc, s) := if k = 3 then (List.range 8).foldl (fun (d : List Nat × State) _ => let (y, s) := drawFree d.2; (d.1 ++ [y], s)) ([], s) else ([], s)
    (calField k x dc acc.1, s)) ({}, s)
  storeCal { chan := n, step := 5, mandatory := true, shadow := v } (passUs 178 s)
/-- The feeder's length in cm from the phases, in urad, measured at frequencies in kHz (R312): -c x VF x slope / (4 pi), with the slope
fitted by least squares. -/
def feederLength (vf : Nat) (pts : List (Nat × Int)) : Nat :=
  let n : Int := pts.length
  let f := fun (p : Nat × Int) => (p.1 : Int)
  let sf := (pts.map f).sum
  let num := n * (pts.map (fun p => f p * p.2)).sum - sf * (pts.map (·.2)).sum
  let den := n * (pts.map (fun p => f p * f p)).sum - sf * sf
  sat 0xFFFE (roundDivI (-(299792458 * (vf : Int) * num * 1000)) (den * 12566370614359).toNat).toNat
/-- One transmission of a feeder sounding under the checks of R301, with the tuner bypassed: 50 us at entry 0. Its phase is free (log 8);
`none` when it is refused. -/
def feederShot (kHz : Nat) (s : State) : Option Int × State :=
  match radChecks kHz 0 50 3 s with
  | (none, s) => (none, s)
  | (some (n, _), s) =>
    let s := makeWay 3 n s
    let (r, s) := if calUsable s n then (some (n, 0), s) else radChecks kHz 0 50 3 (calInline n s)
    if r.isNone then (none, s) else
    let s := hopTo n (coexLead 3 s)
    if param s 0x0704 = 1 && !s.rad.grant then (none, coexDrop (passUs (10 * param s 0x0705) s)) else
    let (v, s) := drawFree (coexDrop (addAir 50 (passUs 50 s)))
    (some (signed 32 (v % 2 ^ 32)), s)
/-- The sub-GHz feeder sounding (R312): 16 transmissions at channels spread over the band plan; its parameter takes effect as it begins
(R317). It is not measured over less than 2 MHz; a refused transmission fails it. -/
def feederSounding (s : State) : State :=
  let s := boundaryM .feeder s
  let l := allowedFreqs s
  let lo := l.foldl min (l.headD 0)
  let hi := l.foldl max 0
  if hi < lo + 2000 then soundPart 2 false s else
  if s.pair.role = .lee || riding s || s.pwr.state ≠ .flood then soundPart 2 true s else
  let (pts, s) := (List.range 16).foldl (fun (acc : Option (List (Nat × Int)) × State) k =>
    match acc.1 with
    | none => acc
    | some pts =>
      let kHz := l.getD (k * (l.length - 1) / 15) 0
      match feederShot kHz acc.2 with
      | (some v, s) => (some (pts ++ [(kHz, v)]), s)
      | (none, s) => (none, s)) (some [], s)
  match pts with
  | none => soundPart 2 true s
  | some pts => soundPart 2 false (packetBoundary { s with soundRun := s.soundRun.map (fun r => { r with feederCm := feederLength (param s 0x0708) pts }) })

/-- The radio is held against a host's transmission: a path or window of higher precedence, or a packet of equal or higher (Table 12-5). -/
def radioHeld (s : State) : Bool := s.path.isSome || s.zon.poll.isSome || s.rad.tx.any (fun t => t.prec ≤ 3)
/-- SOUNDING_RUN (R473, R312, R237): the supplies, the partner and the feeder are sounded at once, coils and cables by their own
commands; the coils are the usable channels (log 91). Bit 5 of `left` stands for this command itself. -/
def execSoundingRun (m : MbxCmd) (s : State) : Out :=
  next (runCmd 0x0D00 m s (fun ref p s =>
    needLen 4 p ref s fun s =>
    let k := u8 p 0
    need (k < 32 && zeros p 1 3) ref stBadParam s fun s =>
    let coils := ((List.range 48).map (· + 1)).filter (usable s)
    let check := if bitSet k 1 then soundCheck coils s else none
    need (s.soundRun.isNone && !(bitSet k 1 && hostLfBusy s) && !(bitSet k 2 && radioHeld s) &&
      !(bitSet k 3 && (!s.uwb.sessions.isEmpty || s.uwb.reflRef.isSome))) ref stBusy s fun s =>
    need (check ≠ some stBusy) ref stBusy (if check = some stBusy then soundThermal coils s else s) fun s =>
    let s := accepted ref { s with soundRun := some { ref := ref, mask := k, left := k + 32 } }
    let s := soundPart 0 (!s.pwr.vbatValid || !s.pwr.vlfValid.all (·)) s
    let s := soundPart 4 (!paired s) s
    let s := if !bitSet k 1 then s
      else if check.isSome || coils.isEmpty then soundPart 1 check.isSome s
      else beginSounding (coils.foldl (fun n c => setBit n (c - 1)) 0) none s
    let ports := (List.range 4).foldl (fun n i => if portEnabled s (i + 1) then setBit n i else n) 0
    let s := if !bitSet k 3 then s else if ports = 0 then soundPart 3 false s else s.onUwb (fun u => { u with refl := u.refl ||| ports })
    let s := if bitSet k 2 then feederSounding s else s
    soundPart 5 false s))

/-! ### The erosion report (R474 to R476) -/

/-- The unit code of an item's instance (Table 21-7). -/
def unitCode (item inst : Nat) : Nat := if item ≤ 2 then item else if item = 3 then 2 + inst else item + 1

/-- Twice the end-of-life values of an instance: the lower one and the upper one (Table 21-7). -/
def endOfLife (e : Erode) : Option Int × Option Int :=
  match e.item with
  | 1 => (none, some (4 * e.first))
  | 2 => (some (max e.first 1000), none)
  | 3 => if e.inst = 1 then (some 4400, none) else (none, some 1000)
  | 4 => (none, some (if e.inst = 1 then 200000 else 20000))
  | 5 => (some (-4000), some 4000)
  | 6 => (some (-600), none)
  | 7 => (some (-600), some 600)
  | _ => (none, some 4000000)

/-- Months to an end-of-life value (R475): the value is reached in `2000 m2 / (2 1461 n slope)` months, for a margin of
`m2 / (2 n d)` and a slope of `slope / (1000 d)`; `none` when the slope leads away. -/
def monthsTo (n : Nat) (m2 slope : Int) : Option Nat :=
  if (m2 > 0 && slope > 0) || (m2 < 0 && slope < 0) then some (1000 * m2.natAbs / (1461 * n * slope.natAbs)) else none

/-- The fit and prediction of R475 at the time of the last sample, in exact integers but for the root in `s_b`: the slope is
`b / d`, the line's value `xn / (n d)`. -/
def predict (e : Erode) : Erode :=
  let n : Int := e.n
  let d := n * e.sumTT - e.sumT * e.sumT
  if e.n < 14 || e.lastT < e.firstT + 336 || d ≤ 0 then { e with months := 0xFFFF, low := 0xFFFF, high := 0xFFFF, conf := 0 } else
  let b := n * e.sumTX - e.sumT * e.sumX
  let xn := e.sumX * d + b * (n * e.lastT - e.sumT)
  let sb : Int := isqrt (1645 * 1645 * ((n * e.sumXX - e.sumX * e.sumX) * d - b * b).toNat / (e.n - 2))
  let (lo, hi) := endOfLife e
  let margin := fun (thr : Int) => thr * n * d - 2 * xn
  let e := { e with present := roundDivI xn (n * d).toNat, conf := 90 }
  let past := (match lo with | some t => margin t ≥ 0 | none => false) || (match hi with | some t => margin t ≤ 0 | none => false)
  if past then { e with months := 0, low := 0, high := 0 } else
  let at_ := fun (slope : Int) => sat 0xFFFF ((((lo.bind (fun t => monthsTo e.n (margin t) slope))).or
    (hi.bind (fun t => monthsTo e.n (margin t) slope))).getD 0xFFFF)
  let x := at_ (1000 * b - sb)
  let y := at_ (1000 * b + sb)
  { e with months := at_ (1000 * b), low := min x y, high := max x y }

/-- A sample of an instance at an hour (R475); the aerial delay counts from its first value. -/
def sampleErode (t : Nat) (x : Int) (e : Erode) : Erode :=
  let e := if e.n = 0 then { e with first := x, firstT := t } else e
  let y := if e.item = 7 then x - e.first else x
  predict { e with
    n := e.n + 1, sumT := e.sumT + t, sumX := e.sumX + y, sumTT := e.sumTT + t * t, sumTX := e.sumTX + t * y, sumXX := e.sumXX + y * y,
    lastT := t, present := y, acc := if e.item = 8 then x else 0, accN := 0, toks := [] }

/-- The warning of an instance (R476), given its months before the sample. -/
def erodeWarn (before : Nat) (e : Erode) (s : State) : State :=
  let w := param s 0x0D01
  let i := [byte e.item, byte e.inst]
  let p := i ++ le16 e.months
  let put := fun (v : Bool) (s : State) =>
    { s with ero := s.ero.map (fun x => if x.item == e.item && x.inst == e.inst then { x with warned := v } else x) }
  if e.months < w && (!e.warned || (e.months = 0 && before ≠ 0)) then emitF evErosionWarn 1 i p (put true s)
  else if e.warned && e.months ≥ w + 3 then emitC evErosionWarn 1 i p (put false s)
  else s

/-- The day's measurement of an instance: a reading, or the mean of those that were taken (Table 21-7), the crystal's over at least
20 tokens. -/
def dayValue (s : State) (item inst : Nat) : Option Int :=
  let e := s.ero.find? (fun e => e.item == item && e.inst == inst)
  match item with
  | 3 => s.pwr.hold.map (fun h => if inst = 1 then (h.1 : Int) else h.2)
  | 4 => if inst = 1 then some ((s.store.pages.foldl (fun m p => max m p.erases) 0 : Nat) : Int)
         else some ((s.sec.banks.getD (inst - 2) {}).programs : Int)
  | 7 => (storedDelay s inst).map (fun d => (d : Int))
  | 8 => some (match e with | some e => e.acc | none => 0)
  | _ => match e with
    | some e => if e.accN = 0 || (item = 5 && e.toks.length < 20) then none else some (roundDivI e.acc e.accN)
    | none => none

/-- The instances of an item (Table 21-7). -/
def instances (item : Nat) : Nat := [48, 48, 2, 3, 1, 4, 4, 2].getD (item - 1) 0

/-- The history of an item as record 0x0070 keeps it (R475): each instance's first value and sums. -/
def erodeBytes (s : State) (item : Nat) : Bytes :=
  (s.ero.filter (fun e => e.item == item)).flatMap (fun e =>
    [byte e.inst] ++ le16 e.n ++ le32 e.firstT ++ le32 e.lastT ++ [e.first, e.sumT, e.sumX, e.sumTT, e.sumTX, e.sumXX].flatMap (fun z =>
      let v := twos 64 z
      le32 (v % 2 ^ 32) ++ le32 (v / 2 ^ 32)))

/-- EROSION_SAMPLE (R475, R476): 24 h of running after the last one; the measurements of the period are then over. -/
def execErosionSample (s : State) : Out :=
  if !running s then next s else
  let s := passUs (s.eroAt + dayUs - s.clk.mono) s
  let t := s.clk.mono / 3600000000
  let one (s : State) (k : Nat × Nat) : State :=
    let mine := fun (e : Erode) => e.item == k.1 && e.inst == k.2
    match dayValue s k.1 k.2 with
    | none => { s with ero := s.ero.map (fun e => if mine e then { e with acc := 0, accN := 0, toks := [] } else e) }
    | some x =>
      let old := (s.ero.find? mine).getD { item := k.1, inst := k.2 }
      let e := sampleErode t x old
      erodeWarn old.months e { s with ero := s.ero.filter (fun e => !mine e) ++ [e] }
  let all := ((List.range 8).map (· + 1)).flatMap (fun i => (List.range (instances i)).map (fun j => (i, j + 1)))
  let s := all.foldl one { s with eroAt := s.clk.mono }
  next (queueJob { items := ((List.range 8).map (· + 1)).map (fun i => .record 0x0070 i (erodeBytes s i)) } s)

/-- EROSION_READ (R474): the value reported for an instance that does not exist is free. -/
def execErosionRead (m : MbxCmd) (s : State) : Out :=
  next (runCmd 0x0D01 m s (fun ref p s =>
    needLen 4 p ref s fun s =>
    let (i, j) := (u8 p 0, u8 p 1)
    need (1 ≤ i && i ≤ 8 && zeros p 2 2) ref stBadParam s fun s =>
    let e := s.ero.find? (fun e => e.item == i && e.inst == j && e.n ≠ 0)
    let out := fun (v : Nat) (e : Erode) (s : State) =>
      reply ref ([byte i, byte j] ++ le32 v ++ [byte (unitCode i j), 0] ++ le16 e.months ++ le16 e.low ++ le16 e.high ++ [byte e.conf]) s
    match e with
    | some e =>
      if i ≤ 2 && (lfChan s j).disabled then let (v, s) := drawFree s; out v {} s
      else out (twos 32 e.present) e s
    | none => let (v, s) := drawFree s; out v {} s))

end Sys2Proof.Machine
end

