-- ==== Sys2Proof/Machine/Dispatch.lean ====
section
/-! DEFINITION. One arm for each command of the opcode table: a direct call of its meaning. -/

namespace Sys2Proof.Machine
open Sys2Proof

/-- A command's effect on everything but the queue. -/
def exec (i : Instr) (s : State) : Host.Outcome State Fault Refusal :=
  match i with
  | .powerOn vbat vddio => Sys2Proof.Machine.execPowerOn vbat vddio s
  | .resetRelease xtalStable cwPair cwRole testEn pufFails => Sys2Proof.Machine.execResetRelease xtalStable cwPair cwRole testEn pufFails s
  | .firmwareStart => Sys2Proof.Machine.execFirmwareStart s
  | .mailboxReady => Sys2Proof.Machine.execMailboxReady s
  | .vholdCharged => Sys2Proof.Machine.execVholdCharged s
  | .holdMeasureEnd stepUv fallUv => Sys2Proof.Machine.execHoldMeasureEnd stepUv fallUv s
  | .supplyMonitorCrossing m mv => Sys2Proof.Machine.execSupplyMonitorCrossing m mv s
  | .overvoltageTrip group mv => Sys2Proof.Machine.execOvervoltageTrip group mv s
  | .railFault rail mv => Sys2Proof.Machine.execRailFault rail mv s
  | .vbatLoss mv => Sys2Proof.Machine.execVbatLoss mv s
  | .vbatReturn mv => Sys2Proof.Machine.execVbatReturn mv s
  | .rideThroughExpiry => Sys2Proof.Machine.execRideThroughExpiry s
  | .vholdFloor => Sys2Proof.Machine.execVholdFloor s
  | .resetNAssert lowUs => Sys2Proof.Machine.execResetNAssert lowUs s
  | .watchdogExpiry => Sys2Proof.Machine.execWatchdogExpiry s
  | .hostReset => Sys2Proof.Machine.execHostReset s
  | .isthmusTransferFail repeats direction kind => Sys2Proof.Machine.execIsthmusTransferFail repeats direction kind s
  | .isthmusWatchdogExpiry => Sys2Proof.Machine.execIsthmusWatchdogExpiry s
  | .xtal26Fail => Sys2Proof.Machine.execXtal26Fail s
  | .xtal26Recovered => Sys2Proof.Machine.execXtal26Recovered s
  | .xtal32Qualified => Sys2Proof.Machine.execXtal32Qualified s
  | .xtal32Absent => Sys2Proof.Machine.execXtal32Absent s
  | .xtal32Fail => Sys2Proof.Machine.execXtal32Fail s
  | .slowPeriodMeasure period => Sys2Proof.Machine.execSlowPeriodMeasure period s
  | .tideCorrection pAfter => Sys2Proof.Machine.execTideCorrection pAfter s
  | .tideSlewStep => Sys2Proof.Machine.execTideSlewStep s
  | .tideWrap => Sys2Proof.Machine.execTideWrap s
  | .floodIdleExpiry => Sys2Proof.Machine.execFloodIdleExpiry s
  | .slackIdleExpiry => Sys2Proof.Machine.execSlackIdleExpiry s
  | .neapEntryDone => Sys2Proof.Machine.execNeapEntryDone s
  | .spiCsAssert low => Sys2Proof.Machine.execSpiCsAssert low s
  | .spiWriteFrame member bytes => Sys2Proof.Machine.execSpiWriteFrame member bytes s
  | .spiReadFrame member clocked => Sys2Proof.Machine.execSpiReadFrame member clocked s
  | .spiStatusOnly member type clocked => Sys2Proof.Machine.execSpiStatusOnly member type clocked s
  | .seqGapHoldoffEnd member lane => Sys2Proof.Machine.execSeqGapHoldoffEnd member lane s
  | .ctlResend member ctlSeq lane first => Sys2Proof.Machine.execCtlResend member ctlSeq lane first s
  | .ctlEvtAck member ctlSeq upTo => Sys2Proof.Machine.execCtlEvtAck member ctlSeq upTo s
  | .isotpSingleFrame member bytes => Sys2Proof.Machine.execIsotpSingleFrame member bytes s
  | .isotpFirstFrame member len bytes => Sys2Proof.Machine.execIsotpFirstFrame member len bytes s
  | .isotpConsecutiveFrame member sn bytes => Sys2Proof.Machine.execIsotpConsecutiveFrame member sn bytes s
  | .isotpFlowControl member status blockSize stMin => Sys2Proof.Machine.execIsotpFlowControl member status blockSize stMin s
  | .isotpWaitTimer member => Sys2Proof.Machine.execIsotpWaitTimer member s
  | .isotpNCrTimeout member => Sys2Proof.Machine.execIsotpNCrTimeout member s
  | .isotpNBsTimeout member => Sys2Proof.Machine.execIsotpNBsTimeout member s
  | .transportTrialExpiry => Sys2Proof.Machine.execTransportTrialExpiry s
  | .secureOpenExpiry member => Sys2Proof.Machine.execSecureOpenExpiry member s
  | .authStormHoldEnd member => Sys2Proof.Machine.execAuthStormHoldEnd member s
  | .hello m => Sys2Proof.Machine.execHello m s
  | .caps m => Sys2Proof.Machine.execCaps m s
  | .ping m => Sys2Proof.Machine.execPing m s
  | .secureOpen m => Sys2Proof.Machine.execSecureOpen m s
  | .secureConfirm m => Sys2Proof.Machine.execSecureConfirm m s
  | .sysStatus m => Sys2Proof.Machine.execSysStatus m s
  | .powerRequest m => Sys2Proof.Machine.execPowerRequest m s
  | .resetCause m => Sys2Proof.Machine.execResetCause m s
  | .sysReset m => Sys2Proof.Machine.execSysReset m s
  | .paramGet m => Sys2Proof.Machine.execParamGet m s
  | .paramSet m => Sys2Proof.Machine.execParamSet m s
  | .strandedExit m => Sys2Proof.Machine.execStrandedExit m s
  | .faultList m => Sys2Proof.Machine.execFaultList m s
  | .lfBurst m temp => Sys2Proof.Machine.execLfBurst m temp s
  | .lfChannelStatus m => Sys2Proof.Machine.execLfChannelStatus m s
  | .lfChannelEnable m found => Sys2Proof.Machine.execLfChannelEnable m found s
  | .lfSounding m => Sys2Proof.Machine.execLfSounding m s
  | .zoneWrite m => Sys2Proof.Machine.execZoneWrite m s
  | .zoneRead m => Sys2Proof.Machine.execZoneRead m s
  | .synthGroupWrite m => Sys2Proof.Machine.execSynthGroupWrite m s
  | .couplingRead m => Sys2Proof.Machine.execCouplingRead m s
  | .zoneState m => Sys2Proof.Machine.execZoneState m s
  | .tokenLearn m => Sys2Proof.Machine.execTokenLearn m s
  | .tokenRevoke m => Sys2Proof.Machine.execTokenRevoke m s
  | .tokenRead m => Sys2Proof.Machine.execTokenRead m s
  | .uwbPortStatus m => Sys2Proof.Machine.execUwbPortStatus m s
  | .uwbReflectometry m => Sys2Proof.Machine.execUwbReflectometry m s
  | .rangingStatus m => Sys2Proof.Machine.execRangingStatus m s
  | .pathStart m => Sys2Proof.Machine.execPathStart m s
  | .sessionEnd m => Sys2Proof.Machine.execSessionEnd m s
  | .sessionStatus m => Sys2Proof.Machine.execSessionStatus m s
  | .transponderStart m => Sys2Proof.Machine.execTransponderStart m s
  | .startWithdraw m => Sys2Proof.Machine.execStartWithdraw m s
  | .doorMapWrite m => Sys2Proof.Machine.execDoorMapWrite m s
  | .radioStatus m => Sys2Proof.Machine.execRadioStatus m s
  | .powerTableWrite m => Sys2Proof.Machine.execPowerTableWrite m s
  | .regRecordWrite m => Sys2Proof.Machine.execRegRecordWrite m s
  | .regRecordRead m => Sys2Proof.Machine.execRegRecordRead m s
  | .radioCalRun m => Sys2Proof.Machine.execRadioCalRun m s
  | .radioTestTx m temp => Sys2Proof.Machine.execRadioTestTx m temp s
  | .senseStatus m => Sys2Proof.Machine.execSenseStatus m s
  | .wakeMapWrite m => Sys2Proof.Machine.execWakeMapWrite m s
  | .contactStatus m => Sys2Proof.Machine.execContactStatus m s
  | .senseRebase m => Sys2Proof.Machine.execSenseRebase m s
  | .evtFetch m => Sys2Proof.Machine.execEvtFetch m s
  | .logRead m => Sys2Proof.Machine.execLogRead m s
  | .logCheckpoint m => Sys2Proof.Machine.execLogCheckpoint m s
  | .storeStatus m => Sys2Proof.Machine.execStoreStatus m s
  | .stageWrite m => Sys2Proof.Machine.execStageWrite m s
  | .fwActivate m => Sys2Proof.Machine.execFwActivate m s
  | .grantApply m => Sys2Proof.Machine.execGrantApply m s
  | .attest m => Sys2Proof.Machine.execAttest m s
  | .objectRead m => Sys2Proof.Machine.execObjectRead m s
  | .tamperStatus m => Sys2Proof.Machine.execTamperStatus m s
  | .tamperMapWrite m => Sys2Proof.Machine.execTamperMapWrite m s
  | .pairStatus m => Sys2Proof.Machine.execPairStatus m s
  | .pairSwitchover m => Sys2Proof.Machine.execPairSwitchover m s
  | .pairAdmit m => Sys2Proof.Machine.execPairAdmit m s
  | .pluginLoad m => Sys2Proof.Machine.execPluginLoad m s
  | .pluginUnload m => Sys2Proof.Machine.execPluginUnload m s
  | .extStatus m => Sys2Proof.Machine.execExtStatus m s
  | .soundingRun m => Sys2Proof.Machine.execSoundingRun m s
  | .erosionRead m => Sys2Proof.Machine.execErosionRead m s
  | .busStatus m => Sys2Proof.Machine.execBusStatus m s
  | .gpioConfig m => Sys2Proof.Machine.execGpioConfig m s
  | .gpioWrite m => Sys2Proof.Machine.execGpioWrite m s
  | .gpioRead m => Sys2Proof.Machine.execGpioRead m s
  | .pathBegin => Sys2Proof.Machine.execPathBegin s
  | .pathDeadlineExpiry => Sys2Proof.Machine.execPathDeadlineExpiry s
  | .lfBurstBegin temp => Sys2Proof.Machine.execLfBurstBegin temp s
  | .lfBurstEnd energyUj overflow recs temp => Sys2Proof.Machine.execLfBurstEnd energyUj overflow recs temp s
  | .lfValidationDone => Sys2Proof.Machine.execLfValidationDone s
  | .lfDriveFault chan bit => Sys2Proof.Machine.execLfDriveFault chan bit s
  | .offStateScan gnd bat cable => Sys2Proof.Machine.execOffStateScan gnd bat cable s
  | .soundingChannelDone chan fit gndShort batShort cableShort => Sys2Proof.Machine.execSoundingChannelDone chan fit gndShort batShort cableShort s
  | .autoSounding chan => Sys2Proof.Machine.execAutoSounding chan s
  | .keepFreshRefresh group temp => Sys2Proof.Machine.execKeepFreshRefresh group temp s
  | .lfDutyBinRoll => Sys2Proof.Machine.execLfDutyBinRoll s
  | .responseWindowOpen temp => Sys2Proof.Machine.execResponseWindowOpen temp s
  | .slotEnd energy sync overflow => Sys2Proof.Machine.execSlotEnd energy sync overflow s
  | .answerReceived slot body offsetNs carrier => Sys2Proof.Machine.execAnswerReceived slot body offsetNs carrier s
  | .proofReceived body offsetNs => Sys2Proof.Machine.execProofReceived body offsetNs s
  | .proofTimeout => Sys2Proof.Machine.execProofTimeout s
  | .locatePoll plan temp => Sys2Proof.Machine.execLocatePoll plan temp s
  | .locateReportReceived slot body => Sys2Proof.Machine.execLocateReportReceived slot body s
  | .pluginFrameReceived body syncEnd offsetUs => Sys2Proof.Machine.execPluginFrameReceived body syncEnd offsetUs s
  | .pathZoneDecision => Sys2Proof.Machine.execPathZoneDecision s
  | .zonePeriodDecision => Sys2Proof.Machine.execZonePeriodDecision s
  | .renewalBurstDue token => Sys2Proof.Machine.execRenewalBurstDue token s
  | .rangingBurstBegin token => Sys2Proof.Machine.execRangingBurstBegin token s
  | .rangingRoundStart token port => Sys2Proof.Machine.execRangingRoundStart token port s
  | .uwbResponseReceived token quality fpPs tround1 treply2 phase => Sys2Proof.Machine.execUwbResponseReceived token quality fpPs tround1 treply2 phase s
  | .uwbReportReceived token payload => Sys2Proof.Machine.execUwbReportReceived token payload s
  | .rangingRoundEnd token overflow => Sys2Proof.Machine.execRangingRoundEnd token overflow s
  | .reflectometryAuto port => Sys2Proof.Machine.execReflectometryAuto port s
  | .reflectometryPortDone port rhoPermille roundTripPs => Sys2Proof.Machine.execReflectometryPortDone port rhoPermille roundTripPs s
  | .uwbSelftestFail => Sys2Proof.Machine.execUwbSelftestFail s
  | .pathEnd => Sys2Proof.Machine.execPathEnd s
  | .doorTimeout door opening => Sys2Proof.Machine.execDoorTimeout door opening s
  | .startTimeout => Sys2Proof.Machine.execStartTimeout s
  | .gpioPulseEnd pin => Sys2Proof.Machine.execGpioPulseEnd pin s
  | .releaseRepeat => Sys2Proof.Machine.execReleaseRepeat s
  | .releaseFrameTimeout bus => Sys2Proof.Machine.execReleaseFrameTimeout bus s
  | .engineStatus frame => Sys2Proof.Machine.execEngineStatus frame s
  | .runInputConfirmed => Sys2Proof.Machine.execRunInputConfirmed s
  | .startOutputCheck aBat aOpen bGnd bOpen => Sys2Proof.Machine.execStartOutputCheck aBat aOpen bGnd bOpen s
  | .startOutputFault output kind => Sys2Proof.Machine.execStartOutputFault output kind s
  | .tpChargeEnd => Sys2Proof.Machine.execTpChargeEnd s
  | .tpOpenCheck currentMa => Sys2Proof.Machine.execTpOpenCheck currentMa s
  | .tpIdentReceived frame => Sys2Proof.Machine.execTpIdentReceived frame s
  | .tpResponseReceived frame => Sys2Proof.Machine.execTpResponseReceived frame s
  | .tpSyncTimeout => Sys2Proof.Machine.execTpSyncTimeout s
  | .radioBgCalStep temp => Sys2Proof.Machine.execRadioBgCalStep temp s
  | .radioCalStepDone value dc => Sys2Proof.Machine.execRadioCalStepDone value dc s
  | .radioTxRequest freq power airUs prec temp => Sys2Proof.Machine.execRadioTxRequest freq power airUs prec temp s
  | .hopLockFail chan => Sys2Proof.Machine.execHopLockFail chan s
  | .radioPacketEnd vswr fwd => Sys2Proof.Machine.execRadioPacketEnd vswr fwd s
  | .radioTestTxEnd vswr fwd => Sys2Proof.Machine.execRadioTestTxEnd vswr fwd s
  | .tunerAcquire band temp => Sys2Proof.Machine.execTunerAcquire band temp s
  | .coexGrantAssert => Sys2Proof.Machine.execCoexGrantAssert s
  | .coexGrantNegate => Sys2Proof.Machine.execCoexGrantNegate s
  | .coexWaitExpiry => Sys2Proof.Machine.execCoexWaitExpiry s
  | .radioDutyBinRoll => Sys2Proof.Machine.execRadioDutyBinRoll s
  | .scan convs eol guard1Ok guard2Ok => Sys2Proof.Machine.execScan convs eol guard1Ok guard2Ok s
  | .confirmConversion chan counts => Sys2Proof.Machine.execConfirmConversion chan counts s
  | .baselineDrift chan => Sys2Proof.Machine.execBaselineDrift chan s
  | .maxTouchExpiry chan => Sys2Proof.Machine.execMaxTouchExpiry chan s
  | .contactChange input high => Sys2Proof.Machine.execContactChange input high s
  | .stuckTimeout input => Sys2Proof.Machine.execStuckTimeout input s
  | .wakeNAssert => Sys2Proof.Machine.execWakeNAssert s
  | .canWake bus frame => Sys2Proof.Machine.execCanWake bus frame s
  | .linWake bus => Sys2Proof.Machine.execLinWake bus s
  | .tamperTrip sensor => Sys2Proof.Machine.execTamperTrip sensor s
  | .tamperHoldEnd sensor => Sys2Proof.Machine.execTamperHoldEnd sensor s
  | .strikeExpiry => Sys2Proof.Machine.execStrikeExpiry s
  | .serviceExpiry => Sys2Proof.Machine.execServiceExpiry s
  | .envelopeVerifyDone => Sys2Proof.Machine.execEnvelopeVerifyDone s
  | .signatureDone => Sys2Proof.Machine.execSignatureDone s
  | .checkpointBegin => Sys2Proof.Machine.execCheckpointBegin s
  | .counterWriteRetry => Sys2Proof.Machine.execCounterWriteRetry s
  | .rngStartupTestPass source => Sys2Proof.Machine.execRngStartupTestPass source s
  | .rngHealthFail source test => Sys2Proof.Machine.execRngHealthFail source test s
  | .rngBlockReady source samples => Sys2Proof.Machine.execRngBlockReady source samples s
  | .rngNoBlockTimeout => Sys2Proof.Machine.execRngNoBlockTimeout s
  | .rngFatalRestart => Sys2Proof.Machine.execRngFatalRestart s
  | .rngWaitTimeout user => Sys2Proof.Machine.execRngWaitTimeout user s
  | .rngDataRead owner => Sys2Proof.Machine.execRngDataRead owner s
  | .rngReseedRequest owner => Sys2Proof.Machine.execRngReseedRequest owner s
  | .rngFlush owner => Sys2Proof.Machine.execRngFlush owner s
  | .rngTestWrite value => Sys2Proof.Machine.execRngTestWrite value s
  | .storeWriteBegin => Sys2Proof.Machine.execStoreWriteBegin s
  | .storeCopyDone => Sys2Proof.Machine.execStoreCopyDone s
  | .storeWriteCommit => Sys2Proof.Machine.execStoreWriteCommit s
  | .storeDeferredRetry => Sys2Proof.Machine.execStoreDeferredRetry s
  | .reclaim area copyB => Sys2Proof.Machine.execReclaim area copyB s
  | .pageEraseDone page ok => Sys2Proof.Machine.execPageEraseDone page ok s
  | .scrub corrected => Sys2Proof.Machine.execScrub corrected s
  | .pairCommitTimeout => Sys2Proof.Machine.execPairCommitTimeout s
  | .timerArm n => Sys2Proof.Machine.execTimerArm n s
  | .timerStop n => Sys2Proof.Machine.execTimerStop n s
  | .timerCompareWrite n value => Sys2Proof.Machine.execTimerCompareWrite n value s
  | .timerCaptureRead n => Sys2Proof.Machine.execTimerCaptureRead n s
  | .timerMatch n w1c ctl => Sys2Proof.Machine.execTimerMatch n w1c ctl s
  | .timerEnd n w1c => Sys2Proof.Machine.execTimerEnd n w1c s
  | .timerCapture n sameClockRead w1c => Sys2Proof.Machine.execTimerCapture n sameClockRead w1c s
  | .timerWake => Sys2Proof.Machine.execTimerWake s
  | .registerWrite addr value => Sys2Proof.Machine.execRegisterWrite addr value s
  | .addi c gd ga imm => Sys2Proof.Machine.execAddi c gd ga imm s
  | .andi c gd ga imm => Sys2Proof.Machine.execAndi c gd ga imm s
  | .ori c gd ga imm => Sys2Proof.Machine.execOri c gd ga imm s
  | .xori c gd ga imm => Sys2Proof.Machine.execXori c gd ga imm s
  | .cmplti c gd ga imm => Sys2Proof.Machine.execCmplti c gd ga imm s
  | .cmpltiu c gd ga imm => Sys2Proof.Machine.execCmpltiu c gd ga imm s
  | .slli c gd ga imm => Sys2Proof.Machine.execSlli c gd ga imm s
  | .srli c gd ga imm => Sys2Proof.Machine.execSrli c gd ga imm s
  | .srai c gd ga imm => Sys2Proof.Machine.execSrai c gd ga imm s
  | .movu c gd imm => Sys2Proof.Machine.execMovu c gd imm s
  | .leapc c gd imm => Sys2Proof.Machine.execLeapc c gd imm s
  | .lb c gd ga imm => Sys2Proof.Machine.execLb c gd ga imm s
  | .lbu c gd ga imm => Sys2Proof.Machine.execLbu c gd ga imm s
  | .lh c gd ga imm => Sys2Proof.Machine.execLh c gd ga imm s
  | .lhu c gd ga imm => Sys2Proof.Machine.execLhu c gd ga imm s
  | .lw c gd ga imm second => Sys2Proof.Machine.execLw c gd ga imm second s
  | .sb c data base imm => Sys2Proof.Machine.execSb c data base imm s
  | .sh c data base imm => Sys2Proof.Machine.execSh c data base imm s
  | .sw c data base imm second => Sys2Proof.Machine.execSw c data base imm second s
  | .beq c ga gb offset => Sys2Proof.Machine.execBeq c ga gb offset s
  | .bne c ga gb offset => Sys2Proof.Machine.execBne c ga gb offset s
  | .blt c ga gb offset => Sys2Proof.Machine.execBlt c ga gb offset s
  | .bge c ga gb offset => Sys2Proof.Machine.execBge c ga gb offset s
  | .bltu c ga gb offset => Sys2Proof.Machine.execBltu c ga gb offset s
  | .bgeu c ga gb offset => Sys2Proof.Machine.execBgeu c ga gb offset s
  | .jlnk c gd offset => Sys2Proof.Machine.execJlnk c gd offset s
  | .jlnkr c gd ga imm => Sys2Proof.Machine.execJlnkr c gd ga imm s
  | .add c gd ga gb second => Sys2Proof.Machine.execAdd c gd ga gb second s
  | .sub c gd ga gb => Sys2Proof.Machine.execSub c gd ga gb s
  | .and c gd ga gb => Sys2Proof.Machine.execAnd c gd ga gb s
  | .or c gd ga gb => Sys2Proof.Machine.execOr c gd ga gb s
  | .xor c gd ga gb => Sys2Proof.Machine.execXor c gd ga gb s
  | .sll c gd ga gb => Sys2Proof.Machine.execSll c gd ga gb s
  | .srl c gd ga gb => Sys2Proof.Machine.execSrl c gd ga gb s
  | .sra c gd ga gb => Sys2Proof.Machine.execSra c gd ga gb s
  | .cmplt c gd ga gb => Sys2Proof.Machine.execCmplt c gd ga gb s
  | .cmpltu c gd ga gb => Sys2Proof.Machine.execCmpltu c gd ga gb s
  | .neg c gd ga => Sys2Proof.Machine.execNeg c gd ga s
  | .addsat c gd ga gb => Sys2Proof.Machine.execAddsat c gd ga gb s
  | .subsat c gd ga gb => Sys2Proof.Machine.execSubsat c gd ga gb s
  | .negsat c gd ga => Sys2Proof.Machine.execNegsat c gd ga s
  | .mul c gd ga gb => Sys2Proof.Machine.execMul c gd ga gb s
  | .mulhs c gd ga gb => Sys2Proof.Machine.execMulhs c gd ga gb s
  | .mulhu c gd ga gb => Sys2Proof.Machine.execMulhu c gd ga gb s
  | .divs c gd ga gb => Sys2Proof.Machine.execDivs c gd ga gb s
  | .divu c gd ga gb => Sys2Proof.Machine.execDivu c gd ga gb s
  | .rems c gd ga gb => Sys2Proof.Machine.execRems c gd ga gb s
  | .remu c gd ga gb => Sys2Proof.Machine.execRemu c gd ga gb s
  | .srvc c => Sys2Proof.Machine.execSrvc c s
  | .brkpt c => Sys2Proof.Machine.execBrkpt c s
  | .tret c => Sys2Proof.Machine.execTret c s
  | .idle c => Sys2Proof.Machine.execIdle c s
  | .rdstatus c gd => Sys2Proof.Machine.execRdstatus c gd s
  | .wrstatus c ga => Sys2Proof.Machine.execWrstatus c ga s
  | .rdcause c gd => Sys2Proof.Machine.execRdcause c gd s
  | .rdtval c gd => Sys2Proof.Machine.execRdtval c gd s
  | .rdtpc c gd => Sys2Proof.Machine.execRdtpc c gd s
  | .wrtpc c ga => Sys2Proof.Machine.execWrtpc c ga s
  | .rdcycle c gd => Sys2Proof.Machine.execRdcycle c gd s
  | .rdcycleh c gd => Sys2Proof.Machine.execRdcycleh c gd s
  | .illegalInstruction c word => Sys2Proof.Machine.execIllegalInstruction c word s
  | .interrupt line => Sys2Proof.Machine.execInterrupt line s
  | .ccWatchdogWarning => Sys2Proof.Machine.execCcWatchdogWarning s
  | .extInvocationBegin => Sys2Proof.Machine.execExtInvocationBegin s
  | .extWatchdog => Sys2Proof.Machine.execExtWatchdog s
  | .answerRequest serial tokenId => Sys2Proof.Machine.execAnswerRequest serial tokenId s
  | .transmitRequest buffer preamble start => Sys2Proof.Machine.execTransmitRequest buffer preamble start s
  | .verdict address => Sys2Proof.Machine.execVerdict address s
  | .pluginStepEnd => Sys2Proof.Machine.execPluginStepEnd s
  | .fxLookup tokenId => Sys2Proof.Machine.execFxLookup tokenId s
  | .aesEncrypt => Sys2Proof.Machine.execAesEncrypt s
  | .aesDecrypt => Sys2Proof.Machine.execAesDecrypt s
  | .aesCmac => Sys2Proof.Machine.execAesCmac s
  | .aesCmacDkey dkey => Sys2Proof.Machine.execAesCmacDkey dkey s
  | .aesBusyRead => Sys2Proof.Machine.execAesBusyRead s
  | .aesOpDone => Sys2Proof.Machine.execAesOpDone s
  | .causewayLock => Sys2Proof.Machine.execCausewayLock s
  | .negotiate b => Sys2Proof.Machine.execNegotiate b s
  | .partnerAbsentTimeout => Sys2Proof.Machine.execPartnerAbsentTimeout s
  | .heartbeatSend => Sys2Proof.Machine.execHeartbeatSend s
  | .heartbeat seq baseTick temp power faultClass lastMirror neapOk overflow => Sys2Proof.Machine.execHeartbeat seq baseTick temp power faultClass lastMirror neapOk overflow s
  | .heartbeatMiss => Sys2Proof.Machine.execHeartbeatMiss s
  | .pairAliveToggle input => Sys2Proof.Machine.execPairAliveToggle input s
  | .yield seq => Sys2Proof.Machine.execYield seq s
  | .handover seq lastMirror => Sys2Proof.Machine.execHandover seq lastMirror s
  | .switchoverTimeout => Sys2Proof.Machine.execSwitchoverTimeout s
  | .mirror seq mirrorSeq items last => Sys2Proof.Machine.execMirror seq mirrorSeq items last s
  | .mirrorAcknowledge seq mirrorSeq => Sys2Proof.Machine.execMirrorAcknowledge seq mirrorSeq s
  | .counterCommitRequest seq counter value => Sys2Proof.Machine.execCounterCommitRequest seq counter value s
  | .counterCommitAcknowledge seq counter deferred => Sys2Proof.Machine.execCounterCommitAcknowledge seq counter deferred s
  | .resendRequest first => Sys2Proof.Machine.execResendRequest first s
  | .triggerForward seq trigger => Sys2Proof.Machine.execTriggerForward seq trigger s
  | .breachBlock seq => Sys2Proof.Machine.execBreachBlock seq s
  | .tamperStrandedBlock seq => Sys2Proof.Machine.execTamperStrandedBlock seq s
  | .attestationRequest seq nonce => Sys2Proof.Machine.execAttestationRequest seq nonce s
  | .attestationReport seq report => Sys2Proof.Machine.execAttestationReport seq report s
  | .stateTransfer seq items last => Sys2Proof.Machine.execStateTransfer seq items last s
  | .admitTimeout => Sys2Proof.Machine.execAdmitTimeout s
  | .pairWake => Sys2Proof.Machine.execPairWake s
  | .faultHandlingDone => Sys2Proof.Machine.execFaultHandlingDone s
  | .recordToHostRing source => Sys2Proof.Machine.execRecordToHostRing source s
  | .signalLineFault line kind clear => Sys2Proof.Machine.execSignalLineFault line kind clear s
  | .erosionSample => Sys2Proof.Machine.execErosionSample s
  | .doorStatusFrame bus ident data overflow => Sys2Proof.Machine.execDoorStatusFrame bus ident data overflow s
  | .doorStatusTimeout => Sys2Proof.Machine.execDoorStatusTimeout s
  | .busOff bus => Sys2Proof.Machine.execBusOff bus s
  | .busRecovered bus => Sys2Proof.Machine.execBusRecovered bus s
  | .busFault bus kind clear => Sys2Proof.Machine.execBusFault bus kind clear s
  | .linStatusPoll bus node => Sys2Proof.Machine.execLinStatusPoll bus node s
  | .linStatus bus node data => Sys2Proof.Machine.execLinStatus bus node data s
  | .wakeNNegate => Sys2Proof.Machine.execWakeNNegate s
  | .tamperSensorClear sensor => Sys2Proof.Machine.execTamperSensorClear sensor s
  | .debugHalt c => Sys2Proof.Machine.execDebugHalt c s
  | .debugResume c => Sys2Proof.Machine.execDebugResume c s
  | .zoneDropAgeExpiry token => Sys2Proof.Machine.execZoneDropAgeExpiry token s
  | .railsWithinLimits => Sys2Proof.Machine.execRailsWithinLimits s
  | .noiseSourcesStart => Sys2Proof.Machine.execNoiseSourcesStart s

end Sys2Proof.Machine
end

