-- ==== Sys2Proof/Machine/Idle.lean ====
section
/-! DEFINITION. What a step does when no command waits (log 1). -/

namespace Sys2Proof.Machine
open Sys2Proof

/-- A mailbox on a CAN transport sends the consecutive frames that are due and offers its next message (R95, R97). -/
def isoIdle (member : Bool) (s : State) : State :=
  let s := isoBlock member 65 s
  isoPump member s
/-- One base tick passes (a SLOW edge in Neap, nothing in OFF); a LIN poll whose frame is over ends (R24), and a CAN transport goes on. -/
def idle (s : State) : State :=
  let s := passTime s
  let s := if s.bus.pollEnd.any (· ≤ now s) then pollOver s else s
  if transport s = 0 then s else isoIdle true (isoIdle false s)

end Sys2Proof.Machine
end

