-- ==== Sys2Proof/Machine/Balls.lean ====
section
/-! DEFINITION. What the part's signals show on their balls (R33, R35, R36, R37, R62, Tables 2-1 to 2-5): a function of the state. -/

namespace Sys2Proof.Machine
open Sys2Proof

/-- The signals of Tables 2-4 and 2-5 but their supplies and returns, numbered as the tables number them; LF channels, ports, buses,
contact inputs, loops and guards from 1, sense channels, Causeway lanes and GPIO from 0. -/
inductive Signal where
  | lf (chan : Nat)
  | tp (port : Nat)
  | cs (chan : Nat)
  | guardDriver (n : Nat)
  | startA
  | startB
  | can (bus : Nat)
  | lin (bus : Nat)
  | meshOut (loop : Nat)
  | alarmN
  | faultN
  | xtal32
  | xtal26
  | rf
  | uwb (port : Nat)
  | causewayTx
  | gpio (pin : Nat)
  | spiSdo
  | hostIrqN
  | hostRdyN
  | coexReq
  | coexPri
  | coexGrant
  | cin (input : Nat)
  | meshIn (loop : Nat)
  | lidSw
  | resetN
  | wakeN
  | causewayRx (lane : Nat)
  | cwRole
  | cwPair
  | testEn
  | spiSck
  | spiSdi
  | spiCsN
  | dbgClk
  | dbgIo
deriving DecidableEq, Repr

/-- What a ball shows: high impedance, an input without a pull, an input with its termination in ohms, a driven level, a resistor in
kilohms to ground or to its supply, an RF or oscillator ball at rest, or its block at work. -/
inductive BallState where
  | highZ
  | input
  | inputTerm (ohm : Nat)
  | low
  | high
  | pullDown (kohm : Nat)
  | pullUp (kohm : Nat)
  | lowPower
  | off
  | working
deriving DecidableEq, Repr

/-- VBAT is absent, and nothing can be driven (R37). While step 5 of R71 holds, the Cliff die lives from VHOLD. -/
def unpowered (s : State) : Bool := s.pwr.phase = .none && s.pwr.state = .off && !s.pwr.vbatValid
/-- From the rise of VBAT, or from the start of a reset, until reset is released, and while step 5 of R71 holds the balls (R36). -/
def inReset (s : State) : Bool := s.pwr.phase = .none || s.pwr.phase = .supplied || s.pwr.phase = .rails

/-- A channel's bridge drives now: in the part of the burst being sent that drives it, until a fault or a lost supply stops it or the
brake ends (R151, Table 7-8), or in its own turn of a sounding (R164). -/
def bridgeOn (s : State) (c : Nat) : Bool :=
  (match s.lf.cur with
   | some b =>
     let t := now s - b.started
     (segments b).any (fun g => g.1 ≤ t && t < stopOf b c (if g.2.1 = b.durUs then g.2.1 + b.brakeUs else g.2.1) &&
       g.2.2.any (fun d => d.chan == c))
   | none => decide ((bitsOf 48 s.lf.soundMask).head? = some (c - 1)) && !s.lf.soundHeld) &&
  !riding s
/-- A transponder port drives its coil (Table 11-6): in the charge phase, and from the recharge to the end of the token's computing. -/
def portOn (s : State) (port : Nat) : Bool :=
  match s.path with
  | some p => p.req.kind = .transponder && p.req.port = port && !p.ended && !riding s &&
      (p.step = .tpCharge || (p.step = .tpResponse && p.since + 500 ≤ now s && now s + 1000 < p.stepEnd))
  | none => false
/-- A LIN bus is enabled, and its commander termination switched in, when a handle module is named on it and the bus is up: R36 does
not say what enables it (DESIGN CHOICE, log 124). -/
def linEnabled (s : State) (b : Nat) : Bool := param s (0x0E10 + b) ≠ 0 && (s.bus.bus.getD (b + 1) {}).state ≠ 0

/-- A signal's state after reset release, as its block has left it (the "After reset" columns and the blocks' own rules). A guard is
driven with the electrode only within a conversion, and a conversion is one step: between steps it is low (R318). -/
def shownRunning (x : Signal) (s : State) : BallState :=
  match x with
  | .lf c => if bridgeOn s c then .working else .highZ
  | .tp p => if portOn s p then .working else .highZ
  | .cs c => if sensing s && capOn s c then .working else .pullDown 10
  | .guardDriver _ => .low
  | .startA => if s.rel.startA then .high else .off
  | .startB => if s.rel.startB then .low else .highZ
  | .can b => if (s.bus.bus.getD (b - 1) {}).state = 0 then .lowPower else .working
  | .lin b => if linEnabled s b then .pullUp 1 else .pullUp 30
  | .meshOut k => if bitSet (armedMask s) (k + 1) then .working else .low
  | .alarmN => if s.pwr.alarmN then .low else .highZ
  | .faultN => if s.pwr.faultN then .low else .highZ
  | .xtal32 => if s.clk.xtal32 = .off then .off else .working
  | .xtal26 => if s.pwr.state = .neap then .off else .working
  | .rf => if s.rad.tx.any (·.radiating) then .working else .off
  | .uwb p => if s.uwb.sessions.any (fun x => x.cur.any (fun r => r.port == p)) then .working else .off
  | .causewayTx => if s.pair.role = .single then .highZ else .working
  | .gpio k =>
    let p := s.bus.pins.getD k {}
    if p.dir = 0 && p.function ≠ 1 then (match p.pull with | 1 => .pullDown 100 | 2 => .pullUp 100 | _ => .highZ)
    else if p.dir = 2 || p.function = 1 then (if p.level then .highZ else .low)
    else if p.level then .high else .low
  | .spiSdo => if s.pwr.csLow then .working else .highZ
  | .hostIrqN => if started s && hostIrq s then .low else .high
  | .hostRdyN => if s.pwr.hostRdy then .low else .high
  | .coexReq => if s.rad.coex.1 then .high else .low
  | .coexPri => if s.rad.coex.2 then .high else .low
  | .cin n =>
    let c := cinConfig s n
    if bitSet c 3 then .working else (match c / 2 % 4 with | 1 => .pullDown 100 | 2 => .pullUp 100 | _ => .input)
  | .meshIn k => if bitSet (armedMask s) (k + 1) then .working else .pullDown 100
  | .causewayRx _ => .inputTerm 100
  | .dbgClk | .dbgIo => .pullDown 100
  | .lidSw | .resetN | .wakeN | .cwRole | .cwPair | .testEn | .spiSck | .spiSdi | .spiCsN | .coexGrant => .input

/-- A signal's state during reset (the "During reset" columns). -/
def shownInReset (x : Signal) : BallState :=
  match x with
  | .lf _ | .tp _ | .startB | .alarmN | .causewayTx | .spiSdo => .highZ
  | .cs _ => .pullDown 10
  | .guardDriver _ | .meshOut _ | .faultN | .coexReq | .coexPri => .low
  | .startA | .rf | .uwb _ | .xtal32 | .xtal26 => .off
  | .can _ => .lowPower
  | .lin _ => .pullUp 30
  | .gpio _ => .pullDown 100
  | .hostIrqN | .hostRdyN | .spiCsN => .pullUp 100
  | .cin _ | .meshIn _ | .cwRole | .cwPair | .testEn | .coexGrant | .dbgClk | .dbgIo => .pullDown 100
  | .lidSw | .resetN | .wakeN => .pullUp 50
  | .causewayRx _ => .inputTerm 100
  | .spiSck | .spiSdi => .input

/-- What a signal shows (R36): with VBAT absent nothing is driven (R35, R37). -/
def ball (x : Signal) (s : State) : BallState :=
  if unpowered s then (match x with | .startA | .rf | .uwb _ | .xtal32 | .xtal26 => .off | _ => .highZ)
  else if inReset s then shownInReset x
  else shownRunning x s

end Sys2Proof.Machine
end

