-- ==== Sys2Proof/Safety.lean ====
section
/-! DEFINITION. The terms in which claims speak of the machine: what an instruction of a core leaves behind, what an unpowered part
is, and what a safe state is. -/

namespace Sys2Proof.Machine
open Sys2Proof

/-- A step does not stop: it answers a next state. -/
def Completes (o : Host.Outcome State Fault Refusal) (p : State → Prop) : Prop := ∃ t, o = .next t ∧ p t

/-! ### Auham -/

/-- At the next boundary the core carries out an instruction: it runs, its budget lasts, no interrupt goes first and the fetch is
admitted (R410, R419, Table 18-10). -/
def atBoundary (c : CoreId) (s : State) : Bool :=
  coreRuns s c && (c != .ext || s.ext.left != 0) && (c != .cc || !s.cc.ie || s.cc.irq.isEmpty) && admits s c 0 (coreOf s c).pc.toNat 4

/-- Nothing but the core and, on the extension core, the invocation's budget has changed. -/
def Elsewhere (c : CoreId) (s t : State) : Prop :=
  match c with
  | .cc => t = { s with cc := t.cc }
  | .ext => t = { s with xc := t.xc, ext := { s.ext with left := t.ext.left } }

/-- What a register instruction of `n` clocks leaves: `v` in `gd` and in no other register (g0 stays as it is), the sticky bits of `x`
set and none cleared, the next address, its clocks, and nothing else. -/
def Computed (c : CoreId) (n : Nat) (gd : Reg) (v : Word) (x : Sticky) (s t : State) : Prop :=
  let k := coreOf s c
  let k' := coreOf t c
  (∀ r, k'.get r = if r = gd ∧ r ≠ 0 then v else k.get r) ∧ k'.pc = k.pc + 4 ∧ k'.cycle = k.cycle + BitVec.ofNat 64 n ∧
  k'.ov = (k.ov || x.ov) ∧ k'.dz = (k.dz || x.dz) ∧ k'.sat = (k.sat || x.sat) ∧
  { k' with regs := k.regs, pc := k.pc, cycle := k.cycle, ov := k.ov, dz := k.dz, sat := k.sat } = k ∧
  Elsewhere c s t ∧ (c = .ext → t.ext.left = s.ext.left - n)

/-- What a jump or branch of `n` clocks to `pc` leaves, with `v` in `gd`. -/
def Jumped (c : CoreId) (n : Nat) (pc : Word) (gd : Reg) (v : Word) (s t : State) : Prop :=
  let k := coreOf s c
  let k' := coreOf t c
  (∀ r, k'.get r = if r = gd ∧ r ≠ 0 then v else k.get r) ∧ k'.pc = pc ∧ k'.cycle = k.cycle + BitVec.ofNat 64 n ∧
  { k' with regs := k.regs, pc := k.pc, cycle := k.cycle } = k ∧ Elsewhere c s t ∧ (c = .ext → t.ext.left = s.ext.left - n)

/-! ### Frames -/

/-- The state but for event paths, fault handling and the alarm wires. -/
def evFrame (s : State) : State := { s with evt := {}, flt := {}, pwr := { s.pwr with faultN := false, alarmN := false } }
/-- `evFrame` but for the mailboxes and the pair too. -/
def talkFrame (s : State) : State := { evFrame s with mbx := {}, mmb := {}, pair := {}, wasOpen := (false, false) }
/-- `evFrame` but for what time moves too: the clocks, the timers, the cores' CYCLE, the invocation's budget, and the CAN frames that leave
their queues, with what their sending tells (the buses' diagnoses, the release values sent). -/
def timeFrame (s : State) : State :=
  { evFrame s with clk := {}, timers := [], cc := { s.cc with cycle := 0 }, xc := { s.xc with cycle := 0 }, ext := { s.ext with left := 0 },
                   bus := { s.bus with canTx := [], canWait := [], bus := [] }, rel := { s.rel with firstSent := none, lastSent := none } }

/-! ### Invariants -/

/-- OFF, with nothing under way that could leave it, and no supply about to be applied. -/
def Unpowered (s : State) : Prop :=
  s.pwr.state = .off ∧ s.pwr.phase = .none ∧ s.pwr.ride = none ∧ s.pwr.neapEntry = false ∧ s.pwr.neapAfter = false ∧
  ∀ a b, Instr.powerOn a b ∉ s.pending

/-- Only instructions of the cores wait, both memories are in canonical form, and the extension core's pc is a word address. -/
def CoreForm (s : State) : Prop :=
  (∀ c ∈ s.pending, (auhamWord c).isSome = true) ∧ Memory.wf s.cc.mem = true ∧ Memory.wf s.xc.mem = true ∧ s.xc.pc.toNat % 4 = 0

end Sys2Proof.Machine
end

