-- ==== Sys2Proof/Certificates/Slice0/Obligations.lean ====
section
/-! DEFINITION. The statements for the provers. A mailbox command speaks of `begun op m s = some (ref, u)`: the command `m` is taken as
`ref` and its class admits it, `u` is the state in which it runs (R127). Time is the base in microseconds. -/

section
open Sys2Proof Sys2Proof.Machine

/-- The interface of the block: a step takes the command at the front of the queue and runs it on the queue's rest; on an empty queue the
block idles (log 1). -/
def Obligations.StepTakesTheFront : Prop := ∀ (c : Instr) (l : List Instr) (s : State),
  (s.pending = c :: l → step s = exec c { s with pending := l }) ∧ (s.pending = [] → step s = .next (idle s))

/-- Log 2 and R513: the machine after reset is an unpowered part as shipped, its queue and both memories are empty, and both invariants hold
there. R35 to R37, R62, R71, R151, R164, Tables 2-4, 2-5 and 11-6: what the part's signals show without supply, in reset (and while step
5 of R71 holds the balls) and after its release. -/
def Obligations.ResetState : Prop :=
  (Unpowered State.reset ∧ CoreForm State.reset ∧ State.reset.pending = [] ∧ State.reset.cc.mem = [] ∧ State.reset.xc.mem = [] ∧
  lifecycle State.reset = .provisioned ∧ State.reset.rel.startA = false ∧ State.reset.rel.startB = false ∧ State.reset.lf.cur = none ∧
  State.reset.rad.tx = none ∧ State.reset.paths = [] ∧ State.reset.path = none ∧ State.reset.timers = List.replicate 24 {}) ∧
  (∀ (x : Signal) (c : Nat) (s : State),
  (s.pwr.phase = .none → s.pwr.state = .off → s.pwr.vbatValid = false → ball x s = .highZ ∨ ball x s = .off) ∧
  (s.pwr.phase = .supplied ∨ s.pwr.phase = .rails ∨ (s.pwr.phase = .none ∧ (s.pwr.state ≠ .off ∨ s.pwr.vbatValid = true)) →
    ball x s ≠ .high ∧ ball x s ≠ .working ∧ ball (.lf c) s = .highZ ∧ ball (.tp c) s = .highZ ∧
    ball .startA s = .off ∧ ball .startB s = .highZ ∧ ball .faultN s = .low ∧ ball .alarmN s = .highZ ∧ ball (.can c) s = .lowPower ∧
    ball (.lin c) s = .pullUp 30 ∧ ball .hostIrqN s = .pullUp 100 ∧ ball .hostRdyN s = .pullUp 100 ∧ ball (.gpio c) s = .pullDown 100 ∧
    ball (.cin c) s = .pullDown 100 ∧ ball .wakeN s = .pullUp 50 ∧ ball .resetN s = .pullUp 50 ∧ ball .lidSw s = .pullUp 50) ∧
  (s.pwr.phase = .rom ∨ s.pwr.phase = .firmware ∨ s.pwr.phase = .ready →
    (ball .startA s = .high ↔ s.rel.startA = true) ∧ (ball .startB s = .low ↔ s.rel.startB = true) ∧ (ball .faultN s = .low ↔ s.pwr.faultN = true) ∧
    (ball .alarmN s = .low ↔ s.pwr.alarmN = true) ∧ (ball .rf s = .working → ∃ t, s.rad.tx = some t ∧ t.radiating = true) ∧
    (ball (.lf c) s = .working → riding s = false ∧
      ((∃ b g, s.lf.cur = some b ∧ g ∈ segments b ∧ (∃ d ∈ g.2.2, d.chan = c) ∧ g.1 ≤ now s - b.started ∧
          now s - b.started < stopOf b c (if g.2.1 = b.durUs then g.2.1 + b.brakeUs else g.2.1)) ∨
        (s.lf.cur = none ∧ s.lf.soundHeld = false ∧ (bitsOf 48 s.lf.soundMask).head? = some (c - 1)))) ∧
    (ball (.tp c) s = .working → riding s = false ∧ ∃ p, s.path = some p ∧ p.req.kind = .transponder ∧ p.req.port = c ∧ p.ended = false ∧
      (p.step = .tpCharge ∨ (p.step = .tpResponse ∧ p.since + 500 ≤ now s ∧ now s + 1000 < p.stepEnd)))))

/-- R61, R64, R69, Table 3-7: an unpowered machine stays in OFF, whatever is commanded but POWER_ON; every step takes the command in front
off the queue and leaves the rest. -/
def Obligations.OffStaysOff : Prop := ∀ (s t : State), Unpowered s → step s = .next t → Unpowered t ∧ t.pending = s.pending.tail

/-- R404, R408, R410 and log 3: while only instructions of the cores wait, every step keeps both memories in canonical form and the
extension core's pc on a word boundary. -/
def Obligations.CoreStepsKeepForm : Prop := ∀ (s t : State), CoreForm s → step s = .next t → CoreForm t

/-- R404, R405, Tables 18-2 to 18-5: well-formed instructions of one core have legal words, and different ones have different words, but for
what the word does not spell; an instruction that only the control complex has is illegal on the extension core. -/
def Obligations.AuhamWordsDiffer : Prop := ∀ (i j : Instr) (v w : Word), auhamWord i = some v → auhamWord j = some w → i.wf = true → j.wf = true →
  auhamLegal .cc v = true ∧ (∀ c, auhamCore i = some c → auhamLegal c v = true) ∧ (v = w → auhamCore i = auhamCore j → secondCore i = secondCore j → i = j) ∧
  ((∃ gd : Reg, i ∈ [Instr.tret .cc, .idle .cc, .rdcause .cc gd, .rdtval .cc gd, .rdtpc .cc gd, .wrtpc .cc gd]) → auhamLegal .ext v = false)

/-- Tables 18-2 to 18-5: some words written out from the encodings. -/
def Obligations.AuhamWords : Prop :=
  auhamWord (.divs .ext 5 6 7) = some 0x298E0A01 ∧ auhamWord (.bne .ext 1 0 (-2#16)) = some 0x083FFFA1 ∧
  auhamWord (.lw .ext 9 30 (-8#16) 0) = some 0x4FBFFE18 ∧ auhamWord (.wrstatus .ext 0) = some 0x00000470 ∧
  auhamLegal .cc 0x00000000 = false ∧ auhamLegal .cc 0x000000B0 = true ∧ auhamLegal .ext 0x000000B0 = false ∧ auhamLegal .cc 0x00020081 = true

/-- R404, R406, R407, Table 18-3: the immediate and upper forms complete with their result in gd. R406, R407, Table 18-4: the register forms
complete with their result in gd; a shift by 32 or more gives 0 or the sign. -/
def Obligations.AuhamArithmetic : Prop :=
  (∀ (c : CoreId) (gd ga : Reg) (imm : BitVec 16) (wide : BitVec 21) (s : State),
  atBoundary c s = true →
  let k := coreOf s c
  let done := fun (i : Instr) (v : Word) => Completes (exec i s) (Computed c 1 gd v {} s)
  done (.addi c gd ga imm) (k.get ga + imm.signExtend 32) ∧
  done (.andi c gd ga imm) (k.get ga &&& imm.setWidth 32) ∧
  done (.ori c gd ga imm) (k.get ga ||| imm.setWidth 32) ∧
  done (.xori c gd ga imm) (k.get ga ^^^ imm.setWidth 32) ∧
  done (.cmplti c gd ga imm) (if (k.get ga).toInt < imm.toInt then 1 else 0) ∧
  done (.cmpltiu c gd ga imm) (if (k.get ga).toNat < (imm.signExtend 32).toNat then 1 else 0) ∧
  (imm.toNat < 32 → done (.slli c gd ga imm) (k.get ga <<< imm.toNat)) ∧
  (imm.toNat < 32 → done (.srli c gd ga imm) (k.get ga >>> imm.toNat)) ∧
  (imm.toNat < 32 → done (.srai c gd ga imm) ((k.get ga).sshiftRight imm.toNat)) ∧
  done (.movu c gd wide) (wide.setWidth 32 <<< 11) ∧
  done (.leapc c gd wide) (k.pc + 4 * wide.signExtend 32)) ∧
  (∀ (c : CoreId) (gd ga gb : Reg) (s : State), atBoundary c s = true →
  let k := coreOf s c
  let a := k.get ga
  let b := k.get gb
  let done := fun (n : Nat) (i : Instr) (v : Word) => Completes (exec i s) (Computed c n gd v {} s)
  done 1 (.add c gd ga gb 0) (a + b) ∧ done 1 (.sub c gd ga gb) (a - b) ∧ done 1 (.and c gd ga gb) (a &&& b) ∧
  done 1 (.or c gd ga gb) (a ||| b) ∧ done 1 (.xor c gd ga gb) (a ^^^ b) ∧
  done 1 (.sll c gd ga gb) (a <<< b.toNat) ∧ done 1 (.srl c gd ga gb) (a >>> b.toNat) ∧
  done 1 (.sra c gd ga gb) (a.sshiftRight b.toNat) ∧
  done 1 (.cmplt c gd ga gb) (if a.toInt < b.toInt then 1 else 0) ∧ done 1 (.cmpltu c gd ga gb) (if a.toNat < b.toNat then 1 else 0) ∧
  done 1 (.neg c gd ga) (-a) ∧ done 3 (.mul c gd ga gb) (a * b) ∧
  done 3 (.mulhs c gd ga gb) (((a.signExtend 64 * b.signExtend 64) >>> 32).setWidth 32) ∧
  done 3 (.mulhu c gd ga gb) (((a.setWidth 64 * b.setWidth 64) >>> 32).setWidth 32))

/-- R406: an exact result outside 32 signed bits is the nearest end of the range and sets SAT; R406's division corners set DZ or OV. -/
def Obligations.AuhamSaturateDivide : Prop := ∀ (c : CoreId) (gd ga gb : Reg) (s : State), atBoundary c s = true →
  let k := coreOf s c
  let a := k.get ga
  let b := k.get gb
  let sat := fun (i : Instr) (z : Int) => Completes (exec i s) (fun t =>
    Computed c 1 gd (BitVec.ofInt 32 (max (-2147483648) (min 2147483647 z))) { sat := decide (z < -2147483648 ∨ 2147483647 < z) } s t)
  let done := fun (i : Instr) (v : Word) (x : Sticky) => Completes (exec i s) (Computed c 34 gd v x s)
  sat (.addsat c gd ga gb) (a.toInt + b.toInt) ∧ sat (.subsat c gd ga gb) (a.toInt - b.toInt) ∧ sat (.negsat c gd ga) (-a.toInt) ∧
  (b = 0 → done (.divs c gd ga gb) (-1) { dz := true } ∧ done (.divu c gd ga gb) (-1) { dz := true } ∧
    done (.rems c gd ga gb) a { dz := true } ∧ done (.remu c gd ga gb) a { dz := true }) ∧
  (b ≠ 0 → done (.divu c gd ga gb) (a / b) {} ∧ done (.remu c gd ga gb) (a % b) {}) ∧
  (b ≠ 0 → a = 0x80000000 → b = -1 → done (.divs c gd ga gb) 0x80000000 { ov := true } ∧ done (.rems c gd ga gb) 0 { ov := true }) ∧
  (b ≠ 0 → ¬(a = 0x80000000 ∧ b = -1) →
    done (.divs c gd ga gb) (BitVec.ofInt 32 (a.toInt.tdiv b.toInt)) {} ∧ done (.rems c gd ga gb) (BitVec.ofInt 32 (a.toInt.tmod b.toInt)) {})

/-- R404, R407, Table 18-3: jumps link and go to their target, branches go to theirs when their condition holds. -/
def Obligations.AuhamControl : Prop := ∀ (c : CoreId) (gd ga gb : Reg) (imm : BitVec 16) (wide : BitVec 21) (s : State),
  atBoundary c s = true →
  let k := coreOf s c
  let a := k.get ga
  let b := k.get gb
  let br := fun (i : Instr) (taken : Prop) => (taken → Completes (exec i s) (Jumped c 2 (k.pc + 4 * imm.signExtend 32) 0 0 s)) ∧
    (¬taken → Completes (exec i s) (Jumped c 1 (k.pc + 4) 0 0 s))
  Completes (exec (.jlnk c gd wide) s) (Jumped c 2 (k.pc + 4 * wide.signExtend 32) gd (k.pc + 4) s) ∧
  ((a + imm.signExtend 32).toNat % 4 = 0 →
    Completes (exec (.jlnkr c gd ga imm) s) (Jumped c 2 (a + imm.signExtend 32) gd (k.pc + 4) s)) ∧
  br (.beq c ga gb imm) (a = b) ∧ br (.bne c ga gb imm) (a ≠ b) ∧ br (.blt c ga gb imm) (a.toInt < b.toInt) ∧
  br (.bge c ga gb imm) (b.toInt ≤ a.toInt) ∧ br (.bltu c ga gb imm) (a.toNat < b.toNat) ∧ br (.bgeu c ga gb imm) (b.toNat ≤ a.toNat)

/-- R408: an aligned load from the core's own memory takes its bytes, least significant first, and changes no memory. R408: an aligned store
to the core's own memory writes its bytes, least significant first, and no other byte; nothing but the core's memory, pc and clocks
changes. -/
def Obligations.AuhamMemory : Prop :=
  (∀ (c : CoreId) (gd ga : Reg) (imm : BitVec 16) (s : State), atBoundary c s = true →
  let k := coreOf s c
  let a := (k.get ga + imm.signExtend 32).toNat
  let ram := fun (n : Nat) => a % n = 0 ∧ admits s c 1 a n = true ∧ (match c with | .cc => Config.ccDevice a = false | .ext => extMemOk s 1 a n = true)
  let w := fun (n : Nat) => BitVec.ofNat 32 (leNat (memReadN k.mem a n))
  (ram 1 → Completes (exec (.lb c gd ga imm) s) (Computed c 2 gd (((w 1).setWidth 8).signExtend 32) {} s)) ∧
  (ram 1 → Completes (exec (.lbu c gd ga imm) s) (Computed c 2 gd (w 1) {} s)) ∧
  (ram 2 → Completes (exec (.lh c gd ga imm) s) (Computed c 2 gd (((w 2).setWidth 16).signExtend 32) {} s)) ∧
  (ram 2 → Completes (exec (.lhu c gd ga imm) s) (Computed c 2 gd (w 2) {} s)) ∧
  (ram 4 → Completes (exec (.lw c gd ga imm 0) s) (Computed c 2 gd (w 4) {} s))) ∧
  (∀ (c : CoreId) (data base : Reg) (imm : BitVec 16) (s : State), atBoundary c s = true →
  let k := coreOf s c
  let a := (k.get base + imm.signExtend 32).toNat
  let st := fun (i : Instr) (n : Nat) =>
    a % n = 0 → admits s c 2 a n = true → (match c with | .cc => Config.ccDevice a = false | .ext => extMemOk s 2 a n = true) →
    Completes (exec i s) (fun t => (∀ j, j < n → memRead (coreOf t c).mem (a + j) = ((k.get data) >>> (8 * j)).setWidth 8) ∧
      (∀ b, b < a ∨ a + n ≤ b → memRead (coreOf t c).mem b = memRead k.mem b) ∧
      Jumped c 1 (k.pc + 4) 0 0 s (onCore c (fun x => { x with mem := k.mem }) t))
  st (.sb c data base imm) 1 ∧ st (.sh c data base imm) 2 ∧ st (.sw c data base imm 0) 4)

/-- Table 18-5 and R412, R421: the system functions. SRVC and BRKPT complete by their traps; on the extension core a trap stops the core
and, with a plug-in running, ends its invocation. -/
def Obligations.AuhamSystem : Prop := ∀ (c : CoreId) (gd ga : Reg) (s : State), atBoundary c s = true →
  let k := coreOf s c
  let cc := s.cc
  let read := fun (i : Instr) (v : Word) => Completes (exec i s) (Computed .cc 1 gd v {} s)
  (s.cc.trap = false → c = .cc → Completes (exec (.srvc c) s) (fun t => t.cc.tcause = 5 ∧ t.cc.tpc = cc.pc + 4 ∧ t.cc.pie = cc.ie ∧
    t.cc.ie = false ∧ t.cc.trap = true ∧ t.cc.pc = Config.trapVector 0 ∧ Elsewhere .cc s t)) ∧
  (s.cc.trap = false → c = .cc → Completes (exec (.brkpt c) s) (fun t => t.cc.tcause = 4 ∧ t.cc.tpc = cc.pc ∧ t.cc.pie = cc.ie ∧
    t.cc.ie = false ∧ t.cc.trap = true ∧ t.cc.pc = Config.trapVector 0 ∧ Elsewhere .cc s t)) ∧
  (c = .ext → Completes (exec (.srvc c) s) (fun t => t = endInvocation (let u := spend .ext 4 { s with xc := { s.xc with tcause := 5, tval := 0, tpc := s.xc.pc + 4, stopped := true } }
    u.onExt (fun e => { e with requests := handedOver u })))) ∧
  (c = .ext → (∃ g, s.sec.service = some g ∧ bitSet g.2 0 = true) →
    Completes (exec (.brkpt c) s) (fun t => t = s.onSec (fun x => { x with halted := (x.halted.1, true) }))) ∧
  (c = .cc → cc.tpc.toNat % 4 = 0 → Completes (exec (.tret c) s) (fun t => t.cc.pc = cc.tpc ∧ t.cc.ie = cc.pie ∧ t.cc.trap = false ∧
    t.cc.regs = cc.regs ∧ Elsewhere .cc s t)) ∧
  (c = .cc → Completes (exec (.idle c) s) (fun t => t.cc.idle = cc.irq.isEmpty ∧ t.cc.pc = cc.pc + 4 ∧ t.cc.regs = cc.regs ∧ Elsewhere .cc s t)) ∧
  Completes (exec (.rdstatus c gd) s) (Computed c 1 gd (astatus c k) {} s) ∧
  Completes (exec (.wrstatus c ga) s) (fun t =>
    astatus c (coreOf t c) = (match c with | .cc => ((k.get ga) &&& 0x1F) ||| (if k.trap then 0x20 else 0) | .ext => ((k.get ga) &&& 7) ||| 0x40) ∧
    (coreOf t c).pc = k.pc + 4 ∧ (coreOf t c).regs = k.regs ∧ Elsewhere c s t) ∧
  (c = .cc → read (.rdcause c gd) cc.tcause ∧ read (.rdtval c gd) cc.tval ∧ read (.rdtpc c gd) cc.tpc) ∧
  (c = .cc → Completes (exec (.wrtpc c ga) s) (fun t => t.cc.tpc = cc.get ga ∧ t.cc.pc = cc.pc + 4 ∧ t.cc.regs = cc.regs ∧ Elsewhere .cc s t)) ∧
  Completes (exec (.rdcycle c gd) s) (fun t => (coreOf t c).cycleHigh = (k.cycle >>> 32).setWidth 32 ∧
    Computed c 1 gd (k.cycle.setWidth 32) {} s (onCore c (fun x => { x with cycleHigh := k.cycleHigh }) t)) ∧
  Completes (exec (.rdcycleh c gd) s) (Computed c 1 gd k.cycleHigh {} s)

/-- R405, R410, R411, R393: an illegal word traps with the word in TVAL, an interrupt line becomes pending or is taken, the watchdog's
warning traps, and a register write acts on its register. R410, R411, Table 18-7: on the control complex a misaligned load, store or
jump traps with cause 2, the access kind and the address, and writes neither register nor memory. R414: where the control complex's two
cores differ, the first core's instruction is carried out and EV_LOCKSTEP (F3) takes the device to Stranded, with kind 0 for a result, 1
for an access and 2 for a trap; the extension core has no second core (log 74). -/
def Obligations.AuhamTraps : Prop :=
  (∀ (word : Word) (line : Nat) (r : RegAddr) (s : State),
  (atBoundary .cc s = true → s.cc.trap = false → auhamLegal .cc word = false → Completes (exec (.illegalInstruction .cc word) s) (fun t =>
    t.cc.tcause = 1 ∧ t.cc.tval = word ∧ t.cc.tpc = s.cc.pc ∧ t.cc.trap = true ∧ t.cc.regs = s.cc.regs)) ∧
  (line < 256 → s.cc.ie = false → Completes (exec (.interrupt line) s) (fun t =>
    line ∈ t.cc.irq ∧ (∀ l, l ∈ s.cc.irq → l ∈ t.cc.irq) ∧ t.cc.idle = false ∧ t.cc.pc = s.cc.pc ∧ t.cc.regs = s.cc.regs)) ∧
  (line < 256 → s.cc.ie = true → s.cc.irq = [] → coreRuns { s with cc := { s.cc with idle := false } } .cc = true →
    Completes (exec (.interrupt line) s) (fun t => t.cc.tcause = BitVec.ofNat 32 (0x80000000 + line) ∧ t.cc.tpc = s.cc.pc ∧
      t.cc.ie = false ∧ t.cc.pie = true ∧ t.cc.irq = [] ∧ t.cc.pc = Config.trapVector 0)) ∧
  (coreRuns { s with cc := { s.cc with idle := false } } .cc = true →
    Completes (exec .ccWatchdogWarning s) (fun t => t.cc.tcause = 6 ∧ t.cc.tpc = s.cc.pc ∧ t.cc.pc = Config.trapVector 0 ∧ t.cc.trap = true)) ∧
  (started s = true → s.pwr.state ≠ .neap → Completes (exec (.registerWrite (.fx 0) word) s) (fun t =>
    t.ext.fxId = word ∧ (readReg (.fx 4) t).1 = BitVec.ofNat 32 (fxIndex t word.toNat))) ∧
  (started s = true → s.pwr.state ≠ .neap → Completes (exec (.registerWrite r word) s) (fun t => t = writeReg r word s))) ∧
  (∀ (gd ga : Reg) (imm : BitVec 16) (s : State), atBoundary .cc s = true → s.cc.trap = false →
  let a := s.cc.get ga + imm.signExtend 32
  let traps := fun (i : Instr) (kind : Nat) => Completes (exec i s) (fun t => t.cc.tcause = BitVec.ofNat 32 (2 + 256 * kind) ∧ t.cc.tval = a ∧
    t.cc.tpc = s.cc.pc ∧ t.cc.pc = Config.trapVector 0 ∧ t.cc.regs = s.cc.regs ∧ t.cc.mem = s.cc.mem ∧ Elsewhere .cc s t)
  (a.toNat % 2 ≠ 0 → traps (.lh .cc gd ga imm) 1 ∧ traps (.lhu .cc gd ga imm) 1 ∧ traps (.sh .cc gd ga imm) 2) ∧
  (a.toNat % 4 ≠ 0 → traps (.lw .cc gd ga imm 0) 1 ∧ traps (.sw .cc gd ga imm 0) 2 ∧ traps (.jlnkr .cc gd ga imm) 3)) ∧
  (∀ (gd ga gb : Reg) (imm : BitVec 16) (second : Word) (s : State),
  second ≠ 0 →
  let fails := fun (i j : Instr) (kind : Nat) => ∀ u, exec i s = .next u → Completes (exec j s) (fun t => t = f3Fault evLockstep [byte kind] u)
  let a := s.cc.get ga + imm.signExtend 32
  let traps := fun (kind : Nat) => accessTrap s .cc kind a 4 ≠ 0 ∨ accessTrap s .cc kind (a ^^^ second) 4 ≠ 0
  (atBoundary .cc s = true → fails (.add .cc gd ga gb 0) (.add .cc gd ga gb second) 0) ∧
  (atBoundary .cc s = true → traps 1 → fails (.lw .cc gd ga imm 0) (.lw .cc gd ga imm second) 2) ∧
  (atBoundary .cc s = true → ¬ traps 1 → fails (.lw .cc gd ga imm 0) (.lw .cc gd ga imm second) 1) ∧
  (atBoundary .cc s = true → traps 2 → fails (.sw .cc gb ga imm 0) (.sw .cc gb ga imm second) 2) ∧
  (atBoundary .cc s = true → ¬ traps 2 → fails (.sw .cc gb ga imm 0) (.sw .cc gb ga imm second) 1) ∧
  (exec (.add .ext gd ga gb second) s = exec (.add .ext gd ga gb 0) s) ∧
  (exec (.lw .ext gd ga imm second) s = exec (.lw .ext gd ga imm 0) s) ∧
  (exec (.sw .ext gb ga imm second) s = exec (.sw .ext gb ga imm 0) s) ∧
  (awake s = true → (f3Fault evLockstep [0] s).pwr.state = .stranded))

/-- R408 and log 3: whatever a load, store, register or jump instruction does at a boundary, both cores' memories stay in canonical form. -/
def Obligations.AuhamMemoryForm : Prop := ∀ (c : CoreId) (data base : Reg) (imm : BitVec 16) (second : Word) (s : State) (t : State),
  Memory.wf s.cc.mem = true → Memory.wf s.xc.mem = true → atBoundary c s = true →
  let a := (coreOf s c).get base + imm.signExtend 32
  (∀ (i : Instr) (n : Nat), (i, n) ∈ [(Instr.sb c data base imm, 1), (.sh c data base imm, 2), (.sw c data base imm second, 4)] →
    a.toNat % n = 0 → admits s c 2 a.toNat n = true → exec i s = .next t → Memory.wf t.cc.mem = true ∧ Memory.wf t.xc.mem = true) ∧
  (∀ (i : Instr) (n : Nat), (i, n) ∈ [(Instr.lb c data base imm, 1), (.lbu c data base imm, 1), (.lh c data base imm, 2),
      (.lhu c data base imm, 2), (.lw c data base imm second, 4)] →
    a.toNat % n = 0 → admits s c 1 a.toNat n = true → exec i s = .next t → Memory.wf t.cc.mem = true ∧ Memory.wf t.xc.mem = true)

/-- R8, R127: a command is served only in the states of its class. Outside them it is answered `ST_NOT_IN_STATE` and nothing but mailboxes
and what events touch changes (`HELLO`'s class L admits it wherever it can be taken); one of class T or K that arrives in Slack with
good fields begins in Flood, and one with bad fields changes no power state. -/
def Obligations.StateClasses : Prop := ∀ (temp : Int) (found : Nat) (f : MbxCmd → Instr) (op : Nat) (m : MbxCmd) (ref : CmdRef) (s u : State), (f, op) ∈ [
    (Instr.hello, 0x0001), (.caps, 0x0002), (.ping, 0x0003), (.secureOpen, 0x0010), (.secureConfirm, 0x0011), (.sysStatus, 0x0100),
    (.powerRequest, 0x0101), (.resetCause, 0x0102), (.sysReset, 0x0103), (.paramGet, 0x0104), (.paramSet, 0x0105), (.strandedExit, 0x0106),
    (.faultList, 0x0107), (fun m => .lfBurst m temp, 0x0200), (.lfChannelStatus, 0x0201),
    (fun m => .lfChannelEnable m found, 0x0202), (.lfSounding, 0x0203),
    (.zoneWrite, 0x0300), (.zoneRead, 0x0301), (.synthGroupWrite, 0x0302), (.couplingRead, 0x0303), (.zoneState, 0x0304),
    (.tokenLearn, 0x0400), (.tokenRevoke, 0x0401), (.tokenRead, 0x0402), (.uwbPortStatus, 0x0500), (.uwbReflectometry, 0x0501),
    (.rangingStatus, 0x0502), (.pathStart, 0x0600), (.sessionEnd, 0x0601), (.sessionStatus, 0x0602), (.transponderStart, 0x0603),
    (.startWithdraw, 0x0604), (.doorMapWrite, 0x0605), (.radioStatus, 0x0700), (.powerTableWrite, 0x0701), (.regRecordWrite, 0x0702),
    (.regRecordRead, 0x0703), (.radioCalRun, 0x0704), (fun m => .radioTestTx m temp, 0x0705), (.senseStatus, 0x0800), (.wakeMapWrite, 0x0801),
    (.contactStatus, 0x0802), (.senseRebase, 0x0803), (.evtFetch, 0x0900), (.logRead, 0x0901), (.logCheckpoint, 0x0902),
    (.storeStatus, 0x0903), (.stageWrite, 0x0A00), (.fwActivate, 0x0A01), (.grantApply, 0x0A02), (.attest, 0x0A03), (.objectRead, 0x0A04),
    (.tamperStatus, 0x0A05), (.tamperMapWrite, 0x0A06), (.pairStatus, 0x0B00), (.pairSwitchover, 0x0B01), (.pairAdmit, 0x0B02),
    (.pluginLoad, 0x0C00), (.pluginUnload, 0x0C01), (.extStatus, 0x0C02), (.soundingRun, 0x0D00), (.erosionRead, 0x0D01),
    (.busStatus, 0x0E00), (.gpioConfig, 0x0E01), (.gpioWrite, 0x0E02), (.gpioRead, 0x0E03)] →
  takeCmd op m s = (some ref, u) →
  (classAdmits m.member op u = true → ∃ w, begun op m s = some (ref, w)) ∧
  (classAdmits m.member op u = false → op ≠ 0x0001 → exec (f m) s = .next (respond ref stNotInState [] u) ∧
    talkFrame (respond ref stNotInState [] u) = talkFrame u) ∧
  (classAdmits m.member op u = true → opClass op = some .T ∨ opClass op = some .K → u.pwr.state = .slack →
    ∃ w, begun op m s = some (ref, w) ∧ (formOk op m.payload u = true → w.pwr.state = .flood) ∧ (formOk op m.payload u = false → w = u))

/-- R125: the commands whose length the table fixes answer any other length with `ST_BAD_LENGTH` and change nothing. -/
def Obligations.FixedLengths : Prop := ∀ (temp : Int) (found : Nat) (f : MbxCmd → Instr) (op n : Nat) (m : MbxCmd) (ref : CmdRef) (s u : State), (f, op, n) ∈ [
    (Instr.caps, 0x0002, 0), (.secureOpen, 0x0010, 32), (.secureConfirm, 0x0011, 16), (.sysStatus, 0x0100, 0), (.powerRequest, 0x0101, 4),
    (.resetCause, 0x0102, 0), (.sysReset, 0x0103, 4), (.strandedExit, 0x0106, 0), (.faultList, 0x0107, 0), (.lfChannelStatus, 0x0201, 4),
    (fun m => .lfChannelEnable m found, 0x0202, 4), (.lfSounding, 0x0203, 8), (.zoneRead, 0x0301, 4), (.couplingRead, 0x0303, 4), (.zoneState, 0x0304, 0),
    (.tokenLearn, 0x0400, 32), (.tokenRevoke, 0x0401, 4), (.tokenRead, 0x0402, 4), (.uwbPortStatus, 0x0500, 0),
    (.uwbReflectometry, 0x0501, 4), (.rangingStatus, 0x0502, 0), (.pathStart, 0x0600, 4), (.sessionEnd, 0x0601, 4),
    (.sessionStatus, 0x0602, 0), (.transponderStart, 0x0603, 4), (.startWithdraw, 0x0604, 0), (.radioStatus, 0x0700, 0),
    (.powerTableWrite, 0x0701, 128), (.regRecordRead, 0x0703, 0), (.radioCalRun, 0x0704, 4),
    (fun m => .radioTestTx m temp, 0x0705, 8), (.senseStatus, 0x0800, 0), (.wakeMapWrite, 0x0801, 16), (.contactStatus, 0x0802, 0),
    (.senseRebase, 0x0803, 4), (.logRead, 0x0901, 8), (.logCheckpoint, 0x0902, 0), (.storeStatus, 0x0903, 0), (.fwActivate, 0x0A01, 0),
    (.grantApply, 0x0A02, 4), (.attest, 0x0A03, 32), (.objectRead, 0x0A04, 14), (.tamperStatus, 0x0A05, 0), (.tamperMapWrite, 0x0A06, 4),
    (.pairStatus, 0x0B00, 0), (.pairSwitchover, 0x0B01, 0), (.pairAdmit, 0x0B02, 0), (.pluginLoad, 0x0C00, 4), (.pluginUnload, 0x0C01, 4),
    (.extStatus, 0x0C02, 0), (.soundingRun, 0x0D00, 4), (.erosionRead, 0x0D01, 4), (.busStatus, 0x0E00, 0), (.gpioConfig, 0x0E01, 4),
    (.gpioWrite, 0x0E02, 2), (.gpioRead, 0x0E03, 0)] →
  begun op m s = some (ref, u) → m.payload.length ≠ n →
  exec (f m) s = .next (respond ref stBadLength [] u) ∧ talkFrame (respond ref stBadLength [] u) = talkFrame u

/-- R125, R129: the commands that read, and their frame: whatever the payload, they answer and change nothing but the mailboxes, the pair's
link and what events touch. -/
def Obligations.ReadsChangeNothing : Prop := ∀ (f : MbxCmd → Instr) (op : Nat) (m : MbxCmd) (ref : CmdRef) (s u : State), (f, op) ∈ [
    (Instr.caps, 0x0002), (.ping, 0x0003), (.sysStatus, 0x0100), (.resetCause, 0x0102), (.paramGet, 0x0104), (.lfChannelStatus, 0x0201),
    (.zoneRead, 0x0301), (.couplingRead, 0x0303), (.zoneState, 0x0304), (.tokenRead, 0x0402), (.uwbPortStatus, 0x0500),
    (.rangingStatus, 0x0502), (.sessionStatus, 0x0602), (.radioStatus, 0x0700), (.regRecordRead, 0x0703), (.senseStatus, 0x0800),
    (.contactStatus, 0x0802), (.logRead, 0x0901), (.storeStatus, 0x0903), (.objectRead, 0x0A04), (.tamperStatus, 0x0A05),
    (.pairStatus, 0x0B00), (.extStatus, 0x0C02), (.busStatus, 0x0E00), (.gpioRead, 0x0E03), (.faultList, 0x0107)] →
  begun op m s = some (ref, u) → Completes (exec (f m) s) (fun t => talkFrame t = talkFrame u)

/-- R26: a write to a frozen parameter while its block runs is answered `ST_BUSY`, and no parameter of the command changes. -/
def Obligations.FrozenWrites : Prop := ∀ (m : MbxCmd) (s : State) (ref : CmdRef) (u : State) (n : Nat) (l new : List (Nat × Nat)),
  begun 0x0105 m s = some (ref, u) → u8 m.payload 0 = n → paramEntries m.payload n = l → l.foldl (fun w x => pSet w x.1 x.2) u.par.written = new →
  1 ≤ n → n ≤ (if (u.box ref.member).ifv < 0x12 then 31 else 32) → m.payload.length = 4 + 8 * n →
  u8 m.payload 1 ≤ 1 → zeros m.payload 2 2 = true → (∀ k, k < n → zeros m.payload (6 + 8 * k) 2 = true) →
  (∀ x ∈ l, valueOk x.1 x.2 = true ∧ (pBound x.1 = .reset → u8 m.payload 1 = 1)) → waitingParams u = [] → standOk u new = true →
  (lifecycle u = .field → lockedChange u.par.written new = false ∧ ∀ x ∈ l, x.1 ≠ 0x0402) →
  (∃ x ∈ l, isFrozen x.1 = true ∧ boundRuns u (pBound x.1) = true) →
  exec (.paramSet m) s = .next (respond ref stBusy [] u) ∧ (respond ref stBusy [] u).par = u.par ∧ talkFrame (respond ref stBusy [] u) = talkFrame u

/-- R396: a count that reaches 0xFFFF_FFFF stops with `END`; when `COMPARE` is 0xFFFF_FFFF, `MATCH` and `END` are set together and the
action is applied, whatever is written to `STATUS` in the same clock (R5). -/
def Obligations.TimerEnds : Prop := ∀ (n : Nat) (w1c : Word) (ctl : Option (Nat × Word)) (s : State), n < s.timers.length → (timer s n).run = true →
  timerFrozen s n (timer s n) = false → coreClock s = true →
  ((timer s n).compare.toNat < (timer s n).count.toNat → Completes (exec (.timerEnd n w1c) s) (fun t =>
    (timer t n).count = 0xFFFFFFFF ∧ (timer t n).run = false ∧ (timer t n).ended = true)) ∧
  ((timer s n).compare = 0xFFFFFFFF →
    let u := passUs (usOfTicks s (timer s n) (0xFFFFFFFF - (timer s n).count.toNat)) s
    ∃ v, (timer v n).matched = true ∧ (timer v n).ended = true ∧ (timer v n).run = false ∧ (timer v n).count = 0xFFFFFFFF ∧
      exec (.timerMatch n w1c ctl) s = .next (sameClockCtrl ctl u (timerEvent n (applyLink n v))))

/-- Table 17-2, R393, R396, R398: the commands of a Tidemark timer's registers change that timer only. R5, R394 to R396, R402: a running
timer that may reach COMPARE matches, with its link and capture effects; one that COMPARE no longer meets ends at 0xFFFF_FFFF. A STATUS
write in the same clock clears its bits first, so the match stands. -/
def Obligations.TimerRegisters : Prop :=
  (∀ (n : Nat) (value : Word) (same : Bool) (w1c : Word) (s : State), n < s.timers.length → coreClock s = true →
  (Completes (exec (.timerArm n) s) (fun t => timer t n = { timer s n with count := (timer s n).load, run := true } ∧
    (∀ k, k ≠ n → timer t k = timer s k) ∧ t = { s with timers := t.timers })) ∧
  (Completes (exec (.timerStop n) s) (fun t => timer t n = { timer s n with run := false } ∧
    (∀ k, k ≠ n → timer t k = timer s k) ∧ t = { s with timers := t.timers })) ∧
  (Completes (exec (.timerCompareWrite n value) s) (fun t => timer t n = { timer s n with compare := value } ∧
    (∀ k, k ≠ n → timer t k = timer s k) ∧ t = { s with timers := t.timers })) ∧
  (Completes (exec (.timerCaptureRead n) s) (fun t => timer t n = { timer s n with cap := false } ∧
    (∀ k, k ≠ n → timer t k = timer s k) ∧ t = { s with timers := t.timers })) ∧
  (1 ≤ (timer s n).ctrl.toNat / 256 % 16 → (timer s n).ctrl.toNat / 256 % 16 ≤ 13 → ¬((timer s n).ctrl.toNat / 256 % 16 = 11 ∧ n < 16) →
    Completes (exec (.timerCapture n same w1c) s) (fun t =>
      timer t n = { writeStatus w1c (timer s n) with capture := (timer s n).count, cap := true,
                                                     ovr := ((timer s n).ovr && !w1c.getLsbD 4) || ((timer s n).cap && !same) } ∧
      (∀ k, k ≠ n → timer t k = timer s k) ∧ t = { s with timers := t.timers }))) ∧
  (∀ (n : Nat) (w1c : Word) (ctl : Option (Nat × Word)) (s : State),
  ((timer s n).run = true → (timer s n).count.toNat ≤ (timer s n).compare.toNat → timerFrozen s n (timer s n) = false → coreClock s = true →
    let u := passUs (usOfTicks s (timer s n) ((timer s n).compare.toNat - (timer s n).count.toNat)) s
    exec (.timerMatch n w1c ctl) s = .next (sameClockCtrl ctl u (matchTimer n (onTimer n (writeStatus w1c) u)))) ∧
  (n < s.timers.length → (timer s n).run = true → (timer s n).compare.toNat < (timer s n).count.toNat → timerFrozen s n (timer s n) = false →
    coreClock s = true → Completes (exec (.timerEnd n w1c) s) (fun t => (timer t n).count = 0xFFFFFFFF ∧ (timer t n).run = false ∧
      (timer t n).ended = true ∧ (timer t n).matched = ((timer s n).matched && !w1c.getLsbD 1))) ∧
  (n < s.timers.length → linkAction (timer s n) = 0 → (timer s n).ctrl.toNat / 256 % 16 ≠ 13 →
    let u := applyLink n (captureMatch n (onTimer n Timer.fire (onTimer n (writeStatus w1c) s)))
    (timer u n).count = (timer s n).compare ∧ (timer u n).run = false ∧ (timer u n).matched = true))

/-- R50, R61, Table 3-5, R42, R342: the steps of a start-up. Reset is held until both supplies are valid; TEST_EN in FACTORY enables scan
test. R57 to R59, Table 3-4: the holdup capacitor is loaded once charged; C_hold in 0.1 uF and ESR in mOhm come from the measured step
and fall, are reported and stored. R51 to R53, R55, R269: a monitor's crossing changes its bit and no other monitor's; an overvoltage
trips its supply; a rail outside its limits takes the Cliff die's action. -/
def Obligations.StartUp : Prop :=
  (∀ (vbat vddio puf : Nat) (xtal pair role test : Bool) (s : State),
  (s.pwr.state = .off → 5000 ≤ vbat → 1620 ≤ vddio → Completes (exec (.powerOn vbat vddio) s) (fun t =>
    t.pwr.state = .startup ∧ t.pwr.phase = .supplied ∧ t.pwr.vbatValid = true ∧ t.pwr.vddioValid = true ∧ t.pwr.faultN = true ∧
    t.rel.startA = false ∧ t.rel.startB = false ∧ t.lf.cur = none ∧ t.evt.seq = List.replicate 20 0 ∧ t.pending = s.pending)) ∧
  (s.pwr.phase = .supplied → s.pwr.vbatValid = true → s.pwr.vddioValid = true → Completes (exec .railsWithinLimits s) (fun t =>
    t.pwr.phase = .rails ∧ t.pwr.charger = true ∧ t.clk.xtal32 = .qualifying ∧ t.clk.slowOnXtal = false)) ∧
  (s.pwr.phase = .rails → s.pwr.vbatValid = true → s.pwr.vddioValid = true → Completes (exec (.resetRelease xtal pair role test puf) s) (fun t =>
    t.pwr.phase = .rom ∧ t.pwr.cwPair = pair ∧ t.pwr.cwRole = role ∧ t.clk.xtal26 = xtal ∧ t.clk.backup = !xtal ∧
    (t.pwr.scanTest = true ↔ test = true ∧ lifecycle s = .factory) ∧ (t.sec.vaultOk = true ↔ puf ≤ 3))) ∧
  (s.pwr.phase = .rails → (s.pwr.vbatValid = false ∨ s.pwr.vddioValid = false) →
    exec (.resetRelease xtal pair role test puf) s = .next s) ∧
  (s.pwr.phase = .rom → exec .firmwareStart s = .next (
    let v := (advanceTo (if coldStart s then 2400 else 1600) s).onPwr (fun p => { p with phase := .firmware })
    wires (startFaults (if v.pwr.recovery then flushEarly v else firmwareUp v)))) ∧
  (s.pwr.phase = .firmware → exec .mailboxReady s = .next (mailboxUp s))) ∧
  (∀ (step fall : Nat) (s : State),
  (s.pwr.phase ≠ .none → s.pwr.charger = true → s.pwr.hold = none → s.pwr.holdBusy = false → s.pwr.holdSkip = false → Completes (exec .vholdCharged s) (fun t =>
    t.pwr.vhold = 15000 ∧ t.pwr.charger = false ∧ t.pwr.holdBusy = true)) ∧
  (s.pwr.holdBusy = true → Completes (exec (.holdMeasureEnd step fall) s) (fun t =>
    let esr := sat 65535 (roundDiv step 50)
    let c := if fall = 0 then 65535 else sat 65535 (roundDiv 495000000 fall)
    t.pwr.hold = some (c, esr) ∧ t.pwr.holdBusy = false ∧ t.pwr.charger = true ∧
    t.store.queue = s.store.queue ++ [{ cls := 3, items := [.record 0x0053 0 (le16 c ++ le16 esr)] }]))) ∧
  (∀ (mv g rail : Nat) (s : State),
  (s.pwr.vbatFull = true → mv < 5900 → Completes (exec (.supplyMonitorCrossing .vbatFull mv) s) (fun t =>
    t.pwr.vbatFull = false ∧ t.pwr.vbat = mv ∧ t.pwr.vrelValid = s.pwr.vrelValid ∧ t.pwr.vlfValid = s.pwr.vlfValid)) ∧
  (s.pwr.vbatFull = false → 6100 < mv → Completes (exec (.supplyMonitorCrossing .vbatFull mv) s) (fun t => t.pwr.vbatFull = true)) ∧
  (g < s.pwr.vlfValid.length → s.pwr.vlfValid.getD g false = true → mv < 5900 → Completes (exec (.supplyMonitorCrossing (.vlfValid g) mv) s) (fun t =>
    t.pwr.vlfValid = s.pwr.vlfValid.set g false ∧ t.pwr.vbatFull = s.pwr.vbatFull)) ∧
  (s.pwr.vrelValid = true → mv < 5900 → Completes (exec (.supplyMonitorCrossing .vrelValid mv) s) (fun t =>
    t.pwr.vrelValid = false ∧ t.rel.startA = false ∧ t.rel.startB = s.rel.startB)) ∧
  (s.pwr.vbatOv = true → mv < 39500 → Completes (exec (.supplyMonitorCrossing .vbatOv mv) s) (fun t => t.pwr.vbatOv = false)) ∧
  (s.pwr.vddioValid = true → mv < 1550 → Completes (exec (.supplyMonitorCrossing .vddioValid mv) s) (fun t => t.pwr.vddioValid = false)) ∧
  (s.pwr.phase ≠ .none → 40500 < mv → s.pwr.vbatOv = false → s.lf.cur = none → Completes (exec (.overvoltageTrip 0 mv) s) (fun t =>
    t.pwr.vbatOv = true ∧ t.pwr.vbat = mv)) ∧
  (s.pwr.phase ≠ .none → s.pwr.phase ≠ .supplied → s.pwr.state ≠ .neap → rail < 5 → bitSet s.pwr.railBad rail = false →
    (∀ lo hi, railLimits[rail]? = some (lo, hi) → ¬(lo ≤ mv ∧ mv ≤ hi)) → exec (.railFault rail mv) s = .next (
      enterStranded true 0 false (emitF evRailFault 3 [byte rail] (byte rail :: le16 (mv / 10))
        (cliffAct (s.onPwr (fun p => { p with railBad := setBit p.railBad rail })))))) ∧
  (s.pwr.phase ≠ .none → s.pwr.phase ≠ .supplied → s.pwr.state ≠ .neap →
    (∃ lo hi, railLimits[rail]? = some (lo, hi) ∧ lo ≤ mv ∧ mv ≤ hi) →
    exec (.railFault rail mv) s = .next (s.onPwr (fun p => { p with railBad := clrBit p.railBad rail }))))

/-- R68 to R72: loss and return of VBAT, the power-loss shutdown and the resets. R64 to R67, R94, R399: how Flood and Slack idle away, and
what wakes from Neap. -/
def Obligations.LossAndReset : Prop :=
  (∀ (mv low : Nat) (s : State),
  (s.pwr.vbatValid = true → mv < 4500 → s.pwr.phase ≠ .none → Completes (exec (.vbatLoss mv) s) (fun t => t.pwr.vbatValid = false ∧ t.pwr.vbat = mv ∧
    t.pwr.charger = false ∧ t.pwr.holdBusy = false ∧ t.pwr.ride = some s.clk.mono ∧ t.lf.cur = none ∧ t.uwb.sessions = [])) ∧
  (∀ t0, 5000 < mv → s.pwr.vbatValid = false → s.pwr.ride = some t0 → s.clk.mono < t0 + 1000 * param s 0x0104 → 8000 < eUsable s →
    Completes (exec (.vbatReturn mv) s) (fun t => t.pwr.vbatValid = true ∧ t.pwr.vbat = mv ∧ t.pwr.charger = true ∧ t.pwr.ride = none)) ∧
  (∀ t0, s.pwr.ride = some t0 → (t0 + 1000 * param s 0x0104 ≤ s.clk.mono ∨ eUsable s ≤ 8000) → exec (.vbatReturn mv) s = .next s) ∧
  (5000 < mv → s.pwr.vbatValid = false → s.pwr.ride = none → s.pwr.shutdown = true → Completes (exec (.vbatReturn mv) s) (fun t =>
    t.pwr.vbatValid = true ∧ t.pwr.vbat = mv ∧ t.pwr.shutdown = true)) ∧
  (5000 < mv → s.pwr.vbatValid = false → s.pwr.ride = none → s.pwr.shutdown = false → Completes (exec (.vbatReturn mv) s) (fun t =>
    t.pwr.vbatValid = true ∧ t.pwr.charger = true ∧ t.pwr.ride = none)) ∧
  (s.pwr.ride ≠ none → Completes (exec .rideThroughExpiry s) (fun t =>
    t.pwr.shutdown = true ∧ t.pwr.ride = none ∧ t.pwr.hostRdy = false ∧ t.pwr.state = .startup ∧ t.pwr.phase = .none)) ∧
  (s.pwr.shutdown = true → Completes (exec .vholdFloor s) (fun t => t.pwr.state = .off ∧ t.pwr.phase = .none ∧ t.rel.startA = false ∧
    t.rel.startB = false ∧ t.lf.cur = none ∧ t.rad.tx = none ∧ t.pwr.vhold = 0)) ∧
  (2 ≤ low → s.pwr.state ≠ .off → s.pwr.shutdown = false → s.pwr.phase ≠ .supplied → Completes (exec (.resetNAssert low) s) (fun t =>
    t.pwr.state = .startup ∧ t.pwr.phase = .rails ∧ t.pwr.cause = 1 ∧ t.pending = s.pending ∧ t.evt.seq = List.replicate 20 0)) ∧
  (s.pwr.state ≠ .off → s.pwr.shutdown = false → s.pwr.phase ≠ .supplied → s.pwr.phase ≠ .none → Completes (exec .watchdogExpiry s) (fun t =>
    t.pwr.state = .startup ∧ t.pwr.phase = .rails ∧ t.pwr.cause = 3 ∧ s.clk.mono ∈ t.pwr.wdt)) ∧
  (s.pwr.resetAfter = true → (∀ f ∈ s.mbx.out ++ s.mbx.outPri ++ s.mmb.out ++ s.mmb.outPri, f.opcode ≠ 0x0103) → s.pwr.state ≠ .off →
    s.pwr.shutdown = false → s.pwr.phase ≠ .supplied → Completes (exec .hostReset s) (fun t => t.pwr.phase = .rails ∧ t.pwr.cause = 2)) ∧
  (∀ d k, coreClock s = true → exec (.isthmusTransferFail 3 d k) s = .next (f3Fault evIsthmusFail [byte d, byte k] s)) ∧
  ((s.lf.cur ≠ none ∨ (s.lf.soundMask ≠ 0 ∧ s.lf.soundHeld = false) ∨ s.rel.startA = true ∨ s.rel.startB = true) →
    exec .isthmusWatchdogExpiry s = .next (cliffAct s))) ∧
  (∀ (s : State),
  (awake s = true → s.pwr.state = .flood → floodIdle s = true → riding s = false → Completes (exec .floodIdleExpiry s) (fun t => t.pwr.state = .slack)) ∧
  (awake s = true → s.pwr.state = .slack → s.pwr.neapEntry = false → neapReady none s = true → Completes (exec .slackIdleExpiry s) (fun t =>
    t.pwr.neapEntry = true ∧ t.pwr.hostRdy = false)) ∧
  (s.pwr.neapEntry = true → awake s = true → neapReady none s = true → Completes (exec .neapEntryDone s) (fun t =>
    t.pwr.state = .neap ∧ t.pwr.neapEntry = false ∧ t.pwr.hostRdy = false)) ∧
  (s.pwr.neapEntry = true → awake s = true → neapReady none s = false → Completes (exec .neapEntryDone s) (fun t =>
    t.pwr.state = s.pwr.state ∧ t.pwr.neapEntry = false ∧ t.pwr.hostRdy = true)) ∧
  (started s = true → s.pwr.state ≠ .off → transport s = 0 → s.pwr.hostRdy = false →
    exec (.spiCsAssert true) s = .next (neapWake 0x40 false (s.onPwr (fun p => { p with csLow := true, csDiscard := true })))) ∧
  (s.pwr.state ≠ .off → transport s = 0 → s.pwr.hostRdy = true →
    exec (.spiCsAssert true) s = .next (s.onPwr (fun p => { p with csLow := true, csDiscard := false }))) ∧
  (s.pwr.state ≠ .off → Completes (exec (.spiCsAssert false) s) (fun t => t.pwr.csLow = false)) ∧
  (∀ w, s.clk.wakeEdge = some w → s.pwr.neapEntry = false → s.pwr.state = .neap → exec .timerWake s = .next (neapWake 0x41 false
    ((advanceBase ((s.clk.frac + (w - s.clk.edges) * s.clk.pBefore) / 65536) s).onClk (fun c => { c with
      frac := (s.clk.frac + (w - s.clk.edges) * s.clk.pBefore) % 65536, edges := c.edges + (w - s.clk.edges) })))))

/-- R75 to R77: the crystals' failures and recoveries choose the clocks. R80 to R82: a correction's sign decides between a step of the
offset and the slew; time to a wrap or a slew step passes. -/
def Obligations.Clocks : Prop :=
  (∀ (period : Nat) (s : State),
  (s.clk.xtal26 = true → coreClock s = true → exec .xtal26Fail s = .next (updateUwb (f3Fault evXtal26Fail [] (bridgesOff
    ((s.onClk (fun c => { c with xtal26 := false, backup := true })).onBus (fun b => { b with
      bus := b.bus.zipIdx.map (fun x => if x.2 < 2 then { x.1 with state := 0 } else x.1) })))))) ∧
  (s.clk.xtal26 = false → coreClock s = true → Completes (exec .xtal26Recovered s) (fun t => t.clk.xtal26 = true ∧ t.clk.backup = false)) ∧
  (s.clk.xtal32 = .qualifying → s.clk.xtal26 = true → s.pwr.state ≠ .neap → Completes (exec .xtal32Qualified s) (fun t =>
    t.clk.xtal32 = .qualified ∧ t.clk.slowOnXtal = true ∧ s.clk.xtal32From + 31250 ≤ t.clk.base)) ∧
  (s.clk.xtal32 = .qualifying → s.pwr.state ≠ .neap → Completes (exec .xtal32Absent s) (fun t =>
    t.clk.xtal32 = .absent ∧ t.clk.slowOnXtal = s.clk.slowOnXtal ∧ s.clk.xtal32From + 1000000 ≤ t.clk.base)) ∧
  (s.clk.xtal32 = .qualified → Completes (exec .xtal32Fail s) (fun t => t.clk.xtal32 = .failed ∧ t.clk.slowOnXtal = false)) ∧
  (awake s = true → period ≠ 0 → Completes (exec (.slowPeriodMeasure period) s) (fun t =>
    t = { s with clk := { s.clk with slowPeriod := period, slowMeasured := s.clk.base } }))) ∧
  (∀ (p : Nat) (s : State),
  (s.clk.corrDue = true → running s = true → Completes (exec (.tideCorrection p) s) (fun t =>
    let c := roundDivI ((s.clk.edges : Int) * ((p : Int) - s.clk.pBefore)) 131072
    t.clk.corrDue = false ∧ t.clk.base = s.clk.base ∧ t.clk.offset = s.clk.offset + max (c - s.clk.slew) 0 ∧
    t.clk.slew = ((s.clk.slew : Int) - c).toNat)) ∧
  (s.clk.slew ≠ 0 → started s = true → s.pwr.state ≠ .neap → exec .tideSlewStep s = .next (advanceTo ((s.clk.base / 16 + 1) * 16) s)) ∧
  (running s = true → Completes (exec .tideWrap s) (fun t => s.clk.base ≤ t.clk.base)) ∧
  (running s = true → s.clk.slew = 0 → s.bus.canTx = [] → 0 < tide s → 2 < s.evt.queues.length → (s.evt.queues.getD 2 []).length < 15 → Completes (exec .tideWrap s) (fun t =>
    tide t = 0 ∧ t.clk.base = s.clk.base + (2 ^ 48 - tide s) ∧ t.clk.offset = s.clk.offset ∧
    (∃ r ∈ t.evt.queues.getD 2 [], r.code = evTideWrap ∧ r.time = laterStamp (s.evt.stamp.getD (evTideWrap / 256) 0) 0))))

/-- R113, R118, R128, Table 6-4: the link's commands. R65, R68, R70, R131, R132, R458, R461, R141: the system commands. -/
def Obligations.LinkAndSystemCommands : Prop :=
  (∀ (m : MbxCmd) (s : State) (ref : CmdRef) (u : State),
  (running s = true → (s.box m.member).chan = none → m.lane % 8 = 0 → exec (.hello m) s = .next (hello m.member none m.tag m.payload s)) ∧
  (begun 0x0001 m s = some (ref, u) → (s.box m.member).chan ≠ none → exec (.hello m) s = .next (hello ref.member (some ref) ref.tag m.payload u)) ∧
  (begun 0x0002 m s = some (ref, u) → m.payload = [] → ∃ mid : Bytes, mid.length = 12 ∧ exec (.caps m) s = .next (reply ref ([0xB1] ++ mid ++
    [byte (lifecycle u).code, byte u.pair.role.code, 0] ++ Config.serial) u)) ∧
  (begun 0x0003 m s = some (ref, u) → m.payload.length ≤ 64 → exec (.ping m) s = .next (reply ref (le48 (tide u) ++ m.payload) u)) ∧
  (∀ nD v, begun 0x0010 m s = some (ref, u) → m.payload.length = 32 → (∀ at_, (u.box ref.member).storm = some at_ → at_ + 1000000 ≤ now u) → (vaultKey u 1).isSome = true →
    pinnedBusy u = false → u.rng.fatal = none → u.rng.latchedFatal = false → draw .nonce 32 u = (some nD, v) →
    exec (.secureOpen m) s = .next (answerOpen ref m.payload nD v)) ∧
  (∀ o, begun 0x0011 m s = some (ref, u) → m.payload.length = 16 → (u.box ref.member).pending = some o → o.confirmed = false →
    exec (.secureConfirm m) s = .next (if o.hostProof = m.payload
      then reply ref [] (u.onBox ref.member (fun b => { b with pending := some { o with confirmed := true } }))
      else respond ref stAuthFail [] (u.onBox ref.member (fun b => { b with pending := none }))))) ∧
  (∀ (m : MbxCmd) (s : State) (ref : CmdRef) (u : State),
  (begun 0x0100 m s = some (ref, u) → m.payload = [] → ∃ bits : Byte, exec (.sysStatus m) s = .next (reply ref
    ([byte u.pwr.state.code, byte (lifecycle u).code, byte (topClass u), bits] ++ le48 (tide u) ++ [byte u.paths.length, byte u.flt.active.length]) u)) ∧
  (begun 0x0101 m s = some (ref, u) → m.payload = [1, 0, 0, 0] → awake u = true → neapReady (some ref) u = true →
    exec (.powerRequest m) s = .next (reply ref [] (u.onPwr (fun x => { x with neapAfter := true })))) ∧
  (begun 0x0102 m s = some (ref, u) → m.payload = [] →
    exec (.resetCause m) s = .next (reply ref ([byte u.pwr.cause, byte (sat 255 u.pwr.wdtSeen.1)] ++ le32 (startUps u)) u)) ∧
  (begun 0x0103 m s = some (ref, u) → m.payload = [0x3C, 0x5A, 0xC3, 0xA5] →
    exec (.sysReset m) s = .next (reply ref [] (u.onPwr (fun x => { x with resetAfter := true })))) ∧
  (begun 0x0104 m s = some (ref, u) → ∀ n, 1 ≤ n → n ≤ 31 → m.payload.length = 2 + 2 * n → u8 m.payload 0 = n → u8 m.payload 1 = 0 →
    (∀ k, k < n → (pRow (u16 m.payload (2 + 2 * k))).isSome = true) →
    exec (.paramGet m) s = .next (reply ref ([byte n, 0] ++ (List.range n).flatMap (fun k =>
      le16 (u16 m.payload (2 + 2 * k)) ++ [0, 0] ++ le32 (paramW u (u16 m.payload (2 + 2 * k))))) u)) ∧
  (begun 0x0105 m s = some (ref, u) → paramCheck m.payload ref u = none → bitSet (u8 m.payload 1) 0 = false →
    exec (.paramSet m) s = .next (reply ref [] (applyParams (paramEntries m.payload (u8 m.payload 0)) (overtake (paramEntries m.payload (u8 m.payload 0)) u)))) ∧
  (begun 0x0105 m s = some (ref, u) → paramCheck m.payload ref u = none → bitSet (u8 m.payload 1) 0 = true →
    let e := paramEntries m.payload (u8 m.payload 0)
    exec (.paramSet m) s = .next (queueJob { cls := 3, items := paramItems e, after := .params ref e } u)) ∧
  (begun 0x0106 m s = some (ref, u) → m.payload = [] → u.pwr.state = .stranded → f3Active u = false → (∀ h, u.flt.handling = some h → h.2 ≠ 3) →
    (u.sec.reads &&& u.pwr.strandedBy) = 0 → u.pwr.vbatValid = true → u.pwr.persistWanted = false →
    exec (.strandedExit m) s = .next (reply ref [] (setPower { tag := some ref.tag } .slack (neapStir (activity (u.onPwr (fun x => { x with strandedBy := 0 }))))))) ∧
  (begun 0x0107 m s = some (ref, u) → m.payload = [] → u.flt.lost = 0 → exec (.faultList m) s = .next (reply ref
    (let e := ((faultOrder u.flt.active).map (fun f => [byte f.source, byte f.cls] ++ le16 f.code)).take 32
    [byte e.length, 0] ++ e.flatten) u)) ∧
  (begun 0x0900 m s = some (ref, u) → ref.member ≠ eventBox u → m.payload = [1, 0, 0, 0] →
    exec (.evtFetch m) s = .next (reply ref [0, 0] u)) ∧
  (begun 0x0900 m s = some (ref, u) → ref.member = eventBox u → m.payload.length = 4 → 1 ≤ u8 m.payload 0 → u8 m.payload 0 ≤ 7 →
    zeros m.payload 1 3 = true →
    let b := u.box ref.member
    let gone := (u.evt.ring.take b.fetched).filterMap (fun r => if r.code = evCmdDone then r.tag else none)
    let ring := u.evt.ring.drop b.fetched
    let recs := (ring.takeWhile (fun r => !(waitsForLink b r))).take (u8 m.payload 0)
    let keep := fun (l : List Nat) => l.filter (fun t => !gone.contains t)
    exec (.evtFetch m) s = .next (reply ref ([byte recs.length, if ring.length > recs.length then 1 else 0] ++ recs.flatMap EvRec.bytes)
      ((u.onEvt (fun e => { e with ring := ring })).onBox ref.member (fun b => { b with
        fetched := recs.length, inFlight := keep b.inFlight, muted := keep b.muted, relink := keep b.relink })))) ∧
  (∀ old, s.par.trial = some old → started s = true → s.pwr.state ≠ .neap →
    (∀ j ∈ s.store.queue ++ s.store.cur.toList.map (·.job) ++ s.store.paused.map (·.job), j.after ≠ .trial) →
    exec .transportTrialExpiry s = .next (queueJob { cls := 3, items := paramItems old, after := .trial } (advanceTo (s.pwr.readyAt + 10000000) s))))

/-- R62, R91, R92, R94, Table 5-2, Table 5-3, R441: the SPI transactions of a served mailbox. The write hands its frame on to the checks of
Table 5-7, a read takes the frame off its queue only when all its bytes were clocked, any other byte 0 is ignored, and each answers the
status byte with 0x00 where it has nothing more to say; a transaction that is not served gives what Table 5-2 gives. -/
def Obligations.SpiTransactions : Prop := ∀ (member : Bool) (bytes : Bytes) (type clocked : Nat) (f : OutFrame) (s : State),
  let st := statusByte member (csEnds s)
  let answers := fun (b : Bytes) => (csEnds s).onBox member (fun x => { x with sdo := sdoOf s b })
  (spiServed member s = true → rxSpace member s = true → 16 ≤ bytes.length → lengthOk (s.box member) bytes = true →
    exec (.spiWriteFrame member bytes) s = .next (inbound member bytes (takeRx member ((answers (st :: List.replicate bytes.length 0)).onBox member
      (fun b => { b with lastErr := false }))))) ∧
  (spiServed member s = true → rxSpace member s = false → Completes (exec (.spiWriteFrame member bytes) s) (fun t =>
    (t.box member).lastErr = true ∧ (t.box member).lanes = (s.box member).lanes ∧ (t.box member).rx = (s.box member).rx ∧
    (t.box member).sdo = sdoOf s (st :: List.replicate bytes.length 0))) ∧
  (spiServed member s = true → nextOut (s.box member) = some f → 3 + (frameBytes (s.box member) f).length ≤ clocked →
    exec (.spiReadFrame member clocked) s = .next (frameTaken member f ((answers (st :: padTo clocked
      (le16 (frameBytes (s.box member) f).length ++ [0] ++ frameBytes (s.box member) f))).onBox member popOut))) ∧
  (spiServed member s = true → nextOut (s.box member) = some f → clocked < 3 + (frameBytes (s.box member) f).length →
    Completes (exec (.spiReadFrame member clocked) s) (fun t => nextOut (t.box member) = some f)) ∧
  (spiServed member s = true → type ≠ 0xA1 → type ≠ 0xA2 → Completes (exec (.spiStatusOnly member type clocked) s) (fun t =>
    t = answers (st :: List.replicate clocked 0))) ∧
  (spiServed member s = false → type ≠ 0xA1 → type ≠ 0xA2 → Completes (exec (.spiStatusOnly member type clocked) s) (fun t =>
    t = (csEnds s).onBox member (fun x => { x with sdo := spiUnserved clocked (csEnds s) })))

/-- R110, R111, R112, R118, R121: the hold-off of 10 ms, the control frames above the last number, the second of a pending open and the
second after a storm. R111, R112: the retransmit store answers with the held frames from `first` on, marked `RESENT`; an acknowledgement
drops exactly the unacknowledged frames up to its number. -/
def Obligations.MailboxControl : Prop :=
  (∀ (member : Bool) (lane seq first upTo : Nat) (s : State) (o : PendingOpen),
  let b := s.box member
  let taken := rekeyDue member 24 (seq + 1) (s.onBox member (fun b => { b with rx := b.rx.set 8 (seq + 1) }))
  (∀ t0, b.gapHold.getD lane none = some t0 → Completes (exec (.seqGapHoldoffEnd member lane) s) (fun t =>
    t = (advanceTo (t0 + 10000) s).onBox member (fun b => { b with gapHold := b.gapHold.set lane none }))) ∧
  (b.gapHold.getD lane none = none → Completes (exec (.seqGapHoldoffEnd member lane) s) (fun t => t = s)) ∧
  (running s = true → b.linked = true → 0x20 ≤ b.ifv → lane ≤ 7 → b.rx.getD 8 0 ≤ seq → seq < 0xFFFFFFFF →
    Completes (exec (.ctlResend member seq lane first) s) (fun t => t = ctlResend member lane first taken)) ∧
  (running s = true → b.linked = true → 0x20 ≤ b.ifv → 7 < lane → exec (.ctlResend member seq lane first) s = .next (frameError member 6 0 seq s)) ∧
  (running s = true → b.linked = true → 0x20 ≤ b.ifv → b.rx.getD 8 0 ≤ seq → seq < 0xFFFFFFFF →
    Completes (exec (.ctlEvtAck member seq upTo) s) (fun t => t = ctlEvtAck member upTo taken)) ∧
  (seq < b.rx.getD 8 0 ∨ 0xFFFFFFFF ≤ seq → lane ≤ 7 → Completes (exec (.ctlResend member seq lane first) s) (fun t => t = s)) ∧
  (seq < b.rx.getD 8 0 ∨ 0xFFFFFFFF ≤ seq → Completes (exec (.ctlEvtAck member seq upTo) s) (fun t => t = s)) ∧
  (b.pending = some o → o.confirmed = false → Completes (exec (.secureOpenExpiry member) s) (fun t =>
    (t.box member).pending = none ∧ (t.box member).chan = b.chan ∧ t.clk.base = max s.clk.base (o.at_ + 1000000))) ∧
  (∀ t0, b.storm = some t0 → Completes (exec (.authStormHoldEnd member) s) (fun t =>
    t = (advanceTo (t0 + 1000000) s).onBox member (fun b => { b with storm := none }))) ∧
  (b.storm = none → Completes (exec (.authStormHoldEnd member) s) (fun t => t = s))) ∧
  (∀ (member : Bool) (lane first upTo : Nat) (s : State),
  (lane < 6 → (∀ f ∈ (s.box member).held.getD lane [], f.lane = lane) →
    (∀ f, ((s.box member).held.getD lane []).head? = some f → f.seq ≤ first) → ((s.box member).held.getD lane [] ≠ []) →
    ctlResend member lane first s = s.onBox member (fun b => { b with
      out := b.out ++ (((s.box member).held.getD lane []).filter (fun f => f.seq ≥ first)).map (fun f => { f with flags := f.flags ||| 4 }) })) ∧
  (let b := s.box member
    let gone := b.unacked.takeWhile (fun u => u.1 ≤ upTo && !waitsOut b u.1)
    let left := s.onBox member (fun b => { b with unacked := b.unacked.drop gone.length })
    (member ≠ eventBox s → ctlEvtAck member upTo s = left) ∧
    (member = eventBox s → ctlEvtAck member upTo s = pumpEvents (left.onEvt (fun e => { e with
      ring := e.ring.drop ((gone.map (fun u => u.2.length)).sum) })))))

/-- R102, R110, Table 5-7: what an inbound frame in the clear must pass, and where an accepted command goes: its lane's number advances and
it waits at the end of its lane. -/
def Obligations.InboundFrames : Prop := ∀ (member : Bool) (bytes : Bytes) (s : State),
  let b := s.box member
  (bytes.length < 16 → inbound member bytes s = frameError member 1 0xFF 0xFFFFFFFF s) ∧
  (16 ≤ bytes.length → lengthOk b bytes = false → inbound member bytes s = frameError member 1 (u8 bytes 1 % 8) (u32 bytes 8) s) ∧
  (16 ≤ bytes.length → lengthOk b bytes = true → crc32c (bytes.take 12 ++ slice bytes 16 (u16 bytes 6)) ≠ u32 bytes 12 →
    inbound member bytes s = frameError member 2 (u8 bytes 1 % 8) (u32 bytes 8) s) ∧
  (16 ≤ bytes.length → lengthOk b bytes = true → crc32c (bytes.take 12 ++ slice bytes 16 (u16 bytes 6)) = u32 bytes 12 →
    b.chan = none → b.linked = true → u8 bytes 0 = 1 → u8 bytes 1 < 7 → ¬(u8 bytes 1 = 0 ∧ u16 bytes 4 = 1) →
    u32 bytes 8 = expected b (u8 bytes 1) → u8 bytes 3 = b.ifv →
    acceptCheck member 0 (u8 bytes 1) (u8 bytes 2) (u16 bytes 4) s = none →
    ((inbound member bytes s).box member).lanes = modAt b.lanes (u8 bytes 1) (· ++
      [{ tag := u8 bytes 2, opcode := u16 bytes 4, payload := slice bytes 16 (u16 bytes 6), seq := u32 bytes 8 }]) ∧
    ((inbound member bytes s).box member).rx = b.rx.set (u8 bytes 1) (u32 bytes 8 + 1) ∧
    ((inbound member bytes s).box member).inFlight = u8 bytes 2 :: b.inFlight)

/-- R3, R95 to R97: ISO-TP reception and transmission on a served CAN mailbox, with N_Cr, N_Bs, STmin and the 50 ms of WAIT. -/
def Obligations.IsoTp : Prop := ∀ (member : Bool) (len sn st bs stMin : Nat) (bytes : Bytes) (r : IsoRx) (x : IsoTx) (s : State),
  let b := s.box member
  let fresh := s.onBox member (fun b => { b with isoRx := none })
  let rx := fun (y : Option IsoRx) (s : State) => s.onBox member (fun b => { b with isoRx := y })
  let tx := fun (y : Option IsoTx) (s : State) => s.onBox member (fun b => { b with isoTx := y })
  (canServed member s = true → rxSpace member s = true →
    exec (.isotpSingleFrame member bytes) s = .next (isoPump member (inbound member bytes (takeRx member s)))) ∧
  (canServed member s = true → rxSpace member s = false → Completes (exec (.isotpSingleFrame member bytes) s) (fun t => t = s)) ∧
  (canServed member s = true → 0 < len → len ≤ 4095 → rxSpace member fresh = true → Completes (exec (.isotpFirstFrame member len bytes) s) (fun t =>
    t = isoFlow member 0 (rx (some { len := len, got := bytes, cts := true, waits := 0, at_ := now s }) fresh))) ∧
  (canServed member s = true → 0 < len → len ≤ 4095 → rxSpace member fresh = false → Completes (exec (.isotpFirstFrame member len bytes) s) (fun t =>
    t = isoFlow member 1 (rx (some { len := len, got := bytes, cts := false, waits := 1, at_ := now s }) fresh))) ∧
  (canServed member s = true → (len = 0 ∨ 4095 < len) → Completes (exec (.isotpFirstFrame member len bytes) s) (fun t => t = s)) ∧
  (canServed member s = true → b.isoRx = some r → r.cts = true → sn % 16 = r.nextSn → (r.got ++ bytes).length < r.len →
    Completes (exec (.isotpConsecutiveFrame member sn bytes) s) (fun t =>
      t = rx (some { r with got := r.got ++ bytes, nextSn := (r.nextSn + 1) % 16, at_ := now s }) s)) ∧
  (canServed member s = true → b.isoRx = some r → r.cts = true → sn % 16 = r.nextSn → r.len ≤ (r.got ++ bytes).length →
    exec (.isotpConsecutiveFrame member sn bytes) s = .next (isoPump member (inbound member ((r.got ++ bytes).take r.len) (takeRx member fresh)))) ∧
  (canServed member s = true → b.isoRx = some r → r.cts = true → sn % 16 ≠ r.nextSn →
    Completes (exec (.isotpConsecutiveFrame member sn bytes) s) (fun t => t = fresh)) ∧
  (canServed member s = true → b.isoTx = some x → x.left = none → bs ≠ 0 →
    exec (.isotpFlowControl member 0 bs stMin) s = .next (isoPump member (isoBlock member ((x.rest.length + 62) / 63)
      (isoStep member (tx (some { x with left := some bs, stUs := stMinUs stMin }) s))))) ∧
  (canServed member s = true → b.isoTx = some x → x.left = none →
    exec (.isotpFlowControl member 0 0 stMin) s = .next (isoPump member (isoBlock member ((x.rest.length + 62) / 63)
      (isoStep member (tx (some { x with left := some ((x.rest.length + 62) / 63), stUs := stMinUs stMin }) s))))) ∧
  (canServed member s = true → b.isoTx = some x → x.left = none → Completes (exec (.isotpFlowControl member 1 bs stMin) s) (fun t =>
    t = tx (some { x with at_ := now s }) s)) ∧
  (canServed member s = true → b.isoTx = some x → x.left = none → 2 ≤ st →
    exec (.isotpFlowControl member st bs stMin) s = .next (isoPump member (isoAbandon member s))) ∧
  (stMin ≤ 0x7F → stMinUs stMin = 1000 * stMin) ∧ (0xF1 ≤ stMin → stMin ≤ 0xF9 → stMinUs stMin = 100 * (stMin - 0xF0)) ∧
  (b.isoTx = some x → x.rest.length ≤ 63 → isoStep member s =
    frameSent member x.frame (tx none (isoSend member (byte (0x20 + x.sn) :: x.rest) s))) ∧
  (b.isoRx = some r → r.cts = false →
    let u := advanceTo (r.at_ + 50000) s
    (rxSpace member u = true → exec (.isotpWaitTimer member) s = .next (isoFlow member 0 (rx (some { r with cts := true, at_ := now u }) u))) ∧
    (rxSpace member u = false → r.waits < 8 →
      exec (.isotpWaitTimer member) s = .next (isoFlow member 1 (rx (some { r with waits := r.waits + 1, at_ := now u }) u))) ∧
    (rxSpace member u = false → 8 ≤ r.waits → exec (.isotpWaitTimer member) s = .next (isoFlow member 2 (rx none u)))) ∧
  (b.isoRx = some r → r.cts = true → Completes (exec (.isotpNCrTimeout member) s) (fun t => t = rx none (advanceTo (r.at_ + 1000000) s))) ∧
  (b.isoTx = some x → x.left = none →
    exec (.isotpNBsTimeout member) s = .next (isoPump member (isoAbandon member (advanceTo (x.at_ + 1000000) s))))

/-- R142, R161, R163, R165, R170, R177: the host's LF commands when their checks pass. -/
def Obligations.LfCommands : Prop := ∀ (m : MbxCmd) (temp : Int) (found : Nat) (s : State) (ref : CmdRef) (u : State),
  (begun 0x0200 m s = some (ref, u) → 1 ≤ u8 m.payload 0 → u8 m.payload 0 ≤ 8 → m.payload.length = 20 + 4 * u8 m.payload 0 →
    burstFieldsOk m.payload = true → u8 m.payload 1 = 0 → hostLfBusy u = false →
    let v := cliffReads temp u
    let inc := incOf v (u32 m.payload 4)
    let brake := perUs inc (brakePer inc)
    let b : Burst := { kind := .carrier, ref := some ref, windows := [{ drives := burstDrives m.payload }], durUs := 1000 * u8 m.payload 3 + brake,
                       brakeUs := brake, energyUj := driveUj v inc (1000 * u8 m.payload 3 + brake) (burstDrives m.payload), inc := u32 m.payload 4 }
    lfCheck false (burstGroups b) b.energyUj b.durUs v = none → thermalOk v false b.energyUj = true →
    exec (.lfBurst m temp) s = .next (accepted ref (v.onLf (fun l => { l with queued := some b, held := l.held.or l.queued })))) ∧
  (begun 0x0201 m s = some (ref, u) → m.payload.length = 4 → 1 ≤ u8 m.payload 0 → u8 m.payload 0 ≤ 48 → zeros m.payload 1 3 = true →
    let n := u8 m.payload 0
    let c := lfChan u n
    exec (.lfChannelStatus m) s = .next (reply ref ([byte n, byte c.diag, byte c.implaus, (if c.disabled then 1 else 0)] ++ chanFields c ++
      le32 (rowAge u n).1 ++ le16 (twos 16 (max (-32768) (min 32767 c.det)))) u)) ∧
  (begun 0x0202 m s = some (ref, u) → m.payload.length = 4 → 1 ≤ u8 m.payload 0 → u8 m.payload 0 ≤ 48 → u8 m.payload 1 = 0 → zeros m.payload 2 2 = true →
    u.lf.cur = none → u.lf.soundMask = 0 → exec (.lfChannelEnable m found) s = .next (reply ref [] (onChan (u8 m.payload 0) (fun x => { x with disabled := true }) u))) ∧
  (begun 0x0202 m s = some (ref, u) → m.payload.length = 4 → 1 ≤ u8 m.payload 0 → u8 m.payload 0 ≤ 48 → u8 m.payload 1 = 1 → zeros m.payload 2 2 = true →
    (found &&& 0x16) = 0 → u.lf.cur.isSome = true ∨ u.lf.soundMask ≠ 0 →
    exec (.lfChannelEnable m found) s = .next (reply ref [] (u.onLf (fun l => { l with pendEnable := l.pendEnable ++ [(u8 m.payload 0, true)] })))) ∧
  (begun 0x0202 m s = some (ref, u) → m.payload.length = 4 → 1 ≤ u8 m.payload 0 → u8 m.payload 0 ≤ 48 → u8 m.payload 1 = 1 → zeros m.payload 2 2 = true →
    (found &&& 0x16) ≠ 0 → exec (.lfChannelEnable m found) s = .next (respond ref stHwFault [] u)) ∧
  (begun 0x0203 m s = some (ref, u) → m.payload.length = 8 → zeros m.payload 6 2 = true → hostLfBusy u = false →
    soundCheck ((bitsOf 48 (u48 m.payload 0)).map (· + 1)) u = none → u48 m.payload 0 ≠ 0 →
    exec (.lfSounding m) s = .next (accepted ref (u.onLf (fun l => if u.lf.soundMask = 0
      then { l with soundMask := u48 m.payload 0, soundRef := some ref, soundAuto := false }
      else { l with soundWait := some (u48 m.payload 0, some ref) })))) ∧
  (begun 0x0203 m s = some (ref, u) → m.payload.length = 8 → zeros m.payload 6 2 = false →
    exec (.lfSounding m) s = .next (respond ref stBadParam [] u)) ∧
  (begun 0x0303 m s = some (ref, u) → m.payload.length = 4 → 1 ≤ u8 m.payload 0 → u8 m.payload 0 ≤ 48 → zeros m.payload 1 3 = true →
    ∃ e : Bytes, e.length = 196 ∧ exec (.couplingRead m) s = .next (reply ref ([byte (u8 m.payload 0), 0] ++ le32 (rowAge u (u8 m.payload 0)).1 ++ e) u))

/-- R153, R154, R156, R158, R161, R173: a burst begins and ends, is validated, and a diagnosis is set in it. R154, R164, R165, R169, R171:
soundings, refreshes and the duty account. -/
def Obligations.LfEngine : Prop :=
  (∀ (b : Burst) (r : CmdRef) (uj ovf chan bit : Nat) (recs v : List WinRec) (temp : Int) (s : State),
  (s.lf.cur = none → s.pwr.state = .flood → running s = true → riding s = false → s.clk.xtal26 = true → s.pair.role ≠ .lee → s.path = none →
    s.lf.soundMask = 0 → s.lf.commitDue = false → s.lf.queued = some b →
    let v := cliffReads temp s
    lfCheck false (burstGroups b) b.energyUj b.durUs v = none → thermalOk v false b.energyUj = true → (b.ref = none → s.paths = []) →
    Completes (exec (.lfBurstBegin temp) s) (fun t => t = startBurst b (v.onLf (fun l => { l with queued := none })))) ∧
  (s.lf.cur = some b → b.ref = some r → Completes (exec (.lfBurstEnd uj ovf recs temp) s) (fun t =>
    t.lf.cur = none ∧ t.lf.queued = s.lf.queued ∧ t.clk.base = max s.clk.base (b.started + b.durUs) ∧
    t.lf.valid = if ovf = 0 then some (b, recs.filter (fun r => !b.lostGroups.contains (vlfGroup r.chan))) else none)) ∧
  (s.lf.valid = some (b, v) → s.lf.cur = none → s.lf.soundMask = 0 ∨ s.lf.soundHeld = true →
    exec .lfValidationDone s = .next (modelCommit (validateBurst b v (s.onLf (fun l => { l with valid := none }))))) ∧
  (s.lf.valid = some (b, v) → s.lf.cur ≠ none ∨ (s.lf.soundMask ≠ 0 ∧ s.lf.soundHeld = false) →
    exec .lfValidationDone s = .next (validateBurst b v (s.onLf (fun l => { l with valid := none })))) ∧
  (s.lf.cur = some b → 1 ≤ chan → chan ≤ s.lf.chans.length → bitSet (burstMask b) (chan - 1) = true → bit ∈ [0, 1, 2, 3, 5, 6] →
    (bit = 6 → measures b (now s - b.started) = true) →
    Completes (exec (.lfDriveFault chan bit) s) (fun t => (lfChan t chan).diag = setBit (lfChan s chan).diag bit ∧
      ∀ c, 1 ≤ c → c ≠ chan → lfChan t c = lfChan s c)) ∧
  (awake s = true → s.pair.role ≠ .lee → lfIdle s = true → Completes (exec (.offStateScan 0 0 0) s) (fun t =>
    t.lf.lastScan = max s.clk.base (s.lf.lastScan + 100000 * param s 0x0206))) ∧
  (awake s = true → s.pair.role ≠ .lee → lfIdle s = false → exec (.offStateScan 0 0 0) s = .next (s.onLf (fun l => { l with
    lastScan := l.lastScan + (now s - l.lastScan) / max 1 (100000 * param s 0x0206) * (100000 * param s 0x0206) })))) ∧
  (∀ (chan group : Nat) (temp : Int) (fit : RingFit) (a b c : Bool) (d : Bytes) (s : State),
  (chan ≠ 0 → bitSet s.lf.soundMask (chan - 1) = true → s.lf.cur = none → s.pwr.state = .flood → running s = true → riding s = false →
    s.clk.xtal26 = true → groupValid s (vlfGroup chan) = true → s.path = none → clrBit s.lf.soundMask (chan - 1) ≠ 0 →
    Completes (exec (.soundingChannelDone chan fit a b c) s) (fun t =>
      t.lf.soundMask = clrBit s.lf.soundMask (chan - 1) ∧ t.lf.soundRef = s.lf.soundRef ∧ t.lf.lastEnd = now s)) ∧
  (1 ≤ chan → chan ≤ 48 → s.pwr.state = .flood → running s = true → riding s = false → s.clk.xtal26 = true → lfIdle s = true → s.path = none →
    s.paths = [] → s.soundRun = none →
    ((lfChan s chan).diag &&& 0xE9) ≠ 0 → bitSet (lfChan s chan).diag 5 = false → (lfChan s chan).lastAuto = none →
    s.lf.lastEnd + 50000 ≤ s.clk.base → soundCheck [chan] s = none →
    Completes (exec (.autoSounding chan) s) (fun t => t = (onChan chan (fun x => { x with
      lastAuto := some (now s), ovcTries := (lfChan s chan).ovcTries.filter (fun t => now s < t + 3600000000) }) s).onLf (fun l => { l with
        soundMask := 2 ^ (chan - 1), soundAuto := true }))) ∧
  (group ≤ 15 → s.pwr.state = .flood → running s = true → riding s = false → bitSet (param s 0x0205) group = true → hostLfBusy s = false → s.paths = [] →
    s.lf.queued = none → s.lf.held = none → groupDef s group = some d →
    let v := cliffReads temp s
    let mem := (remap v d).filterMap (·.2)
    mem ≠ [] → columnDue v d mem = true →
    lfCheck false (burstGroups (refreshBurst v mem)) (refreshBurst v mem).energyUj (refreshBurst v mem).durUs v = none →
    thermalOk v false (refreshBurst v mem).energyUj = true →
    Completes (exec (.keepFreshRefresh group temp) s) (fun t => t = v.onLf (fun l => { l with queued := some (refreshBurst v mem) }))) ∧
  (s.pwr.state ≠ .off → exec .lfDutyBinRoll s = .next ((monoAt s.lf.binAt s).onLf (fun l => { l with
    duty := (0 :: l.duty).take 60, binAt := l.binAt + 60000000 }))))

/-- R135, R179, R190, R194, R228, R336: the commands of zones, groups and token records when their checks pass. -/
def Obligations.ZoneAndTokenCommands : Prop := ∀ (m : MbxCmd) (s : State) (ref : CmdRef) (u : State),
  (begun 0x0300 m s = some (ref, u) → u8 m.payload 1 = 1 → u8 m.payload 6 ≤ 8 → m.payload.length = 28 + 4 * u8 m.payload 6 → u8 m.payload 0 ≤ 31 →
    zeros m.payload 2 2 = true → zoneOk (m.payload.drop 4) = true → exec (.zoneWrite m) s = .next (queueJob
      { items := [.record 0x0020 (u8 m.payload 0) (m.payload.drop 4)], after := .reply ref } u)) ∧
  (begun 0x0300 m s = some (ref, u) → u8 m.payload 1 = 0 → m.payload.length = 4 → u8 m.payload 0 ≤ 31 → zeros m.payload 2 2 = true →
    exec (.zoneWrite m) s = .next (queueJob { items := [.record 0x0020 (u8 m.payload 0) []], after := .reply ref } u)) ∧
  (begun 0x0301 m s = some (ref, u) → m.payload.length = 4 → u8 m.payload 0 ≤ 31 → zeros m.payload 1 3 = true →
    exec (.zoneRead m) s = .next (reply ref (match zoneDef u (u8 m.payload 0) with | some d => [1, 0] ++ d | none => [0, 0]) u)) ∧
  (begun 0x0302 m s = some (ref, u) → 1 ≤ u8 m.payload 1 → u8 m.payload 1 ≤ 8 → 1 ≤ u8 m.payload 20 → u8 m.payload 20 ≤ 16 →
    m.payload.length = 24 + 8 * u8 m.payload 20 → groupOk m.payload = true → exec (.synthGroupWrite m) s = .next (queueJob
      { items := [.record 0x0021 (u8 m.payload 0) m.payload], after := .reply ref } u)) ∧
  (begun 0x0304 m s = some (ref, u) → m.payload = [] → ∃ e : Bytes, e.length = 12 * u.zon.located.length ∧
    exec (.zoneState m) s = .next (reply ref ([byte u.zon.located.length, 0] ++ e) u)) ∧
  (∀ k, begun 0x0400 m s = some (ref, u) → m.payload.length = 32 → u16 m.payload 0 < 512 → u8 m.payload 3 = 0 → u8 m.payload 28 = 0 →
    zeros m.payload 29 3 = true → u32 m.payload 4 ≠ 0 → u32 m.payload 4 ≠ 0xFFFFFFFF → vaultKey u 5 = some k → tokenOf u (u32 m.payload 4) = none →
    learning u = [] → tokenRec u (u16 m.payload 0) = none → exec (.tokenLearn m) s = .next (queueJob
      { items := [.record 0x0030 (u16 m.payload 0) ([m.payload.getD 2 0, 0, 0, 0] ++ slice m.payload 4 4 ++ keyWrap k (slice m.payload 8 16)),
          .ctr (u16 m.payload 0) (max (u32 m.payload 24) ((ctrValue u (u16 m.payload 0)).getD 0))],
        after := .learned ref (u16 m.payload 0) (u32 m.payload 4) } u)) ∧
  (∀ b, begun 0x0401 m s = some (ref, u) → m.payload.length = 4 → zeros m.payload 2 2 = true → tokenRec u (u16 m.payload 0) = some b →
    exec (.tokenRevoke m) s = .next (queueJob { items := [.record 0x0030 (u16 m.payload 0) []], after := .revoked ref (u16 m.payload 0) (tokId b) } u)) ∧
  (begun 0x0402 m s = some (ref, u) → m.payload.length = 4 → u16 m.payload 0 < 512 → zeros m.payload 2 2 = true → tokenRec u (u16 m.payload 0) = none →
    exec (.tokenRead m) s = .next (reply ref (le16 (u16 m.payload 0) ++ zeroBytes 18) u))

/-- R194, R196, R197, R226: decisions during sessions, drop ages, locate polls and their reports. -/
def Obligations.LocatedSet : Prop := ∀ (token plan slot : Nat) (temp : Int) (body nDev : Bytes) (q : LocPoll) (l : Located) (pre : Window)
    (tones : List Window) (s v w x : State),
  (running s = true → sessionOpen s = true → halted s = false →
    exec .zonePeriodDecision s = .next (sessionDecision (advanceTo (s.zon.lastDecision + 10000 * param s 0x0304) s))) ∧
  (locatedOf s token = some l → holdsSession s token = false → running s = true → Completes (exec (.zoneDropAgeExpiry token) s) (fun t =>
    locatedOf t token = none ∧ (∀ k, k ≠ token → locatedOf t k = locatedOf s k) ∧
    t.clk.base = max s.clk.base (l.newest + 100000 * param s 0x0308))) ∧
  ((sessionPlans s).contains plan = true → 1 < param s 0x0401 → awake s = true → hostBurstBusy s = false → pathAhead s = false → s.lf.queued = none →
    s.lf.held = none → s.zon.poll = none → riding s = false →
    let s1 := advanceTo (pollDue s plan) s
    let s2 := s1.onZon (fun z => { z with polled := z.polled.filter (fun q => q.1 ≠ plan) ++ [(plan, now s1)] })
    let s0 := cliffReads temp (enterFlood s2)
    let ver := param s0 0x0401
    let sent := sentTones s0 plan ver
    let endAt := lfFree s0 + frameUs (carrierInc s0) ver + 500 * sent.length
    locatePre plan endAt s0 = (some pre, v) → toneWindows endAt (carrierInc s0) sent v = (tones, w) →
    let b := wakeBurst w .locate none 0 ver pre tones [] plan
    lfCheck false (burstGroups b) b.energyUj b.durUs w = none → thermalOk w false b.energyUj = true → draw .challenge 4 w = (some nDev, x) →
    exec (.locatePoll plan temp) s = .next (x.onLf (fun l => { l with queued := some { b with
      frame := wakeFrame (wakeBits ver 1 sent.length (param x 0x0402) nDev plan) } }))) ∧
  (s.zon.poll = some q → q.opened = true → body.length = 23 → u8 body 0 = 0x13 → u8 body 1 = slot → slot = q.slot →
    let r := rxFrame s
    (tokenOf r (beNat (slice body 2 4))).bind (locatedOf r) = some l → l.kS ≠ [] → slotFor r (beNat (slice body 2 4)) q.nDev = slot →
    ((cmac l.kS (3 :: q.nDev ++ slice body 2 13)).take 8 = body.drop 15 → Completes (exec (.locateReportReceived slot body) s) (fun t =>
      t = { r with zon := t.zon } ∧ t.zon.located = r.zon.located.map (fun x => if x.idx = l.idx then { x with
        newest := now r,
        reports := x.reports.filter (fun r => r.1 ≠ q.plan) ++ [(q.plan, q.at_, (slice body 6 8).map (·.toNat), u8 body 14, marksFor q.version q.windows)] } else x))) ∧
    ((cmac l.kS (3 :: q.nDev ++ slice body 2 13)).take 8 ≠ body.drop 15 →
      Completes (exec (.locateReportReceived slot body) s) (fun t => t = emit evTokenAuthFail 1 (le16 l.idx ++ [5]) r))) ∧
  (∀ idx, s.zon.poll = some q → q.opened = true → body.length = 23 → u8 body 0 = 0x13 → u8 body 1 = slot → slot = q.slot →
    tokenOf (rxFrame s) (beNat (slice body 2 4)) = some idx → (∀ l, locatedOf (rxFrame s) idx = some l → l.kS = []) →
    exec (.locateReportReceived slot body) s = .next (emit evTokenAuthFail 1 (le16 idx ++ [5]) (rxFrame s)))

/-- R235, R237, R246: the host's UWB commands. R235 to R237: reflectometry, asked for automatically and its result by port. -/
def Obligations.RangingCommands : Prop :=
  (∀ (m : MbxCmd) (s : State) (ref : CmdRef) (u : State),
  (begun 0x0500 m s = some (ref, u) → m.payload = [] → ∃ e : Bytes, e.length = 32 ∧ exec (.uwbPortStatus m) s = .next (reply ref e u)) ∧
  (begun 0x0501 m s = some (ref, u) → m.payload.length = 4 → u8 m.payload 0 ≤ 15 → zeros m.payload 1 3 = true → u.uwb.sessions = [] → u.uwb.reflRef = none → u.soundRun = none →
    u8 m.payload 0 ≠ 0 → exec (.uwbReflectometry m) s = .next (accepted ref (u.onUwb (fun x => { x with refl := x.refl ||| u8 m.payload 0, reflRef := some ref })))) ∧
  (begun 0x0501 m s = some (ref, u) → m.payload = [0, 0, 0, 0] → u.uwb.sessions = [] → u.uwb.reflRef = none → u.soundRun = none →
    exec (.uwbReflectometry m) s = .next (cmdDone ref stOk [] (accepted ref u))) ∧
  (begun 0x0502 m s = some (ref, u) → m.payload = [] → ∃ (n : Nat) (e : Bytes), n ≤ 4 ∧ n ≤ u.zon.located.length ∧ e.length = 12 * n ∧
    exec (.rangingStatus m) s = .next (reply ref ([byte n, 0] ++ e) u))) ∧
  (∀ (port trip : Nat) (rho : Int) (s : State),
  (1 ≤ port → port ≤ 4 → portEnabled s port = true → s.pwr.state = .flood → running s = true → s.path = none → s.paths = [] → s.uwb.sessions = [] →
    s.uwb.due = [] → s.uwb.reflRef = none → s.soundRun = none → storedDelay s port = none →
    Completes (exec (.reflectometryAuto port) s) (fun t => t = s.onUwb (fun u => { u with refl := setBit u.refl (port - 1) }))) ∧
  (1 ≤ port → port ≤ s.uwb.ports.length → bitSet s.uwb.refl (port - 1) = true → s.uwb.sessions = [] → s.uwb.due = [] → s.pwr.state = .flood →
    riding s = false → s.clk.xtal26 = true →
    Completes (exec (.reflectometryPortDone port rho trip) s) (fun t =>
      (t.uwb.ports.getD (port - 1) {}).state = reflState rho ∧
      (reflState rho = 1 → (t.uwb.ports.getD (port - 1) {}).prevGood =
        some (sat 65535 (trip / 2 - (s.uwb.ports.getD (port - 1) {}).internal)) ∧ (t.uwb.ports.getD (port - 1) {}).shown =
        some (sat 65535 (trip / 2 - (s.uwb.ports.getD (port - 1) {}).internal), now s)) ∧
      t.uwb.refl = clrBit s.uwb.refl (port - 1) ∧ ∀ k, k ≠ port - 1 → t.uwb.ports.getD k {} = s.uwb.ports.getD k {})))

/-- R238 to R246, R253: a token's ranging burst, round by round. -/
def Obligations.RangingBursts : Prop := ∀ (token port q fp tr tp ovf : Nat) (rn : Bool) (ph : Option Int) (pay seed : Bytes) (l : Located) (x : RSess) (r : Round) (s v : State),
  (locatedOf s token = some l → awake s = true → holdsSession s token = true → l.kS ≠ [] → uwbGoneAll s = false → s.uwb.due = [] → s.uwb.sessions = [] →
    Completes (exec (.renewalBurstDue token) s) (fun t => t = (enterFlood s).onUwb (fun u => { u with due := [(token, true)] }))) ∧
  (nextDue s = some (token, rn) → s.uwb.sessions.length < 4 → s.pwr.state = .flood → running s = true → riding s = false → s.uwb.refl = 0 →
    (burstKey s token rn).1 ≠ [] → (burstKey s token rn).2 ≠ [] → burstGone s rn = false →
    (tokenRec s token).isSome = true → (rn = true → holdsSession s token = true) →
    (rn = false → ∃ p, s.path = some p ∧ fits s p (rangingUs s (portSet s p.req.kind p.req.doors) + 1000 + signalUs s p) = true) →
    draw .sts 16 s = (some seed, v) →
    Completes (exec (.rangingBurstBegin token) s) (fun t => t.uwb.sessions = v.uwb.sessions ++ [{
        num := v.uwb.opened, token := token, renewal := rn, seed := seed,
        kSts := cmac (burstKey s token rn).1 (4 :: seed), vUpper := (cmac (burstKey s token rn).1 (5 :: seed)).take 12,
        kRep := cmac (burstKey s token rn).1 (6 :: seed), plan := (burstKey s token rn).2 }] ∧
      t.uwb.due = v.uwb.due.filter (fun d => d.1 ≠ token) ∧ t.clk.base = max v.clk.base (if rn then announcedAt v token else 0))) ∧
  (sessOf s token = some x → s.uwb.sessions.any (·.cur.isSome) = false → s.uwb.turn.head? = some x.num → x.plan.head? = some port → riding s = false →
    portUsable s port = true → Completes (exec (.rangingRoundStart token port) s) (fun t =>
      { x with
        cur := some { num := x.count, port := port, since := now s, delayPs := delayOf s port, stsMin := paramW s 0x0511, fpMax := paramW s 0x0512 },
        count := x.count + 1, plan := x.plan.tail, sts := x.sts + 128 } ∈ t.uwb.sessions ∧
      t = { s with uwb := { s.uwb with sessions := t.uwb.sessions } } ∧ t.uwb.sessions.map (·.num) = s.uwb.sessions.map (·.num) ∧
      ∀ y ∈ s.uwb.sessions, y.num ≠ x.num → y ∈ t.uwb.sessions)) ∧
  (sessOf s token = some x → x.cur = some r → r.resp = false → Completes (exec (.uwbResponseReceived token q fp tr tp ph) s) (fun t =>
    { x with cur := some { r with resp := true, quality := min 255 q, fpPs := fp, tround1 := tr, treply2 := tp, phase := ph } } ∈ t.uwb.sessions ∧
    t = { s with uwb := { s.uwb with sessions := t.uwb.sessions } } ∧ ∀ y ∈ s.uwb.sessions, y.num ≠ x.num → y ∈ t.uwb.sessions)) ∧
  (sessOf s token = some x → x.cur = some r → pay.length = 20 → u8 pay 0 = 0x41 → u8 pay 1 = r.num → (cmac x.kRep (pay.take 12)).take 8 = pay.drop 12 →
    Completes (exec (.uwbReportReceived token (pay ++ fcs pay)) s) (fun t =>
      { x with cur := some { r with report := some (beNat (slice pay 2 5), beNat (slice pay 7 5)) } } ∈ t.uwb.sessions ∧
      t = { s with uwb := { s.uwb with sessions := t.uwb.sessions } } ∧ ∀ y ∈ s.uwb.sessions, y.num ≠ x.num → y ∈ t.uwb.sessions)) ∧
  (sessOf s token = some x → x.cur = some r → x.plan ≠ [] →
    let u := queueOverflow 4 ovf (advanceTo (r.since + 1600) s)
    let d := roundDone u r
    let w := match clockRatio d with | some v => crystalSample token v u | none => u
    let v := updateUwb ((boundaryM .round w).onUwb (fun u => { u with turn := u.turn.tail ++ u.turn.take 1 }))
    exec (.rangingRoundEnd token ovf) s = .next (if (tokenRec v token).isNone then endRanging { x with cur := none, rounds := x.rounds ++ [d] } v
      else onSess x.num (fun y => { y with cur := none, rounds := x.rounds ++ [d] }) v)) ∧
  (started s = true → Completes (exec .uwbSelftestFail s) (fun t => t.uwb.failed = true ∧ t.uwb.sessions = [] ∧ t.uwb.due = []))

/-- R19, R130, R279: the commands that ask for a path queue their request. R16, R18, R19, R22, R71, R279, R284: one path at a time is begun,
runs out of its deadline, and ends. What the transponder exchange is allowed (110 ms) is the model's choice (log 93). -/
def Obligations.Paths : Prop :=
  (∀ (m : MbxCmd) (s : State) (ref : CmdRef) (u : State),
  (begun 0x0600 m s = some (ref, u) → m.payload.length = 4 → u8 m.payload 0 ≤ 2 → u8 m.payload 1 ≤ 31 → paramW u 0x0402 ≠ 0 → u.path = none →
    u.paths.length < 8 → exec (.pathStart m) s = .next (accepted ref { u with paths := u.paths ++ [{
      kind := (match u8 m.payload 0 with | 0 => .access | 1 => .start | _ => .locate), trigger := u8 m.payload 1, doors := u16 m.payload 2,
      ref := some ref, at_ := now u, coils := (wakeMap u (u8 m.payload 1)).2.2, fromHost := true }] })) ∧
  (begun 0x0600 m s = some (ref, u) → m.payload.length = 4 → u8 m.payload 0 ≤ 2 → u8 m.payload 1 ≤ 31 → paramW u 0x0402 ≠ 0 → u.path = none →
    8 ≤ u.paths.length → exec (.pathStart m) s = .next (respond ref stNoResource [] u)) ∧
  (∀ p, begun 0x0600 m s = some (ref, u) → m.payload.length = 4 → u8 m.payload 0 = 0 → u8 m.payload 1 ≤ 31 → paramW u 0x0402 ≠ 0 → u.path = some p →
    p.step = .toFlood → p.ended = false → p.req.kind = .access → exec (.pathStart m) s = .next (accepted ref (u.onPath (fun p => mergeReq {
      kind := .access, trigger := u8 m.payload 1, doors := u16 m.payload 2,
      ref := some ref, at_ := now u, coils := (wakeMap u (u8 m.payload 1)).2.2, fromHost := true } p u)))) ∧
  (begun 0x0603 m s = some (ref, u) → m.payload.length = 4 → u8 m.payload 0 = 1 ∨ u8 m.payload 0 = 2 → u8 m.payload 1 ≤ 1 → zeros m.payload 2 2 = true →
    tpDiags (u8 m.payload 0) u = 0 → u.path = none → u.paths = [] →
    exec (.transponderStart m) s = .next (accepted ref { u with paths := [{
      kind := .transponder, ref := some ref, at_ := now u, fromHost := true, port := u8 m.payload 0, identOnly := u8 m.payload 1 = 1 }] })) ∧
  (begun 0x0603 m s = some (ref, u) → m.payload.length = 4 → u8 m.payload 0 = 1 ∨ u8 m.payload 0 = 2 → u8 m.payload 1 ≤ 1 → zeros m.payload 2 2 = true →
    tpDiags (u8 m.payload 0) u = 0 → u.path ≠ none ∨ u.paths ≠ [] → exec (.transponderStart m) s = .next (respond ref stBusy [] u))) ∧
  (∀ (r : PathReq) (p : Path) (s w : State),
  (awake s = true → s.path = none → riding s = false → s.pair.switch_ = none → nextReq s.paths = some r →
    let b := updateUwb (boundaryM .path { s with paths := s.paths.erase r })
    newPath r b = (p, w) →
    let flood := toFloodUs r b
    let v := takeRelKeys { w with path := some p }
    (∀ d, earlyDenial v p = some d → exec .pathBegin s = .next (denyPath d v)) ∧
    (p.req.kind = .transponder → earlyDenial v p = none →
      (fits v p (flood + 110000 + 10000) = true → exec .pathBegin s = .next (addLfDuty 110 ((enterFlood v).onPath (fun p => { p with
        step := .tpCharge, since := now v })))) ∧
      (fits v p (flood + 110000 + 10000) = false → exec .pathBegin s = .next (deadlinePath v))) ∧
    (p.req.kind ≠ .transponder → earlyDenial v p = none →
      (fits v p (flood + wakeUs v + windowUs v + 5000 + tailUs v p) = true → exec .pathBegin s = .next (enterFlood v)) ∧
      (fits v p (flood + wakeUs v + windowUs v + 5000 + tailUs v p) = false → exec .pathBegin s = .next (deadlinePath v)))) ∧
  (s.path = some p → p.ended = false → exec .pathDeadlineExpiry s = .next (deadlinePath (advanceTo p.deadline s))) ∧
  (s.path = some p → p.ended = true → Completes (exec .pathEnd s) (fun t => t.path = none)) ∧
  (s.path = some p → p.ended = false → s.lf.cur = none → s.rad.tx = none →
    (∃ q, (deadlinePath s).path = some q ∧ q.ended = true ∧ q.outcome = some 2 ∧ q.denied = none ∧ q.step = .ended) ∧
    ∀ k, ∃ q, (denyPath k s).path = some q ∧ q.ended = true ∧ q.outcome = some 1 ∧ q.denied = some k ∧ q.step = .ended))

/-- R24, R209 to R213, R216, R224, R229, R302, R305, R316, R420: the response window, its slots and what is heard in them. -/
def Obligations.ResponseWindow : Prop := ∀ (p : Path) (slot idx claim syncEnd ovf : Nat) (energy sync : Bool) (body : Bytes) (off carrier temp : Int)
    (offUs : Option Int) (s v : State),
  (s.path = some p → p.ended = false → p.step = .guard → p.windowAt ≠ 0 → riding s = false → txHolds 1 s = false →
    let u := advanceTo p.windowAt (coexLead 1 (advanceTo (p.windowAt - 40) (strandReads temp s)))
    (fits u p (p.slots * twSlotUs u + 5000 + tailUs u p) = true →
      (rxOpen p.freq 1 u = (true, v) → exec (.responseWindowOpen temp) s = .next ((notifySlots 2
        ([byte p.poll, 0] ++ p.nDev ++ le48 (tide v) ++ [byte p.plan]) v).onPath (fun p => { p with step := .window, slot := 0, slotAns := false }))) ∧
      (rxOpen p.freq 1 u = (false, v) → exec (.responseWindowOpen temp) s = .next (denyPath 7 v))) ∧
    (fits u p (p.slots * twSlotUs u + 5000 + tailUs u p) = false → exec (.responseWindowOpen temp) s = .next (deadlinePath u))) ∧
  (s.path = some p → p.step = .window → p.ended = false →
    let u := packetBoundary (queueOverflow 3 ovf (advanceTo (p.windowAt + (p.slot + 1) * twSlotUs s) s))
    let r := if sync then rxFrame u else u
    let w := r.onPath (fun q => { q with collided := p.collided || (!p.slotAns && (energy || sync)), slot := p.slot + 1, slotAns := false })
    (chanOf r p.freq = none → exec (.slotEnd energy sync ovf) s = .next (denyPath 7 r)) ∧
    (chanOf r p.freq ≠ none → param r 0x0405 ≠ 1 →
      (p.slot + 1 < p.slots → exec (.slotEnd energy sync ovf) s = .next w) ∧
      (p.slots ≤ p.slot + 1 → exec (.slotEnd energy sync ovf) s = .next (serveTx (windowEnd w))))) ∧
  (s.path = some p → p.step = .window → p.ended = false → slot = p.slot → body.length = 32 → u8 body 0 = 0x11 → body.getD 28 0 = pollByte p.poll slot →
    let r := rxFrame s
    r.path = some p → 1 ≤ u8 body 1 → u8 body 1 ≤ 3 → u8 body 1 ≤ p.version → zeros body 29 3 = true → tokenOf r (beNat (slice body 2 4)) = some idx →
    slotFor r (beNat (slice body 2 4)) p.nDev = slot → bitSet (u8 ((tokenRec r idx).getD []) 1) 2 = false →
    min (tokVersion r idx) p.version ≤ u8 body 1 → tokCounter r idx < beNat (slice body 14 4) →
    Completes (exec (.answerReceived slot body off carrier) s) (fun t => ∃ (q : Path) (a : Ans), t.path = some q ∧
      t.rad = r.rad ∧ t.lf = r.lf ∧ t.rel = r.rel ∧ t.zon = r.zon ∧ t.store = r.store ∧
      q.answers = p.answers.filter (fun x => x.idx ≠ idx) ++ [a] ∧ a.idx = idx ∧ a.counter = beNat (slice body 14 4) ∧
      a.nTok = slice body 6 8 ∧ a.nDev = p.nDev ∧ a.version = u8 body 1 ∧ a.offNs = off ∧ q.slotAns = true ∧ q.collided = p.collided)) ∧
  (s.path = some p → p.step = .window → p.ended = false → slot = p.slot → body.length ≠ 32 → (rxFrame s).path = some p →
    exec (.answerReceived slot body off carrier) s = .next { rxFrame s with path := some { p with collided := true, slotAns := true } }) ∧
  (body ≠ [] → body.length ≤ 240 → halted s = false → running s = true → u8 body 0 ∉ [0x11, 0x12, 0x13] → s.path = none →
    claimant s (u8 body 0) = some claim → offerFrame claim body 0xFF syncEnd offUs s = (true, v) → v.ext.step = none →
    exec (.pluginFrameReceived body syncEnd offUs) s = .next v)

/-- R15, R194, R219: a path's authentication and its decision. R279 to R283, Table 11-6: the transponder exchange. -/
def Obligations.PathAuthentication : Prop :=
  (∀ (p : Path) (a : Ans) (k body : Bytes) (off : Int) (s : State),
  (s.path = some p → p.cur = some a → p.step = .challenge → p.ended = false → p.cDev ≠ [] → body.length = 10 → u8 body 0 = 0x12 →
    body.getD 1 0 = pollByte a.poll a.slot → tokenKey s a.idx = some k →
    (proofs (sessionKey k a) (transcript (param (rxFrame s) 0x0402) a p.cDev)).2 = body.drop 2 →
    exec (.proofReceived body off) s = .next (nextAuth (authenticated a (some (sessionKey k a)) off a.version a.slot (rxFrame s)))) ∧
  (s.path = some p → p.cur = some a → p.step = .challenge → p.ended = false → p.cDev ≠ [] → body.length = 10 → u8 body 0 = 0x12 →
    body.getD 1 0 = pollByte a.poll a.slot → tokenKey s a.idx = some k →
    (proofs (sessionKey k a) (transcript (param (rxFrame s) 0x0402) a p.cDev)).2 ≠ body.drop 2 →
    exec (.proofReceived body off) s = .next (nextAuth (emit evTokenAuthFail 1 (le16 a.idx ++ [1]) (rxFrame s)))) ∧
  (s.path = some p → p.cur = some a → p.step = .challenge → p.ended = false → p.cDev ≠ [] → p.stepEnd ≠ 0 → (tokenKey s a.idx).isSome = true → riding s = false → p.repeated = true →
    exec .proofTimeout s = .next (nextAuth (emit evTokenAuthFail 1 (le16 a.idx ++ [2]) (advanceTo p.stepEnd s)))) ∧
  (s.path = some p → p.cur = some a → p.step = .challenge → p.ended = false → p.cDev ≠ [] → p.stepEnd ≠ 0 → (tokenKey s a.idx).isSome = true → riding s = false → p.repeated = false →
    fits (advanceTo p.stepEnd s) p (5000 + tailUs (advanceTo p.stepEnd s) p) = true →
    exec .proofTimeout s = .next (transmitChallenge a p.cDev p.pDev ((advanceTo p.stepEnd s).onPath (fun p => { p with repeated := true })))) ∧
  (s.path = some p → p.ended = false → pathSettled p = true → riding s = false → fits s p (1000 + signalUs s p) = true →
    exec .pathZoneDecision s = .next (decidePath s)) ∧
  (s.path = some p → p.ended = false → pathSettled p = true → riding s = false → fits s p (1000 + signalUs s p) = false →
    exec .pathZoneDecision s = .next (deadlinePath s))) ∧
  (∀ (p : Path) (ma idx : Nat) (frame k : Bytes) (s : State),
  (tpAt .tpCharge s = some p → ma < 20 →
    exec (.tpOpenCheck ma) s = .next (denyPath 12 (tpFault p.req.port 3 false (advanceTo (p.since + 2000) s)))) ∧
  (tpAt .tpCharge s = some p → 20 ≤ ma → Completes (exec (.tpOpenCheck ma) s) (fun t => t = s)) ∧
  (tpAt .tpCharge s = some p → Completes (exec .tpChargeEnd s) (fun t =>
    let e := max s.clk.base (p.since + 50000)
    t.path = some { p with step := .tpIdent, stepEnd := e + 1000, since := e } ∧ t.clk.base = e ∧ t.lf = { s.lf with lastEnd := e })) ∧
  (tpAt .tpIdent s = some p → frame.length = 12 → u8 frame 0 = 0x7E → crc16 0x1021 0xFFFF (slice frame 1 9) = beNat (slice frame 10 2) →
    tokenOf s (beNat (slice frame 1 4)) = some idx → p.req.identOnly = false → bitSet (u8 ((tokenRec s idx).getD []) 1) 1 = true →
    tokCounter s idx < beNat (slice frame 5 4) → exec (.tpIdentReceived frame) s = .next (tpChallenge (s.onPath (fun p => { p with
      tpIdx := some idx, tpId := beNat (slice frame 1 4), tpCounter := beNat (slice frame 5 4) })))) ∧
  (tpAt .tpIdent s = some p → frame.length ≠ 12 → exec (.tpIdentReceived frame) s = .next (denyPath 15 s)) ∧
  (tpAt .tpResponse s = some p → fits s p 10000 = false → exec (.tpResponseReceived frame) s = .next (deadlinePath s)) ∧
  (tpAt .tpResponse s = some p → fits s p 10000 = true → p.tpIdx = some idx → frame.length = 11 → u8 frame 0 = 0x7E →
    crc16 0x1021 0xFFFF (slice frame 1 8) = beNat (slice frame 9 2) → tokenKey s idx = some k →
    (cmac k (8 :: beBytes 4 p.tpId ++ beBytes 4 p.tpCounter ++ p.cReq)).take 8 = slice frame 1 8 →
    exec (.tpResponseReceived frame) s = .next ((authenticated { idx := idx, id := p.tpId, counter := p.tpCounter, version := 3 } none 0 3 0xFF s).onPath
      (fun p => if p.ended then p else { p with step := .commitRange }))) ∧
  (tpAt .tpIdent s = some p → exec .tpSyncTimeout s = .next (denyPath 15 (advanceTo p.stepEnd s))) ∧
  (tpAt .tpResponse s = some p → exec .tpSyncTimeout s = .next (denyPath 15
    (emit evTokenAuthFail 1 (le16 (p.tpIdx.getD 0xFFFF) ++ [2]) (advanceTo p.stepEnd s)))))

/-- R134, R258, R262, R265: the commands of sessions and door records. -/
def Obligations.SessionCommands : Prop := ∀ (m : MbxCmd) (s : State) (ref : CmdRef) (u : State),
  (begun 0x0601 m s = some (ref, u) → m.payload = [0xFF, 0xFF, 0, 0] → exec (.sessionEnd m) s = .next (reply ref [] (closeAll 3 (some ref.tag) u))) ∧
  (begun 0x0601 m s = some (ref, u) → m.payload.length = 4 → zeros m.payload 2 2 = true → u16 m.payload 0 ≠ 0xFFFF → u.rel.start = none →
    (closeAccess (u16 m.payload 0) 3 (some ref.tag) u).rel.start = none ∧ exec (.sessionEnd m) s = .next (reply ref [] (closeAccess (u16 m.payload 0) 3 (some ref.tag) u))) ∧
  (begun 0x0602 m s = some (ref, u) → m.payload = [] → ∃ e : Bytes, e.length = 12 * (u.rel.access.length + u.rel.start.toList.length) ∧
    exec (.sessionStatus m) s = .next (reply ref ([byte (u.rel.access.length + u.rel.start.toList.length), 0] ++ e) u)) ∧
  (begun 0x0604 m s = some (ref, u) → m.payload = [] → exec (.startWithdraw m) s = .next (reply ref [] (closeStart 3 (some ref.tag) u))) ∧
  (begun 0x0605 m s = some (ref, u) → m.payload.length = 4 → u8 m.payload 1 = 0 → u8 m.payload 0 ≤ 15 → zeros m.payload 2 2 = true →
    exec (.doorMapWrite m) s = .next (queueJob { items := [.record 0x0022 (u8 m.payload 0) []], after := .reply ref } u)) ∧
  (begun 0x0605 m s = some (ref, u) → m.payload.length = 20 → u8 m.payload 1 = 1 → u8 m.payload 0 ≤ 15 → zeros m.payload 2 2 = true →
    doorFieldsOk u (m.payload.drop 4) = true →
    distinct (canIdents u u.par.written (doorBuses u ++ (if bitSet (u8 (m.payload.drop 4) 4) 0 then [u8 (m.payload.drop 4) 5] else []))) = true →
    exec (.doorMapWrite m) s = .next (queueJob { items := [.record 0x0022 (u8 m.payload 0) (m.payload.drop 4)], after := .reply ref } u))

/-- R261, R262, R265, R274: what ends in its time: a door, a session, a pulse; and the repetition and abandonment of release frames. R265,
R266, R268, R269, R275, R276, Table 11-4: ENGINE_STATUS, the running input and the start outputs. A version byte of 0 is read as 1 (the
model's choice, log 102). -/
def Obligations.Releases : Prop :=
  (∀ (door pin bus : Nat) (a : Access) (d : DoorHold) (t0 : Start) (f : CanFrame) (q : Nat × Nat) (s : State),
  (s.rel.access.find? (fun a => a.doors.any (fun d => d.door == door)) = some a → a.doors.find? (fun d => d.door == door) = some d →
    exec (.doorTimeout door false) s = .next (dropDoor door (advanceTo d.due s)) ∧
    exec (.doorTimeout door true) s = .next (closeAccess a.id 0 none (advanceTo d.due s))) ∧
  (s.rel.start = some t0 → Completes (exec .startTimeout s) (fun t => t.rel.start = none ∧ t.rel.startA = false ∧ t.rel.startB = false ∧
    t.rel.access = s.rel.access ∧ t.clk.base = max s.clk.base t0.due)) ∧
  (s.rel.pulses.find? (fun p => p.1 == pin) = some q → s.rel.access.all (fun a => a.doors.all (fun d => u8 d.record 8 != pin)) = true → Completes (exec (.gpioPulseEnd pin) s) (fun t =>
    t.rel.pulses = s.rel.pulses.filter (fun q => q.1 ≠ pin) ∧ t.bus.pins = modAt s.bus.pins pin (fun p => { p with out := false, level := true }) ∧
    t.clk.base = max s.clk.base q.2)) ∧
  (s.rel.start = some t0 → exec .releaseRepeat s = .next ((startFrame true (advanceTo t0.nextRepeat s)).onRel (fun r => { r with
    start := r.start.map (fun t => { t with nextRepeat := t.nextRepeat + 1000 * t.repeatMs }) }))) ∧
  (s.rel.start = some t0 → t0.bus = 0 → startFrame true s = s) ∧
  (running s = true → 1 ≤ bus → bus ≤ 2 → (s.bus.canTx ++ s.bus.canWait).find? (fun f => f.bus == bus && f.rel) = some f →
    exec (.releaseFrameTimeout bus) s = .next (busDiag (bus - 1) 5 false (advanceTo (f.at_ + 5000) (s.onBus (fun b =>
      b.canWait.foldl (fun b x => if x = f then b else canPut x b) { b with canTx := b.canTx.erase f, canWait := [] }))))) ∧
  (f.bus = bus → f.rel = true → canUp s bus = true → now s ≤ f.at_ + 5000 → s.bus.canTx = [f] → s.bus.canWait = [] →
    (canPass s).bus.canTx = [] ∧ (canPass s).rel.lastSent = some (max (relFresh f) (s.rel.lastSent.getD 0)))) ∧
  (∀ (f k : Bytes) (lo hi kind bus : Nat) (s : State),
  (running s = true → s.rel.start = none → param s 0x0606 = bus → bus = 1 ∨ bus = 2 → canUp s bus = true → f.length ≠ 16 →
    Completes (exec (.engineStatus f) s) (fun t => t = s.onBus (fun b => { b with rejected :=
      if bus = 1 then (sat 255 (b.rejected.1 + 1), b.rejected.2) else (b.rejected.1, sat 255 (b.rejected.2 + 1)) }))) ∧
  (running s = true → param s 0x0606 ≠ 0 → canUp s (param s 0x0606) = true → s.rel.start = none → vaultKey s 3 = some k → s.rel.firstSent = some lo →
    s.rel.lastSent = some hi → f.length = 16 → u8 f 1 ≤ 3 → zeros f 6 2 = true → lo ≤ beNat (slice f 2 4) → beNat (slice f 2 4) ≤ hi →
    (cmac k (beBytes 4 (param s 0x0608) ++ f.take 8)).take 8 = f.drop 8 →
    let u := s.onRel (fun r => { r with engVer := some (max 1 (u8 f 0)), engine := (r.engine.1, bitSet (u8 f 1) 1) })
    let v := if ignInput u = 0 then ignitionReads (bitSet (u8 f 1) 1) u else u
    (runInput v ≠ 0 → exec (.engineStatus f) s = .next v) ∧
    (runInput v = 0 → bitSet (u8 f 1) 0 = false → exec (.engineStatus f) s = .next (v.onRel (fun r => { r with engine := (false, r.engine.2) }))) ∧
    (runInput v = 0 → bitSet (u8 f 1) 0 = true → v.rel.start = none → exec (.engineStatus f) s = .next (runningConfirmed v))) ∧
  ((contact s (runInput s)).asserted = true → runInput s ≠ 0 → running s = true →
    exec .runInputConfirmed s = .next (runningConfirmed (advanceTo ((contact s (runInput s)).since + 100000) s))) ∧
  (drives s = true → awake s = true → s.rel.startA = false → s.rel.startB = false → s.rel.diagA = (0, false) → s.rel.diagB = (0, false) →
    Completes (exec (.startOutputCheck true false false true) s) (fun t => t.rel.diagA = (4, false) ∧ t.rel.diagB = (8, false) ∧
      t.rel.startA = false ∧ t.rel.startB = false)) ∧
  (drives s = false → exec (.startOutputCheck true false false true) s = .next s) ∧
  (drives s = true → awake s = true ∨ (started s = true ∧ s.pwr.state = .stranded) → s.rel.startA = false → s.rel.startB = false → s.rel.diagA = (0, false) →
    s.rel.diagB = (0, false) → exec (.startOutputCheck false false false false) s =
      .next ((advanceTo s.rel.checkAt s).onRel (fun r => { r with checkAt := max s.clk.base s.rel.checkAt + 1000000 }))) ∧
  (running s = true → s.rel.startA = true → kind ≠ 3 → Completes (exec (.startOutputFault 0 kind) s) (fun t => t.rel.startA = false ∧
    t.rel.diagA.1 = setBit s.rel.diagA.1 1 ∧ t.rel.startB = s.rel.startB ∧ t.rel.start = s.rel.start.map (fun t => { t with aKilled := true }))) ∧
  (running s = true → s.rel.startB = true → kind ≠ 3 → Completes (exec (.startOutputFault 1 kind) s) (fun t => t.rel.startB = false ∧
    t.rel.diagB.1 = setBit s.rel.diagB.1 2 ∧ t.rel.startA = s.rel.startA ∧ t.rel.start = s.rel.start.map (fun t => { t with bKilled := true }))) ∧
  (running s = true → s.rel.startA = true → Completes (exec (.startOutputFault 0 3) s) (fun t => t.rel.startA = true ∧
    t.rel.diagA.1 = setBit s.rel.diagA.1 3)))

/-- R287 to R289, R295, R298, R301, R306: the radio's host commands when their checks pass. R301, R302, Table 12-5: a request to transmit
that passes the three checks on a usable entry radiates at once when coexistence is off; one that fails them is refused; one made while
a packet of equal or higher precedence is sent waits for it. -/
def Obligations.RadioCommands : Prop :=
  (∀ (m : MbxCmd) (temp : Int) (st : Nat) (s : State) (ref : CmdRef) (u v : State) (reg : Bytes),
  (begun 0x0702 m s = some (ref, u) → lifecycle u = .factory → m.payload.length = 416 → regOk m.payload = true →
    exec (.regRecordWrite m) s = .next (queueJob {
      items := [.record 0x0050 0 (m.payload ++ [if regLocked u then 1 else 0])], after := .regRecord ref } u)) ∧
  (begun 0x0702 m s = some (ref, u) → lifecycle u = .provisioned → m.payload.length = 416 → regOk m.payload = true → regLocked u = true →
    exec (.regRecordWrite m) s = .next (respond ref stDenied [] u)) ∧
  (begun 0x0703 m s = some (ref, u) → m.payload = [] → recBody u 0x0050 0 = some reg →
    exec (.regRecordRead m) s = .next (reply ref (reg.take 416) u)) ∧
  (begun 0x0701 m s = some (ref, u) → m.payload.length = 128 → powerTableOk m.payload = true →
    exec (.powerTableWrite m) s = .next (queueJob { items := [.record 0x0051 0 m.payload], after := .powerTable ref } u)) ∧
  (begun 0x0700 m s = some (ref, u) → m.payload = [] → ∃ e : Bytes, e.length = 2 ∧ exec (.radioStatus m) s = .next (reply ref
    (le16 (((u.rad.cal.map (·.chan)).filter (calUsable u)).length) ++ [byte (tunerCode u), byte u.rad.vswr] ++ le32 (radDutyUsed u) ++ e ++
      [byte (if (recBody u 0x0050 0).isNone then 0 else if regLocked u then 2 else 1), 0]) u)) ∧
  (begun 0x0704 m s = some (ref, u) → m.payload.length = 4 → u16 m.payload 0 ≤ 255 → 1 ≤ u16 m.payload 2 → u16 m.payload 2 ≤ 256 →
    u.rad.reg = some reg → u.rad.calRef = none →
    let want := (List.range 256).filter (fun n => u16 m.payload 0 ≤ n && n < u16 m.payload 0 + u16 m.payload 2 && maskAllows reg n)
    want ≠ [] → exec (.radioCalRun m) s = .next (accepted ref (u.onRad (fun r => { r with calReq := want, calRef := some ref })))) ∧
  (begun 0x0705 m s = some (ref, u) → m.payload.length = 8 → 300000 ≤ u32 m.payload 0 → u32 m.payload 0 ≤ 960000 → u8 m.payload 4 ≤ 31 →
    u8 m.payload 5 ≤ 1 → 1 ≤ u16 m.payload 6 → u16 m.payload 6 ≤ 1000 → u.path = none → u.zon.poll = none → u.rad.tx = none → u.soundRun = none →
    txRequest {
      freq := u32 m.payload 0, asked := u8 m.payload 4, airUs := 1000 * u16 m.payload 6, prec := 3, ref := some ref,
      modulated := u8 m.payload 5 = 1 } (strandReads temp u) = (st, v) →
    exec (.radioTestTx m temp) s = .next (if st = stOk ∨ st = stAccepted then accepted ref v else respond ref st [] v))) ∧
  (∀ (freq power airUs prec n e : Nat) (temp : Int) (x : Tx) (s : State),
  let v := strandReads temp s
  (running s = true → radChecks freq power airUs prec v = (some (n, e), v) → s.rad.tx = none → windowOpen s = false → s.zon.poll = none →
    s.rad.run = none → s.pair.role ≠ .lee →
    riding s = false → s.pwr.state = .flood → calUsable v n = true → param s 0x0704 ≠ 1 →
    Completes (exec (.radioTxRequest freq power airUs prec temp) s) (fun t => ∃ x, t.rad.tx = some x ∧ x.freq = freq ∧ x.asked = power ∧ x.airUs = airUs ∧
      x.prec = prec ∧ x.chan = n ∧ x.entry = e ∧ x.radiating = true ∧ x.waiting = false ∧ x.since = now s ∧
      t.rad.lastTx = stOk ∧ t.rad.locked = some n ∧ t.rad.temp = temp ∧ t = { s with rad := t.rad })) ∧
  (running s = true → radChecks freq power airUs prec v = (some (n, e), v) → s.rad.tx = some x → x.prec ≤ prec → s.zon.poll = none →
    s.rad.run = none → s.pair.role ≠ .lee → riding s = false → s.pwr.state = .flood →
    Completes (exec (.radioTxRequest freq power airUs prec temp) s) (fun t => t = v.onRad (fun r => { r with
      waits := r.waits ++ [{ freq := freq, asked := power, airUs := airUs, prec := prec }] }))) ∧
  (running s = true → chanOf s freq = none → Completes (exec (.radioTxRequest freq power airUs prec temp) s) (fun t =>
    t = v.onRad (fun r => { r with lastTx := stRegulatory }))))

/-- R293, R296, R298: a calibration's steps, its stored entry, and a hop lock that fails. R303, R307, R311, R313 to R315: a transmission's
end, the tuner, the coexistence wires and the duty account. -/
def Obligations.RadioWork : Prop :=
  (∀ (n value chan from_ : Nat) (dc : List Nat) (temp : Int) (r : CalRun) (x : Tx) (s : State),
  (let v := strandReads temp s
   s.rad.run = none → radioGap v 70 = true → nextCal v = some n → Completes (exec (.radioBgCalStep temp) s) (fun t =>
    t = v.onRad (fun x => { x with run := some { chan := n, stepFrom := some (now s) } }))) ∧
  (s.rad.run = some r → r.stepFrom = some from_ → r.step < 4 → Completes (exec (.radioCalStepDone value dc) s) (fun t =>
    ∃ q, t.rad.run = some q ∧ q.chan = r.chan ∧ q.step = r.step + 1 ∧ q.shadow = calField r.step value dc r.shadow ∧
      t.rad.cal = s.rad.cal ∧ t.clk.base = max s.clk.base (from_ + [70, 40, 35, 23, 10].getD r.step 0))) ∧
  (s.rad.run = some r → r.stepFrom = some from_ → r.step = 4 → r.mandatory = false → Completes (exec (.radioCalStepDone value dc) s) (fun t =>
    t.rad.run = none ∧ { r.shadow with pa := value % 64, chan := r.chan, temp := s.rad.temp, at_ := max s.clk.base (from_ + 10) } ∈ t.rad.cal)) ∧
  (s.rad.locked = some chan → s.rad.tx = some x → x.chan = chan → (x.radiating = true → now s ≤ x.since + 20) → calUsable s chan = true →
    Completes (exec (.hopLockFail chan) s) (fun t =>
      t.rad.cal = s.rad.cal.filter (fun c => c.chan ≠ chan) ∧ t.rad.locked = none ∧
      t.rad.tx = some { x with radiating := false, waiting := true } ∧
      t.rad.run = some { chan := chan, mandatory := true, stepFrom := some (now s) }))) ∧
  (∀ (vswr band c st : Nat) (fwd temp : Int) (x : Tx) (s w : State),
  (s.rad.tx = some x → x.radiating = true → x.ref = none → x.probe = none →
    let u := advanceTo (x.since + x.airUs) s
    exec (.radioPacketEnd vswr fwd) s = .next (serveTx (txEnded x stOk (endTx (tunerPacket (bandOf u x.chan) vswr (paMeasured x fwd u)))))) ∧
  (∀ b, s.rad.tx = some x → x.radiating = true → x.ref = none → x.probe = some b → Completes (exec (.radioPacketEnd vswr fwd) s) (fun t =>
    t = serveTx (acquired b vswr (endTx (advanceTo (x.since + x.airUs) s))))) ∧
  ((tunerOf (acquired band vswr s) band).state =
      (if s.rad.mismatch = true ∧ (tunerOf s band).state = 4 then 4 else if vswr ≤ param s 0x0706 then 1 else 3) ∧
    (tunerOf (acquired band vswr s) band).high = 0 ∧ (acquired band vswr s).rad.vswr = sat 255 vswr) ∧
  (s.rad.tx = some x → x.radiating = true → x.prec = 3 → x.ref.isSome = true →
    let u := advanceTo (x.since + x.airUs) s
    exec (.radioTestTxEnd vswr fwd) s = .next (serveTx (txEnded x stOk (endTx (tunerPacket (bandOf u x.chan) vswr (paMeasured x fwd u)))))) ∧
  (let v := strandReads temp s
   (List.range 256).find? (fun n => allowed v n && bandOf v n = band) = some c → param s 0x0707 ≠ 0 → (tunerOf s band).high ≥ 3 →
   (tunerOf s band).last = 0 → s.pair.role ≠ .lee → radioGap v 200 = true → s.rad.run = none →
   txRequest { freq := (chanFreqs (s.rad.reg.getD [])).getD c 0, asked := 0, airUs := 200, prec := 4, probe := some band } v = (st, w) →
   st = stOk ∨ st = stAccepted →
   exec (.tunerAcquire band temp) s = .next (onTuner band (fun x => { x with last := now w }) w)) ∧
  (s.rad.tx = some x → x.waiting = true → s.rad.run = none → allowed s x.chan = true →
    exec .coexGrantAssert s = .next (txGo (s.onRad (fun r => { r with grant := true })))) ∧
  (s.rad.tx = some x → x.waiting = true → s.rad.run = none → allowed s x.chan = false → exec .coexGrantAssert s = .next (serveTx (txEnded x stRegulatory
    (endTx (s.onRad (fun r => { r with grant := true, lastTx := stRegulatory })))))) ∧
  (s.rad.tx = some x → x.waiting = true → s.rad.run = none → allowed s x.chan = true → calUsable s x.chan = true → s.rad.coex.1 = true →
    Completes (exec .coexGrantAssert s) (fun t => t.rad.grant = true ∧ t.rad.lastTx = stOk ∧ t.rad.locked = some x.chan ∧
      t.rad.tx = some { x with waiting := false, radiating := true, since := now s, stage := paStageOf s x.entry, drive := driveOf s x.entry,
                               tuner := tunerCodes s (bandOf s x.chan) })) ∧
  (s.rad.tx = none → s.path = none → Completes (exec .coexGrantAssert s) (fun t => t = s.onRad (fun r => { r with grant := true }))) ∧
  (s.rad.tx = some x → x.radiating = true → param s 0x0704 = 1 → exec .coexGrantNegate s = .next (serveTx (txEnded x stBusy (endTx
    (emit evCoexAbort 0 (le32 x.freq) (s.onRad (fun r => { r with grant := false, lastTx := stBusy }))))))) ∧
  (s.rad.tx = none → Completes (exec .coexGrantNegate s) (fun t => t = s.onRad (fun r => { r with grant := false }))) ∧
  (s.rad.tx = some x → x.waiting = true → s.rad.grant = false → param s 0x0704 = 1 → s.rad.run = none → exec .coexWaitExpiry s = .next (serveTx (txEnded x
    stBusy (endTx ((advanceTo (x.since + 10 * param s 0x0705) s).onRad (fun r => { r with lastTx := stBusy })))))) ∧
  (s.pwr.state ≠ .off → exec .radioDutyBinRoll s = .next ((monoAt s.rad.binAt s).onRad (fun r => { r with
    duty := (0 :: r.duty).take 60, binAt := r.binAt + 60000000 }))))

/-- R313, R315: whatever a transmission's end runs, nothing is in the air after it and the coexistence wires are negated. -/
def Obligations.TransmissionOver : Prop := ∀ (x : Tx) (s : State), s.rad.tx = some x →
  (endTx s).rad.tx = none ∧ (endTx s).rad.coex = (false, false) ∧
  (s.rad.newTable = false → (endTx s).rad.duty = if x.radiating then
      modAt s.rad.duty 0 (· + touchedMs (max (1000 * s.rad.dutyLast) (s.clk.mono - (now s - x.since))) s.clk.mono) else s.rad.duty)

/-- R319, R322, R324, R327: the sensing commands of the host. R324, R326, R327, R483: contact inputs, WAKE_N and the buses' wakes. -/
def Obligations.SenseCommands : Prop :=
  (∀ (m : MbxCmd) (s : State) (ref : CmdRef) (u : State),
  (begun 0x0800 m s = some (ref, u) → m.payload = [] → ∃ e : Bytes, e.length = 96 ∧ exec (.senseStatus m) s = .next (reply ref e u)) ∧
  (begun 0x0802 m s = some (ref, u) → m.payload = [] → ∃ a b c : Byte,
    exec (.contactStatus m) s = .next (reply ref [a, b, c, if u.sen.wakeN then 1 else 0] u)) ∧
  (begun 0x0803 m s = some (ref, u) → m.payload.length = 4 → u16 m.payload 0 = 0 → zeros m.payload 2 2 = true →
    exec (.senseRebase m) s = .next (reply ref [] u)) ∧
  (begun 0x0803 m s = some (ref, u) → m.payload = [1, 0, 0, 0] →
    exec (.senseRebase m) s = .next (reply ref [] ((onCap 0 (fun x => { x with confirm := 0 }) u).onSen (fun x => { x with rebase := x.rebase ||| 1 })))) ∧
  (begun 0x0801 m s = some (ref, u) → m.payload.length = 16 → u8 m.payload 0 ≤ 31 → u8 m.payload 1 = 0xFF → u8 m.payload 4 = 0 → zeros m.payload 5 11 = true →
    exec (.wakeMapWrite m) s = .next (queueJob { items := [.record 0x0023 (u8 m.payload 0) (m.payload.drop 1)], after := .reply ref } u))) ∧
  (∀ (n bus : Nat) (high : Bool) (s : State),
  (watching s = true → 1 ≤ n → n ≤ 8 → bitSet (cinConfig s n) 3 = false → exec (.contactChange n high) s = .next (contactReads n high s)) ∧
  (sensing s = true → 1 ≤ n → n ≤ 8 → n ≤ s.sen.cin.length → (contact s n).asserted = true → (contact s n).stuck = false →
    Completes (exec (.stuckTimeout n) s) (fun t => (contact t n).stuck = true ∧ (contact t n).asserted = true ∧ ∀ k, 1 ≤ k → k ≠ n → contact t k = contact s k)) ∧
  (sensing s = true → s.sen.wakeN = true → s.sen.wakeStuck = false → Completes (exec (.stuckTimeout 9) s) (fun t =>
    t.sen.wakeStuck = true ∧ t.sen.cin = s.sen.cin)) ∧
  (watching s = true → s.sen.wakeN = false → exec .wakeNAssert s = .next (serveTrigger 24 (s.onSen (fun x => { x with wakeN := true, wakeFrom := now s })))) ∧
  (s.sen.wakeN = true → s.sen.wakeStuck = false → Completes (exec .wakeNNegate s) (fun t => t = s.onSen (fun x => { x with wakeN := false }))) ∧
  (s.sen.wakeN = true → s.sen.wakeStuck = true → Completes (exec .wakeNNegate s) (fun t => t.sen.wakeN = false ∧ t.sen.wakeStuck = false)) ∧
  (1 ≤ bus → bus ≤ 2 → busWakeable s = true → bitSet (param s 0x0E07 / 4 ^ (bus - 1)) 0 = true → exec (.canWake bus none) s = .next (serveTrigger (24 + bus) s)) ∧
  (1 ≤ bus → bus ≤ 2 → bitSet (param s 0x0E07 / 4 ^ (bus - 1)) 0 = false → Completes (exec (.canWake bus none) s) (fun t => t = s)) ∧
  (1 ≤ bus → bus ≤ 4 → watching s = true → exec (.linWake bus) s = .next (serveTrigger (26 + bus) s)))

/-- R319 to R323: scans, confirmations, drift and the longest touch of the capacitive channels. -/
def Obligations.Touches : Prop := ∀ (chan counts b : Nat) (s : State),
  (sensing s = true → fieldOn s = false → s.sen.rebase = 0 → param s 0x0801 = 0 → (∀ n, 1 ≤ n → n ≤ 8 → bitSet (cinConfig s n) 3 = false) →
    Completes (exec (.scan [] [] true true) s) (fun t =>
    t.pwr.state = s.pwr.state ∧ t.lf = s.lf ∧ t.store = s.store)) ∧
  (sensing s = true → fieldOn s = false → s.sen.rebase = 0 → chan < 16 → param s 0x0801 = 2 ^ chan → counts ≤ 65535 →
    (∀ n, 1 ≤ n → n ≤ 8 → bitSet (cinConfig s n) 3 = false) → capOn (boundary .scan s) chan = true →
    chan < s.sen.cap.length → (capChan s chan).base = some b → (capChan s chan).touched = false → (capChan s chan).diag = 0 →
    (capChan s chan).confirm = 0 → s.sen.guards.getD (chan / 8) (false, 0) = (false, 0) → 0 < touchTh s chan → b + touchTh s chan ≤ counts →
    param s 0x0808 = 0 → 1 ≤ param s 0x0807 → param s 0x0804 ≠ 1 → Completes (exec (.scan [⟨chan, some counts⟩] [] true true) s) (fun t =>
      (capChan t chan).confirm = 1 ∧ (capChan t chan).last = counts ∧ (capChan t chan).base = some b ∧ (capChan t chan).touched = false)) ∧
  (sensing s = true → (capChan s chan).confirm ≠ 0 → capOn s chan = true → fieldOn s = false → s.pwr.state ≠ .neap → (capChan s chan).base = some b →
    chan < s.sen.cap.length → counts ≤ 65535 → counts < b + touchTh s chan → Completes (exec (.confirmConversion chan counts) s) (fun t =>
      capChan t chan = { capChan s chan with confirm := 0, last := counts } ∧ t.clk.base = max s.clk.base (max (capChan s chan).confAt s.lf.lastEnd + 1120))) ∧
  (sensing s = true → (capChan s chan).confirm ≠ 0 → capOn s chan = true → fieldOn s = false → s.pwr.state ≠ .neap → (capChan s chan).base = some b →
    counts ≤ 65535 → b + touchTh s chan ≤ counts → param s 0x0804 ≤ (capChan s chan).confirm + 1 → exec (.confirmConversion chan counts) s = .next
      (confirmTouch chan counts (onCap chan (fun x => { x with last := counts }) (dueAt (max (capChan s chan).confAt s.lf.lastEnd + 1120) s)))) ∧
  (sensing s = true → capOn s chan = true → (capChan s chan).base = some b → chan < s.sen.cap.length → (capChan s chan).touched = false →
    (capChan s chan).diag = 0 → b < (capChan s chan).last → 2 * ((capChan s chan).last - b) < touchTh s chan → Completes (exec (.baselineDrift chan) s) (fun t =>
      (capChan t chan).base = some (b + 1))) ∧
  (sensing s = true → capOn s chan = true → (capChan s chan).base = some b → chan < s.sen.cap.length → (capChan s chan).touched = false →
    (capChan s chan).diag = 0 → (capChan s chan).last < b → 2 * (b - (capChan s chan).last) < touchTh s chan → Completes (exec (.baselineDrift chan) s) (fun t =>
      (capChan t chan).base = some (b - 1))) ∧
  (sensing s = true → (capChan s chan).touched = true → chan < s.sen.cap.length → Completes (exec (.maxTouchExpiry chan) s) (fun t =>
    (capChan t chan).touched = false ∧ (capChan t chan).base = none ∧ ∀ k, k ≠ chan → capChan t k = capChan s k))

/-- R136, R137, R339, R341, R354: staging and the commands that begin a verification. R60, R346, R347, R350, R469, R471: what the host reads
of objects, the log, the store and the sensors, and the tamper map it writes. -/
def Obligations.SecurityCommands : Prop :=
  (∀ (m : MbxCmd) (s : State) (ref : CmdRef) (u : State),
  (begun 0x0A00 m s = some (ref, u) → 9 ≤ m.payload.length → m.payload.length ≤ 1024 → u8 m.payload 0 = 3 → zeros m.payload 1 3 = true →
    u.pwr.recovery = false → u.sec.verify = none → u32 m.payload 4 = 0 →
    exec (.stageWrite m) s = .next (reply ref [] (u.onSec (fun x => { x with stage3 := m.payload.drop 8 })))) ∧
  (begun 0x0A00 m s = some (ref, u) → 9 ≤ m.payload.length → m.payload.length ≤ 1024 → u8 m.payload 0 = 3 → zeros m.payload 1 3 = true →
    u.pwr.recovery = false → u.sec.verify = none → u32 m.payload 4 = u.sec.stage3.length → 0 < u.sec.stage3.length →
    u.sec.stage3.length + (m.payload.drop 8).length ≤ 65536 →
    exec (.stageWrite m) s = .next (reply ref [] (u.onSec (fun x => { x with stage3 := x.stage3 ++ m.payload.drop 8 })))) ∧
  (begun 0x0A01 m s = some (ref, u) → m.payload = [] → u.pwr.state ≠ .breach → pinnedBusy u = false → u.sec.sign = none → u.sec.verify = none →
    exec (.fwActivate m) s = .next (accepted ref (u.onSec (fun x => { x with verify := some (.firmware, ref) })))) ∧
  (begun 0x0A02 m s = some (ref, u) → m.payload.length = 4 → 1 ≤ u8 m.payload 0 → u8 m.payload 0 ≤ 4 → zeros m.payload 1 3 = true →
    (u.pwr.state ≠ .breach ∨ u8 m.payload 0 = 3) → (u8 m.payload 0 ≠ 3 ∨ u.sec.breachFuses < 64) → pinnedBusy u = false → u.sec.sign = none →
    u.sec.verify = none → exec (.grantApply m) s = .next (accepted ref (u.onSec (fun x => { x with verify := some (.grant (u8 m.payload 0), ref) })))) ∧
  (begun 0x0A02 m s = some (ref, u) → m.payload = [3, 0, 0, 0] → 64 ≤ u.sec.breachFuses → exec (.grantApply m) s = .next (respond ref stDenied [] u)) ∧
  (begun 0x0A03 m s = some (ref, u) → m.payload.length = 32 → pinnedBusy u = false → u.sec.sign = none → u.sec.verify = none → (vaultKey u 0).isSome = true →
    exec (.attest m) s = .next (accepted ref (u.onSec (fun x => { x with
      sign := some (.attest ref (attestObject m.payload u)), attests := x.attests + 1 })))) ∧
  (begun 0x0902 m s = some (ref, u) → m.payload = [] → pinnedBusy u = false → u.sec.sign = none → u.sec.verify = none → (vaultKey u 0).isSome = true →
    exec (.logCheckpoint m) s = .next (accepted ref (beginCheckpoint (some ref) u)))) ∧
  (∀ (m : MbxCmd) (s : State) (ref : CmdRef) (u : State) (o : Bytes),
  (begun 0x0A04 m s = some (ref, u) → m.payload.length = 14 → u8 m.payload 0 = 1 → zeros m.payload 1 7 = true → 1 ≤ u16 m.payload 12 →
    u16 m.payload 12 ≤ 1000 → u.sec.report = some o → u32 m.payload 8 < o.length →
    let d := slice o (u32 m.payload 8) (u16 m.payload 12)
    exec (.objectRead m) s = .next (reply ref (le16 d.length ++ le32 o.length ++ d) u)) ∧
  (begun 0x0901 m s = some (ref, u) → m.payload.length = 8 → u8 m.payload 4 = 1 → zeros m.payload 5 3 = true → u32 m.payload 0 < u.sec.logNext →
    exec (.logRead m) s = .next (reply ref ([1, 0] ++ le32 (u32 m.payload 0) ++ (logFind (u32 m.payload 0) u).getD (List.replicate 32 0xFF)) u)) ∧
  (begun 0x0903 m s = some (ref, u) → m.payload = [] → u.pwr.hold = some (0, 0) → exec (.storeStatus m) s = .next (reply ref (le32 (eUsable u) ++ [0, 0, 0, 0] ++
    le32 (u.store.pages.foldl (fun m p => max m p.erases) 0) ++ le16 u.store.deferrals ++ [byte (u.store.pages.filter (·.retired)).length, 0]) u)) ∧
  (begun 0x0903 m s = some (ref, u) → m.payload = [] → ∃ c r : Nat, exec (.storeStatus m) s = .next (reply ref (le32 (eUsable u) ++ le16 c ++ le16 r ++
    le32 (u.store.pages.foldl (fun m p => max m p.erases) 0) ++ le16 u.store.deferrals ++ [byte (u.store.pages.filter (·.retired)).length, 0]) u)) ∧
  (begun 0x0A05 m s = some (ref, u) → m.payload = [] →
    exec (.tamperStatus m) s = .next (reply ref (le16 u.sec.tripped ++ le16 (armedMask u) ++ [byte u.sec.lastResp, 0]) u)) ∧
  (∀ b, begun 0x0A06 m s = some (ref, u) → m.payload.length = 4 → u8 m.payload 0 ≤ 11 → u8 m.payload 1 ≤ 2 → zeros m.payload 2 2 = true →
    u.pwr.state ≠ .breach → lifecycle u = .factory → newestBody u 0x0060 0 = some b →
    exec (.tamperMapWrite m) s = .next (queueJob { items := [.record 0x0060 0 (b.set (u8 m.payload 0) (byte (u8 m.payload 1)))], after := .reply ref } u)) ∧
  (∀ b, begun 0x0A06 m s = some (ref, u) → m.payload.length = 4 → u8 m.payload 0 ≤ 11 → u8 m.payload 1 ≤ 2 → zeros m.payload 2 2 = true →
    u.pwr.state ≠ .breach → lifecycle u = .field → newestBody u 0x0060 0 = some b → u8 m.payload 1 ≤ u8 b (u8 m.payload 0) →
    exec (.tamperMapWrite m) s = .next (respond ref stDenied [] u)))

/-- R339, R341, R346, R367, R471: the ends of a verification and of a signature. -/
def Obligations.SecurityEnds : Prop := ∀ (ref : CmdRef) (what : VerifyFor) (o : Bytes) (r : Option CmdRef) (s : State),
  (s.sec.verify = some (what, ref) → s.rng.waiting = [] → exec .envelopeVerifyDone s = .next (applyVerified what ref s)) ∧
  (s.sec.verify = some (.firmware, ref) → s.rng.waiting = [] → s.sec.active < 2 → s.sec.banks.length = 2 → s.sec.stage1 = [] →
    Completes (exec .envelopeVerifyDone s) (fun t => t.sec.verify = none ∧ (t.sec.banks.getD (1 - s.sec.active) {}).pending = false ∧
      (t.sec.banks.getD (1 - s.sec.active) {}).present = false ∧ t.sec.banks.getD s.sec.active {} = s.sec.banks.getD s.sec.active {})) ∧
  (s.sec.ckptDue = some r → started s = true → s.sec.sign = none → s.sec.verify = none → (vaultKey s 0).isSome = true →
    exec .checkpointBegin s = .next (beginCheckpoint r s) ∧ (beginCheckpoint r s).sec.ckptDue = none) ∧
  (s.sec.sign = some (.attest ref o) → s.pair.reportDue = none → Completes (exec .signatureDone s) (fun t =>
    t.sec.sign = none ∧ t.sec.report = some (o ++ Config.slhSign ((vaultKey s 0).getD []) Config.slhContext (o.take 128)))) ∧
  (s.sec.fwRetry = false → s.sec.famRetry = [] → Completes (exec .counterWriteRetry s) (fun t => t.store = s.store)) ∧
  (s.sec.fwRetry = true → s.sec.famRetry = [] → Completes (exec .counterWriteRetry s) (fun t => t.sec.fwRetry = false ∧
    t.store.queue = s.store.queue ++ [{ cls := 3, items := [.ctr 0x0201 (max (runningBank s).secVersion (fwCounter s))], after := .fwCounter }]))

/-- R339: an envelope of another kind, another device's serial or a signer that is not permitted is refused whatever else it holds. -/
def Obligations.EnvelopeChecks : Prop := ∀ (s : State) (what : VerifyFor) (e : Bytes),
  (envCheck s what e = none → envFormOk e = true ∧ u16 e 0 = what.kind ∧ envSigned (signerKey s (u8 e 3)) e = true ∧ seqOk s what e = true) ∧
  (envFormOk e = true → u16 e 0 ≠ what.kind → envCheck s what e = some (2, stBadParam)) ∧
  (∀ n, what = .grant n → envFormOk e = true → u16 e 0 = what.kind → slice e 8 16 ≠ Config.serial → envCheck s what e = some (3, stAuthFail)) ∧
  (what = .firmware → envFormOk e = true → u16 e 0 = what.kind → zeros e 8 16 = true → u8 e 3 ≠ 1 → envCheck s what e = some (4, stAuthFail))

/-- R43, R345, R347 to R352, R355, R401, R465: sensors, strikes, SERVICE and the debug port. -/
def Obligations.TamperAndDebug : Prop := ∀ (k : Nat) (g : Nat × Nat) (s : State),
  (k ≤ 11 → s.pwr.phase = .ready → s.pwr.state ≠ .neap → s.pwr.neapEntry = false → exec (.tamperTrip k) s = .next (tamperTrips k s)) ∧
  (k ≤ 11 → s.pwr.phase = .ready → s.pwr.state = .neap ∨ s.pwr.neapEntry = true → bitSet neapSensors k = true → bitSet (armedMask s) k = true →
    bitSet s.sec.reads k = false → bitSet s.sec.heldTripped k = false →
    exec (.tamperTrip k) s = .next (tamperTrips k (leaveNeap (some 0x43) false s))) ∧
  (k ≤ 11 → s.pwr.phase = .ready → s.pwr.state = .neap → bitSet neapSensors k = false → Completes (exec (.tamperTrip k) s) (fun t => t = s)) ∧
  (k ≤ 11 → s.pwr.phase = .ready → s.pwr.state = .slack → s.pwr.neapEntry = false → bitSet s.sec.reads k = false → bitSet s.sec.heldTripped k = false →
    bitSet (armedMask s) k = true → s.sec.chatter = [] → tamperResp s k = 0 → Completes (exec (.tamperTrip k) s) (fun t =>
      t.sec.reads = setBit s.sec.reads k ∧ t.sec.tripped = setBit s.sec.tripped k ∧ t.sec.lastResp = 0 ∧ t.pwr.state = .slack)) ∧
  (bitSet s.sec.reads k = true → Completes (exec (.tamperSensorClear k) s) (fun t => t.sec.reads = clrBit s.sec.reads k ∧ t.sec.tripped = s.sec.tripped ∧
    t = { s with sec := t.sec })) ∧
  (bitSet s.sec.heldTripped k = true → bitSet s.sec.reads k = false → Completes (exec (.tamperHoldEnd k) s) (fun t =>
    t.sec.heldTripped = clrBit s.sec.heldTripped k ∧ t.sec.chatter = s.sec.chatter.filter (fun c => c.1 ≠ k))) ∧
  (∀ x l, s.sec.strikes = x :: l → started s = true → s.pwr.state ≠ .neap → x + dayUs ≤ s.clk.mono → (∀ y ∈ l, s.clk.mono < y + dayUs) →
    Completes (exec .strikeExpiry s) (fun t => t.sec.strikes = l)) ∧
  (s.sec.service = some g → Completes (exec .serviceExpiry s) (fun t => t.sec.service = none ∧ t.sec.halted = (false, false))) ∧
  (s.pwr.phase = .ready → debugReaches s .cc = true → Completes (exec (.debugHalt .cc) s) (fun t =>
    t = s.onSec (fun x => { x with halted := (true, x.halted.2) }))) ∧
  (s.pwr.phase = .ready → debugReaches s .ext = true → Completes (exec (.debugHalt .ext) s) (fun t =>
    t = s.onSec (fun x => { x with halted := (x.halted.1, true) }))) ∧
  (∀ c, debugReaches s c = false → exec (.debugHalt c) s = exec (.tamperTrip 11) s ∧ exec (.debugResume c) s = exec (.tamperTrip 11) s) ∧
  (debugReaches s .cc = true → Completes (exec (.debugResume .cc) s) (fun t => t = s.onSec (fun x => { x with halted := (false, x.halted.2) }))) ∧
  (debugReaches s .ext = true → Completes (exec (.debugResume .ext) s) (fun t => t = s.onSec (fun x => { x with halted := (x.halted.1, false) })))

/-- R353: Breach zeroises its vault slots and leaves the others, blows at most one fuse, withdraws the start outputs and stops LF and radio. -/
def Obligations.Breach : Prop := ∀ (sensor : Nat) (fuse tell : Bool) (s : State), s.pwr.state ≠ .breach →
  let t := enterBreach sensor fuse tell s
  (∀ k, k < s.sec.vault.length → k ∈ breachSlots → t.sec.vault.getD k {} = {}) ∧
  (∀ k, k < s.sec.vault.length → k ∉ breachSlots → t.sec.vault.getD k {} = s.sec.vault.getD k {}) ∧
  t.sec.breachFuses = (if fuse then min 64 (s.sec.breachFuses + 1) else s.sec.breachFuses) ∧
  t.rel.startA = false ∧ t.rel.startB = false ∧ t.lf.cur = none ∧ t.rad.tx = none ∧ t.rng.drbg = none ∧
  (running s = true → t.pwr.state = .breach)

/-- R58, R60, R379 to R382: the writer takes the lowest class, checks it once, and defers what the energy does not allow; during the holdup
measurement no write begins, and a repair waits for mailbox ready; an erase that a write forces is done before its cells. A regulatory
record is judged again as its write begins (R289): one that waited and may no longer stand is denied, and its lock is the one that
stands then. R384 to R386: reclaim, erase and scrub. -/
def Obligations.StoreWrites : Prop :=
  (∀ (j : Job) (rest : List Job) (w : Writing) (wrest : List Writing) (s : State),
  (writerRuns s = true → s.store.cur = none → s.evt.backlog = [] → pickWrite s.store = .job j rest → s.pwr.holdBusy = false → jobOk j s = true →
    (j.copies = none ∨ s.pwr.phase = .ready) → regRefused s j = none → Completes (exec .storeWriteBegin s) (fun t => t = s.onStore (fun x => { x with
      cur := some { job := regJob s j, from_ := s.clk.mono + 4000 * forcedErases j s.store }, queue := rest }))) ∧
  (writerRuns s = true → s.store.cur = none → s.evt.backlog = [] → pickWrite s.store = .job j rest → s.pwr.holdBusy = false → jobOk j s = false →
    (j.copies = none ∨ s.pwr.phase = .ready) → regRefused s j = none → exec .storeWriteBegin s = .next (deferWrite j rest s)) ∧
  (writerRuns s = true → s.store.cur = none → s.evt.backlog = [] → pickWrite s.store = .job j rest → (s.pwr.holdBusy = true ∨ (j.copies.isSome = true ∧ s.pwr.phase ≠ .ready)) →
    exec .storeWriteBegin s = .next s) ∧
  (∀ ref, writerRuns s = true → s.store.cur = none → s.evt.backlog = [] → pickWrite s.store = .job j rest → s.pwr.holdBusy = false →
    (j.copies = none ∨ s.pwr.phase = .ready) → regRefused s j = some ref →
    exec .storeWriteBegin s = .next (respond ref stDenied [] (s.onStore (fun x => { x with queue := rest })))) ∧
  ((∀ i ∈ j.items, ∀ b, i ≠ .record 0x0050 0 b) → regJob s j = j) ∧
  (∀ b, b ≠ [] → j.after = .nothing → j.items = [.record 0x0050 0 b] →
    (regJob s j).items = [.record 0x0050 0 (b.take 416 ++ [if regLocked s then 1 else 0])]) ∧
  (writerRuns s = true → s.store.cur = none → s.evt.backlog = [] → pickWrite s.store = .resume w wrest →
    Completes (exec .storeWriteBegin s) (fun t => t = s.onStore (fun x => { x with cur := some { w with from_ := s.clk.mono }, paused := wrest }))) ∧
  (s.store.cur = some w → w.aDone = false →
    let u := writeCopy false w.job s.store
    let urgent := u.queue.any (fun j => j.cls ≤ 2 && !j.deferred)
    let v := copyTime w s
    (w.job.cls ≠ 3 ∨ urgent = false → Completes (exec .storeCopyDone s) (fun t =>
      t = { v with store := { u with cur := some { w with aDone := true, from_ := v.clk.mono } } })) ∧
    (w.job.cls = 3 → urgent = true → Completes (exec .storeCopyDone s) (fun t =>
      t = { v with store := { u with cur := none, paused := u.paused ++ [{ w with aDone := true }] } }))) ∧
  (s.store.cur = some w → s.pwr.state ≠ .neap → w.job.copies = none → w.aDone = false → (copyTime w s).clk.mono = max s.clk.mono (w.from_ + 45 * w.job.copyCells)) ∧
  (s.store.cur = some w → w.aDone = true → writerRuns s = true →
    exec .storeWriteCommit s = .next (committed w.job { copyTime w s with store := { writeCopy true w.job s.store with cur := none } })) ∧
  (s.store.cur = some w → w.aDone = false → Completes (exec .storeWriteCommit s) (fun t => t = s)) ∧
  (s.store.queue.any (·.deferred) = true → writerRuns s = true → s.pwr.holdBusy = false → Completes (exec .storeDeferredRetry s) (fun t =>
    let v := monoAt s.store.retryAt s
    t = v.onStore (fun x => { x with
      queue := x.queue.map (fun y => { y with deferred := y.deferred && !jobOk y v }), retryAt := v.clk.mono + 10000 }) ∧
    ∀ y ∈ t.store.queue, y.deferred = true → jobOk y v = false))) ∧
  (∀ (area i : Nat) (copyB : Bool) (l : List Nat) (s : State),
  (running s = true → s.store.erasing = none → 1 ≤ area → area ≤ 3 → s.pwr.holdBusy = false → energyOk false 0 1 s = true → 5500 ≤ s.pwr.vbat →
    reclaimPage area copyB s.store = some i → Completes (exec (.reclaim area copyB) s) (fun t =>
    t.store.erasing = some i ∧ t.store.queue = s.store.queue ++ rewrites i copyB s.store ∧ t.store.recs = s.store.recs ∧ t.store.ctrs = s.store.ctrs)) ∧
  (s.store.erasing = some i → urgentWrite s.store = false → i < s.store.pages.length → liveCells i (s.store.pages.getD i {}).copyB s.store = 0 →
    (s.store.pages.getD i {}).erases + 1 < 100000 → Completes (exec (.pageEraseDone i true) s) (fun t =>
      t.store.erasing = none ∧ t.store.pages.getD i {} = { s.store.pages.getD i {} with
        opened := none, used := 0, torn := false, bad := false, erases := (s.store.pages.getD i {}).erases + 1 } ∧
      ∀ k, k ≠ i → t.store.pages.getD k {} = s.store.pages.getD k {})) ∧
  (running s = true → Completes (exec (.scrub l) s) (fun t =>
    t = s.onStore (fun x => { x with toReclaim := x.toReclaim ++ l.filter (fun i => i < 64 && !x.toReclaim.contains i) }))))

/-- R378, R380, R387: a version is in force once copy A stands, with the next sequence number, and no other record's standing version moves;
a counter is never written below what it holds. -/
def Obligations.StoredVersions : Prop := ∀ (type key id v : Nat) (spare : Bool) (body : Bytes) (t : Store),
  let u := writeItem false false false spare (.record type key body) t
  (∃ a, ((findRec u.recs type key).bind (·.a)) = some a ∧ a.body = body ∧ a.seq = nextSeq (findRec t.recs type key) ∧
    (findRec u.recs type key).bind StRec.standing = some a) ∧
  (∀ type' key', (type', key') ≠ (type, key) →
    (findRec u.recs type' key').bind StRec.standing = (findRec t.recs type' key').bind StRec.standing) ∧
  (∀ old, (findRec t.ctrs 0x8000 id).bind StRec.standing = some old → v ≤ leNat old.body → writeItem false false false spare (.ctr id v) t = t)

/-- R358 to R370: noise sources, blocks and alarms. R363, R367, R369, R371 to R373: the DRBG's waiting users and its software ports. -/
def Obligations.RandomNumbers : Prop :=
  (∀ (n test t0 : Nat) (samples : Bytes) (d : Drbg) (s : State),
  (s.pwr.phase = .rom → s.rng.src.any (·.running) = false → s.rng.fatal = none → Completes (exec .noiseSourcesStart s) (fun t =>
    t.rng.src = s.rng.src.map (fun x => { x with running := true, passed := false }) ∧
    t.clk.base = max s.clk.base (if coldStart s then 2000 else 1200))) ∧
  (sampling s n = true → (noise s n).passed = false → s.rng.test.getLsbD 0 = false → Completes (exec (.rngStartupTestPass n) s) (fun t =>
    t = onNoise n (fun x => { x with passed := true }) s)) ∧
  (sampling s n = true → (noise s n).passed = true → (noise s n).block = none → samples.length = 256 → s.rng.test.getLsbD 0 = false →
    exec (.rngBlockReady n samples) s = .next (updateUwb (serveRng (tryReseed (tryInstantiate (s.onRng (fun r => { r with
      src := modAt r.src (n - 1) (fun x => { x with block := some (shake256 samples 32) }),
      first := if ((r.src.getD (2 - n) {}).block).isSome then r.first else n - 1 }))))))) ∧
  (sampling s n = true → (noise s n).passed = true → test = 2 ∨ test = 3 → (noise s n).fails = [] → Completes (exec (.rngHealthFail n test) s) (fun t =>
    (t.rng.src.getD (n - 1) {}).passed = false ∧ t.rng.drbg = s.rng.drbg ∧ t.rng.fatal = s.rng.fatal)) ∧
  (s.rng.reseedFrom = some t0 → s.rng.drbg = some d → s.rng.fatal = none → s.pwr.state ≠ .neap → Completes (exec .rngNoBlockTimeout s) (fun t =>
    t.rng.drbg = none ∧ t.rng.waiting = [])) ∧
  (s.rng.fatal = some t0 → s.rng.latchedFatal = false → s.rng.src.any (·.running) = false → s.pwr.state ≠ .neap → Completes (exec .rngFatalRestart s) (fun t =>
    t.rng.src = s.rng.src.map (fun x => { x with running := true, passed := false, fails := [] }) ∧ t.clk.base = max s.clk.base (t0 + 10000000)))) ∧
  (∀ (o : CoreId) (v w : Word) (l : List Word) (x : RngUser × Nat) (s : State),
  (s.rng.waiting.find? (fun w => w.1 = .nonce) = some x → s.mbx.waitOpen = none → s.mmb.waitOpen = none →
    Completes (exec (.rngWaitTimeout .nonce) s) (fun t => t = s.onRng (fun r => { r with waiting := r.waiting.filter (fun x => x.1 ≠ .nonce) }))) ∧
  (portRuns s = true → rngReady s o = true → (rngPort s o).fifo = w :: l → l ≠ [] → Completes (exec (.rngDataRead o) s) (fun t =>
    rngPort t o = { rngPort s o with fifo := l } ∧ (readRngData o s).1 = w ∧ t = { s with rng := t.rng })) ∧
  (portRuns s = true → rngReady s o = true → (rngPort s o).fifo = [w] → (readRngData o s).1 = w ∧
    exec (.rngDataRead o) s = .next (refillPort o (onRngPort o (fun p => { p with fifo := [] }) s))) ∧
  (portRuns s = true → rngReady s o = false → Completes (exec (.rngDataRead o) s) (fun t =>
    rngPort t o = { rngPort s o with err := true } ∧ (readRngData o s).1 = 0 ∧ t = { s with rng := t.rng })) ∧
  (portRuns s = true → s.rng.drbg = none → Completes (exec (.rngReseedRequest o) s) (fun t =>
    rngPort t o = { rngPort s o with fifo := [], reseed := true } ∧ t = { s with rng := t.rng })) ∧
  (portRuns s = true → rngReady s o = false → Completes (exec (.rngFlush o) s) (fun t =>
    rngPort t o = { rngPort s o with fifo := [] } ∧ t = { s with rng := t.rng })) ∧
  (portRuns s = true → exec (.rngFlush o) s = .next (refillPort o (onRngPort o (fun p => { p with fifo := [] }) s))) ∧
  (portRuns s = true → lifecycle s = .factory → Completes (exec (.rngTestWrite v) s) (fun t =>
    t.rng.test = v ∧ t.rng.drbg = none ∧ (∀ b ∈ t.rng.src, b.block = none) ∧ t = { s with rng := t.rng })) ∧
  (portRuns s = true → lifecycle s ≠ .factory → Completes (exec (.rngTestWrite v) s) (fun t => t = s)))

/-- R434 to R438: the link comes up and the roles are settled. -/
def Obligations.PairLink : Prop := ∀ (b : NegoBlock) (n key : Bytes) (s v : State),
  (linkLive s = true → draw .nonce 16 (s.onPair (fun p => { p with locked := true, nonce := none })) = (some n, v) → Completes (exec .causewayLock s) (fun t =>
    t = v.onPair (fun p => { p with nonce := some n }))) ∧
  (linkLive s = true → s.pair.locked = true → vaultKey s 2 = none → Completes (exec (.negotiate b) s) (fun t =>
    t = s.onPair (fun p => { p with partner := 0 }))) ∧
  (linkLive s = true → s.pair.locked = true → vaultKey s 2 = some key → b.cmacOk = false → Completes (exec (.negotiate b) s) (fun t =>
    t = s.onPair (fun p => { p with partner := 0 }))) ∧
  (linkLive s = true → s.pair.locked = true → vaultKey s 2 = some key → b.cmacOk = true → b.verMin ≤ min 2 b.verMax → 1 ≤ b.verMax →
    s.pair.nonce = some n → s.pair.up = true → Completes (exec (.negotiate b) s) (fun t =>
      let lohi := if ownLower b.serial then (n, b.nonce) else (b.nonce, n)
      let okm := shake256 (ascii "ITF48-CW-2" ++ [byte (min 2 b.verMax)] ++ key ++ lohi.1 ++ lohi.2) 36
      t.pair.up = true ∧ t.pair.version = min 2 b.verMax ∧ t.pair.link = some { kGcm := okm.take 32, salt := okm.drop 32 } ∧ t.pair.tx = 0 ∧ t.pair.rx = 0 ∧
      t.pair.role = s.pair.role ∧ t = { s with pair := t.pair })) ∧
  (linkLive s = true → s.pair.up = false → s.pair.role = .lee → s.pair.joined = false → Completes (exec .partnerAbsentTimeout s) (fun t =>
    t.pair.role = .headland ∧ t.pair.headFrom = some t.clk.base ∧ t.clk.base = max s.clk.base (s.pwr.readyAt + 200000)))

/-- R433: a block out of sequence is discarded and a resend asked for; one in sequence is counted and clears the misses. Said once for every
kind of block. R445, R446, R449, R452, R456: heartbeats, the alive signal, a yield and a wake. -/
def Obligations.PairAlive : Prop :=
  (∀ (seq : Nat) (k : State → State) (s : State), linkLive s = true → s.pair.up = true →
  (seq = s.pair.rx → recvBlock seq s k = .next (k (s.onPair (fun p => { p with rx := p.rx + 1, missed := 0 })))) ∧
  (seq ≠ s.pair.rx → recvBlock seq s k = .next (s.onPair (fun p => { p with
    sent := lastN 256 (p.sent ++ [(p.tx, linkBlock p 0 0x11 (le32 p.rx))]), tx := p.tx + 1 })))) ∧
  (∀ (seq tick power fault last ovf : Nat) (temp : Int) (ok : Bool) (s : State),
  (linkLive s = true → s.pair.up = true → s.pair.tx < 0xF0000000 → Completes (exec .heartbeatSend s) (fun t =>
    t.pair.tx = s.pair.tx + 1 ∧ t.clk.base = t.pair.lastSent ∧ (s.pwr.state ≠ .neap → t.pair.lastSent = max s.clk.base (s.pair.lastSent + 1000)))) ∧
  (linkLive s = true → s.pair.up = true → seq = s.pair.rx → s.pair.role = .headland → Completes (exec (.heartbeat seq tick temp power fault last ok ovf) s) (fun t =>
    t = (queueOverflow 7 ovf s).onPair (fun p => { p with
      rx := p.rx + 1, missed := 0, misses := 0, lastBeat := now s, beat := (temp, power, fault), beatTick := tick, neapOk := ok }))) ∧
  (linkLive s = true → s.pair.up = true → s.pair.missed < 2 → Completes (exec .heartbeatMiss s) (fun t => t.pair.missed = s.pair.missed + 1 ∧ t.pair.misses = s.pair.misses + 1 ∧
    t.pair.up = true ∧ t.pair.role = s.pair.role)) ∧
  (linkLive s = true → s.pair.up = true → s.pair.role = .headland → 2 ≤ s.pair.missed → Completes (exec .heartbeatMiss s) (fun t =>
    t.pair.up = false ∧ t.pair.partner = 0 ∧ t.pair.joined = false ∧ t.pair.role = .headland)) ∧
  (s.pwr.cwPair = true → started s = true → s.pwr.state ≠ .neap → param s 0x0B02 ≠ 0 → Completes (exec (.pairAliveToggle true) s) (fun t =>
    t = s.onPair (fun p => { p with alive := (p.alive.1, now s) }))) ∧
  (s.pwr.cwPair = true → started s = true → s.pwr.state ≠ .neap → param s 0x0B01 ≠ 0 → Completes (exec (.pairAliveToggle false) s) (fun t =>
    t.pair.alive.1 = !s.pair.alive.1 ∧ t.bus.pins = modAt s.bus.pins (param s 0x0B01 - 1) (fun x => { x with
      out := !s.pair.alive.1, level := !s.pair.alive.1 }))) ∧
  (linkLive s = true → s.pair.up = true → seq = s.pair.rx → s.pair.role = .lee → s.pair.joined = true →
    exec (.yield seq) s = .next (takeOver false (s.onPair (fun p => { p with rx := p.rx + 1, missed := 0 })))) ∧
  (s.pwr.cwPair = true → exec .pairWake s = .next (neapWake 0x42 false s)))

/-- R389, R431, R433, R442, R443, R453: what the blocks of the partner do. -/
def Obligations.PairBlocks : Prop := ∀ (seq ms id v first tr : Nat) (items : List MirrorItem) (c : Nat × Nat × Nat × Nat) (s : State),
  let u := s.onPair (fun p => { p with rx := p.rx + 1, missed := 0 })
  (linkLive s = true → s.pair.up = true → seq = s.pair.rx → s.pair.role = .lee → Completes (exec (.mirror seq ms items false) s) (fun t =>
    t = u.onPair (fun p => { p with partial_ := p.partial_ ++ items }))) ∧
  (linkLive s = true → s.pair.up = true → seq = s.pair.rx → s.pair.role = .lee → ms = s.pair.mirrorRx + 1 → exec (.mirror seq ms items true) s =
    .next (sendBlock 0x21 (le32 ms) (applyItems (s.pair.partial_ ++ items) (u.onPair (fun p => { p with partial_ := [], mirrorRx := ms }))))) ∧
  (linkLive s = true → s.pair.up = true → seq = s.pair.rx → s.pair.role = .headland → s.pair.transfer = none →
    Completes (exec (.mirrorAcknowledge seq ms) s) (fun t => t = u.onPair (fun p => { p with
      mirrorAck := max p.mirrorAck ms, backlog := p.backlog.filter (fun b => b.1 > ms) }))) ∧
  (linkLive s = true → s.pair.up = true → s.pair.sent.any (fun b => b.1 == first) = true → Completes (exec (.resendRequest first) s) (fun t =>
    t = s.onPair (fun p => { p with missed := 0 }))) ∧
  (linkLive s = true → s.pair.up = true → seq = s.pair.rx → s.pair.role = .lee → id < 0x200 → Completes (exec (.counterCommitRequest seq id v) s) (fun t =>
    t = queueJob { cls := 1, items := [.ctr id v], after := .leeCommit id } u)) ∧
  (linkLive s = true → s.pair.up = true → seq = s.pair.rx → s.pair.commits = [c] → c.1 = id → c.2.2.2 = 0 →
    Completes (exec (.counterCommitAcknowledge seq id false) s) (fun t => t = u.onPair (fun p => { p with commits := [(c.1, c.2.1, c.2.2.1, 2)] }))) ∧
  (linkLive s = true → s.pair.up = true → seq = s.pair.rx → s.pair.commits = [c] → c.1 = id → c.2.2.2 = 1 →
    exec (.counterCommitAcknowledge seq id false) s = .next (counterDone id c.2.1 true true (u.onPair (fun p => { p with commits := [] })))) ∧
  (s.pair.commits = [c] → c.2.2.2 ≤ 1 → exec .pairCommitTimeout s = .next (commitFailed c.1 c.2.1 (dueAt (c.2.2.1 + 1000) s))) ∧
  (linkLive s = true → s.pair.up = true → seq = s.pair.rx → s.pair.role = .headland → tr ≤ 31 → exec (.triggerForward seq tr) s = .next (serveTrigger tr u)) ∧
  (linkLive s = true → s.pair.up = true → seq = s.pair.rx → exec (.breachBlock seq) s = .next (enterBreach 0x80 true false u)) ∧
  (linkLive s = true → s.pair.up = true → seq = s.pair.rx → exec (.tamperStrandedBlock seq) s = .next (enterStranded false 0 false u))

/-- R435, R451, R454: the pair's commands and the steps of a switchover and of an admission. R451, R454: a handover, and the two commands
that run out. -/
def Obligations.PairCommands : Prop :=
  (∀ (m : MbxCmd) (s : State) (ref : CmdRef) (u : State),
  (begun 0x0B00 m s = some (ref, u) → m.payload = [] → exec (.pairStatus m) s = .next (reply ref
    ([byte u.pair.role.code, byte u.pair.partner, byte u.pair.version, byte u.pair.missed] ++ le32 (u.pair.backlog.map (·.2)).sum ++ le16 u.pair.takeovers) u)) ∧
  (begun 0x0B01 m s = some (ref, u) → m.payload = [] → paired u = true → ref.member = false → u.path = none → u.pair.switch_ = none →
    exec (.pairSwitchover m) s = .next (let a := mirror [linkItem (accepted ref u)] (accepted ref u)
      sendBlock 0x40 (le32 a.pair.mirrorTx) (a.onPair (fun p => { p with switch_ := some (ref, now a) })))) ∧
  (begun 0x0B01 m s = some (ref, u) → m.payload = [] → paired u = false → exec (.pairSwitchover m) s = .next (respond ref stNotInState [] u)) ∧
  (begun 0x0B02 m s = some (ref, u) → m.payload = [] → u.pair.role = .headland → u.pair.up = true → u.pair.partner = 2 → u.pair.joined = false →
    2 ≤ u.pair.version → ref.member = false → u.pair.admission = none → u.pair.transfer = none →
    exec (.pairAdmit m) s = .next (sendAdmit (accepted ref (u.onPair (fun p => { p with admission := some (ref, now u, [], 0) })))))) ∧
  (∀ (seq last t0 k : Nat) (ref : CmdRef) (nonce n : Bytes) (rep : JoinReport) (items : List MirrorItem) (s : State),
  let u := s.onPair (fun p => { p with rx := p.rx + 1, missed := 0 })
  (linkLive s = true → s.pair.up = true → seq = s.pair.rx → s.pair.role = .lee → s.pair.joined = true → last ≤ s.pair.mirrorRx →
    exec (.handover seq last) s = .next (takeOver true (sendBlock 0x40 (le32 last) u))) ∧
  (linkLive s = true → s.pair.up = true → seq = s.pair.rx → s.pair.role = .headland → s.pair.switch_ = some (ref, t0) →
    exec (.handover seq last) s = .next (becomeLee u)) ∧
  (s.pair.switch_ = some (ref, t0) → Completes (exec .switchoverTimeout s) (fun t => t.pair.switch_ = none ∧ t.pair.role = s.pair.role)) ∧
  (s.pair.admission = some (ref, t0, n, k) → Completes (exec .admitTimeout s) (fun t => t.pair.admission = none ∧ t.pair.transfer = none ∧ t.pair.joined = s.pair.joined)) ∧
  (linkLive s = true → s.pair.up = true → seq = s.pair.rx → s.pair.role = .lee → s.pair.joined = false → s.sec.sign = none → s.sec.verify = none →
    (vaultKey s 0).isSome = true → Completes (exec (.attestationRequest seq nonce) s) (fun t =>
      (∃ o, t.sec.sign = some (.pairReport o)) ∧ t.sec.attests = s.sec.attests + 1 ∧ t.pair.reportDue = none)) ∧
  (linkLive s = true → s.pair.up = true → seq = s.pair.rx → s.pair.admission = some (ref, t0, n, 0) → n ≠ [] →
    exec (.attestationReport seq rep) s = .next (if reportOk rep n u then startTransfer (u.onPair (fun p => { p with admission := some (ref, t0, n, 1) }))
      else cmdDone ref stAuthFail [] (u.onPair (fun p => { p with admission := none })))) ∧
  (linkLive s = true → s.pair.up = true → seq = s.pair.rx → s.pair.role = .lee → Completes (exec (.stateTransfer seq items false) s) (fun t =>
    t = u.onPair (fun p => { p with partial_ := p.partial_ ++ items }))) ∧
  (linkLive s = true → s.pair.up = true → seq = s.pair.rx → s.pair.role = .lee → s.pair.partial_ = [] → Completes (exec (.stateTransfer seq [] true) s) (fun t =>
    t.pair.mirrorRx = s.pair.mirrorRx + 1 ∧ t.pair.joined = false ∧
    t.store.queue = s.store.queue ++ [{ cls := 3, items := [.record 0x0090 0 (s.pair.serial.getD [])], after := .joined }])))

/-- R430, R432, R437, R451: a member that becomes Lee drives nothing, no release pin either. -/
def Obligations.LeeDrivesNothing : Prop := ∀ (s : State), let t := becomeLee s
  t.pair.role = .lee ∧ t.rel.startA = false ∧ t.rel.startB = false ∧ t.rel.access = [] ∧ t.rel.start = none ∧ t.path = none ∧ t.paths = [] ∧
  t.lf.cur = none ∧ t.lf.queued = none ∧ t.rad.tx = none ∧ t.uwb.sessions = [] ∧ t.rel.pulses = [] ∧ t.awaited = [] ∧
  ∀ k, k < 8 → (s.bus.pins.getD k {}).function = 1 → (t.bus.pins.getD k {}).out = false

/-- R417 to R422: plug-in commands, invocations and the budget. R423 to R425: the service requests of a plug-in. The command itself stands
for the request when SRVC handed over no list (log 40). -/
def Obligations.Plugins : Prop :=
  (∀ (m : MbxCmd) (s : State) (ref : CmdRef) (u : State) (v : Invoc) (rest : List Invoc),
  (begun 0x0C00 m s = some (ref, u) → m.payload.length = 4 → u8 m.payload 0 ≤ 3 → zeros m.payload 1 3 = true → u.pwr.state ≠ .breach → pinnedBusy u = false →
    u.sec.sign = none → u.sec.verify = none →
    exec (.pluginLoad m) s = .next (accepted ref (u.onSec (fun x => { x with verify := some (.plugin (u8 m.payload 0), ref) })))) ∧
  (begun 0x0C01 m s = some (ref, u) → m.payload.length = 4 → u8 m.payload 0 ≤ 3 → zeros m.payload 1 3 = true →
    slotRuns u (u8 m.payload 0) = true → exec (.pluginUnload m) s = .next (reply ref [] (u.onExt (fun e => { e with
      pendLoad := e.pendLoad ++ [(u8 m.payload 0, {}, none)] })))) ∧
  (begun 0x0C01 m s = some (ref, u) → m.payload.length = 4 → u8 m.payload 0 ≤ 3 → zeros m.payload 1 3 = true →
    slotRuns u (u8 m.payload 0) = false → exec (.pluginUnload m) s = .next (reply ref [] (applySlot (u8 m.payload 0) {} none u))) ∧
  (begun 0x0C02 m s = some (ref, u) → m.payload = [] → ∃ e : Bytes, e.length = 32 ∧ exec (.extStatus m) s = .next (reply ref e u) ∧
    ∀ i, i < 4 → slice e (8 * i) 8 = [byte (slotOf u i).state, 0] ++ le16 (slotOf u i).traps ++ le16 (slotOf u i).overruns ++ [byte (slotOf u i).lastCause, 0]) ∧
  (s.ext.queue = v :: rest → running s = true → halted s = false → s.ext.cur = none → s.ext.requests = [] → s.sec.halted.2 = false →
    slotLive s v.slot = true → Completes (exec .extInvocationBegin s) (fun t =>
      t.ext.cur = some v ∧ t.ext.left = 400000 ∧ t.ext.queue = rest ∧ t.xc.stopped = false ∧ t.xc.get 0 = 0 ∧ t.xc.get 1 = BitVec.ofNat 32 v.event ∧
      t.xc.get 30 = 0x20000 ∧ t.xc.pc = BitVec.ofNat 32 ((slotOf s v.slot).codeBase + (slotOf s v.slot).entry) ∧
      memReadN t.xc.mem 0x22000 64 = invocRecord v ∧ t.cc = s.cc ∧ t.store = s.store)) ∧
  (s.ext.queue = v :: rest → running s = true → halted s = false → s.ext.cur = none → s.ext.requests = [] → s.sec.halted.2 = false →
    slotLive s v.slot = false → Completes (exec .extInvocationBegin s) (fun t => t.ext.cur = none ∧ t.ext.queue = rest ∧ t.xc = s.xc)) ∧
  (coreRuns s .ext = true → exec .extWatchdog s = .next (extTrap 6 0 0 (advanceTo (now s + s.ext.left / 200) s).xc.pc
    (spend .ext (advanceTo (now s + s.ext.left / 200) s).ext.left (advanceTo (now s + s.ext.left / 200) s))))) ∧
  (∀ (serial id idx slot fslot buffer preamble start : Nat) (off : Int) (addr : Word) (p : Path) (a : Ans)
    (st : Nat × Nat × Nat × Nat) (s : State), s.ext.requests = [] → s.ext.cur = none → s.ext.prevSlot = some slot →
  (s.path = some p → p.step = .window → p.ended = false →
    s.ext.frames.find? (fun f => f.1 == serial) = some (serial, fslot, p.poll, off) → fslot ≠ 255 → tokenOf s id = some idx →
    (match tokenRec s idx with | some b => boundTo b slot | none => false) = true → slotFor s id p.nDev = fslot →
    Completes (exec (.answerRequest serial id) s) (fun t => ∃ (q : Path) (x : Ans), t = { s with path := some q } ∧
      q.answers = p.answers.filter (fun x => x.idx ≠ idx) ++ [x] ∧ x.idx = idx ∧ x.id = id ∧ x.plugin = some slot ∧ x.serial = serial ∧ x.offNs = 1000 * off)) ∧
  (s.ext.step = none → exec (.transmitRequest buffer preamble start) s =
    .next (queueInvoc { slot := slot, event := 5, body := [byte buffer, 2] } s).2) ∧
  (s.ext.step = some st → s.path = some p → st.1 = slot → buffer ≤ 15 → 1 ≤ preamble → preamble ≤ 8 →
    s.ext.txUsed.any (fun b => b.2 == buffer) = false → 1 ≤ leNat (memReadN s.xc.mem (0x21000 + 256 * buffer) 2) →
    leNat (memReadN s.xc.mem (0x21000 + 256 * buffer) 2) ≤ 240 →
    let wait := (start + 2 ^ 48 - tide s) % 2 ^ 48
    start = 0 ∨ (wait < 2 ^ 47 ∧ now s + wait < st.2.2.2) →
    let v := if start = 0 then s else advanceTo (now s + wait) s
    let frame := List.replicate preamble (0xAA : Byte) ++
      (twFrame (memReadN v.xc.mem (0x21010 + 256 * buffer) (leNat (memReadN s.xc.mem (0x21000 + 256 * buffer) 2)))).drop 1
    let r := txRequest { freq := p.freq, asked := param v 0x0701, airUs := twAirUs v frame.length, prec := 1, frame := frame, plugin := some buffer }
      (v.onExt (fun e => { e with txUsed := e.txUsed ++ [(slot, buffer)] }))
    exec (.transmitRequest buffer preamble start) s =
      .next (if r.1 = stOk ∨ r.1 = stAccepted then r.2 else transmitDone buffer (if r.1 = stRegulatory then 1 else 2) r.2)) ∧
  (s.ext.step = some st → s.path = some p → p.cur = some a → st.1 = slot →
    let b := memReadN s.xc.mem addr.toNat 32
    within addr.toNat 32 (slotOf s slot).dataBase (slotOf s slot).dataSize = true ∨ within addr.toNat 32 0x18000 0x8000 = true →
    u8 b 1 ≤ 3 ∨ u8 b 1 = 0xFF → u16 b 2 = st.2.1 → u32 b 4 = a.id → zeros b 21 1 = true → zeros b 30 2 = true → (tokenRec s a.idx).isSome = true →
    (u8 b 0 = 0 → u32 b 8 ≤ tokCounter s a.idx → exec (.verdict addr) s = .next (nextAuth ((emit evTokenAuthFail 1 (le16 a.idx ++ [4])
      (logOldCounter a.idx (u32 b 8) (tokCounter s a.idx) s)).onExt (fun e => { e with step := none })))) ∧
    (u8 b 0 = 0 → tokCounter s a.idx < u32 b 8 → u8 b 1 = 0xFF → u16 b 22 = 0xFFFF → exec (.verdict addr) s = .next (nextAuth ((authenticated
      { a with counter := u32 b 8, strengths := (slice b 12 8).map (·.toNat), pre := u8 b 20 } none 0 0 a.slot s).onExt (fun e => { e with step := none })))) ∧
    (u8 b 0 = 1 → exec (.verdict addr) s = .next (nextAuth ((emit evTokenAuthFail 1 (le16 a.idx ++ [1]) s).onExt (fun e => { e with step := none })))) ∧
    (u8 b 0 = 2 → exec (.verdict addr) s = .next (nextAuth ((foreignAnswer a.id a.slot s).onExt (fun e => { e with step := none }))))) ∧
  (s.ext.step = some st → exec .pluginStepEnd s = .next (stepFails (advanceTo st.2.2.2 s))))

/-- R427, Tables 19-6 and 19-7: frame exchange and the AES port, whose errors are checked in the order of their codes. -/
def Obligations.AesPort : Prop := ∀ (id : Word) (v : Invoc) (dk : Nat) (key : Bytes) (s : State),
  (s.ext.cur.isSome = true → Completes (exec (.fxLookup id) s) (fun t => t = s.onExt (fun e => { e with fxId := id }) ∧
    (readReg (.fx 4) t).1 = BitVec.ofNat 32 (fxIndex s id.toNat))) ∧
  (s.ext.cur = some v → s.ext.aesBusy = false →
    let x := slotOf s v.slot
    let src := s.ext.aesSrc.toNat
    let dst := s.ext.aesDst.toNat
    let n := s.ext.aesLen
    let w := fun (a n : Nat) => within a n x.dataBase x.dataSize || within a n 0x18000 0x8000 || within a n 0x21000 0x1000
    let input := memReadN s.xc.mem src n
    (handleKey s v.slot s.ext.aesHandle = .inl 1 → ∀ op ∈ [Instr.aesEncrypt, .aesDecrypt, .aesCmac],
      exec op s = .next (s.onExt (fun e => { e with aesErr := 1 }))) ∧
    (handleKey s v.slot s.ext.aesHandle ≠ .inl 1 → ((w src n || within src n 0x20000 0x1000) && w dst 16) = false →
      ∀ op ∈ [Instr.aesEncrypt, .aesDecrypt, .aesCmac], exec op s = .next (s.onExt (fun e => { e with aesErr := 2 }))) ∧
    (handleKey s v.slot s.ext.aesHandle = .inr key → w src n = true ∨ within src n 0x20000 0x1000 = true →
      (w dst 16 = true → n = 16 → Completes (exec .aesEncrypt s) (fun t =>
        t = s.onExt (fun e => { e with aesBusy := true, aesErr := 0, aesOut := some (aesEnc key input, none, dst, v.slot) }))) ∧
      (w dst 16 = true → n = 16 → Completes (exec .aesDecrypt s) (fun t =>
        t = s.onExt (fun e => { e with aesBusy := true, aesErr := 0, aesOut := some (aesDec key input, none, dst, v.slot) }))) ∧
      (w dst 16 = true → n ≠ 0 → Completes (exec .aesCmac s) (fun t =>
        t = s.onExt (fun e => { e with aesBusy := true, aesErr := 0, aesOut := some (cmac key input, none, dst, v.slot) }))) ∧
      (dk ≤ 3 → n ≠ 0 → Completes (exec (.aesCmacDkey dk) s) (fun t =>
        t = s.onExt (fun e => { e with aesBusy := true, aesErr := 0, aesOut := some (cmac key input, some dk, dst, v.slot) }))) ∧
      (w dst 16 = true → n ≠ 16 → ∀ op ∈ [Instr.aesEncrypt, .aesDecrypt], exec op s = .next (s.onExt (fun e => { e with aesErr := 3 }))))) ∧
  (s.ext.cur.isSome = true → s.ext.aesBusy = true → Completes (exec .aesBusyRead s) (fun t => t = aesDone s ∧ t.ext.aesBusy = false)) ∧
  (s.ext.aesBusy = true → ∀ out dst slot, s.ext.aesOut = some (out, none, dst, slot) → Completes (exec .aesOpDone s) (fun t =>
    t.ext.aesBusy = false ∧ memReadN t.xc.mem dst out.length = out ∧ ∀ a, (a < dst ∨ dst + out.length ≤ a) → memRead t.xc.mem a = memRead s.xc.mem a)) ∧
  (s.ext.aesBusy = true → ∀ out k dst slot, s.ext.aesOut = some (out, some k, dst, slot) → slot < s.ext.slots.length → k ≤ 3 →
    Completes (exec .aesOpDone s) (fun t => t.ext.aesBusy = false ∧ t.xc = s.xc ∧ (k < (slotOf s slot).vol.length → (slotOf t slot).vol.getD k none = some out)))

/-- R484, R490, R491, R138: the commands of the buses and the general-purpose pins. R79, R481 to R488: the door status frame, the
controllers and the handle modules; log 42 for what silences a node. -/
def Obligations.VehicleBuses : Prop :=
  (∀ (m : MbxCmd) (s : State) (ref : CmdRef) (u : State),
  (begun 0x0E00 m s = some (ref, u) → m.payload = [] → ∃ e : Bytes, e.length = 24 ∧ exec (.busStatus m) s = .next (reply ref e u) ∧
    ∀ k, k < 6 → (busKind u k ≠ 0 → e.getD (4 * k) 0 = 4) ∧ (busKind u k = 0 → e.getD (4 * k) 0 = byte (u.bus.bus.getD k {}).state) ∧
      e.getD (4 * k + 1) 0 = byte (busKind u k) ∧ e.getD (4 * k + 2) 0 = byte (min 255 (u.bus.bus.getD k {}).tec)) ∧
  (begun 0x0E01 m s = some (ref, u) → m.payload.length = 4 → u8 m.payload 0 ≤ 7 → pinHeld u (u8 m.payload 0) = false → u8 m.payload 1 ≤ 2 →
    u8 m.payload 2 ≤ 2 → u8 m.payload 3 ≤ 2 → (u8 m.payload 1 = 1 → u8 m.payload 2 = 2) → (u8 m.payload 1 = 2 → u8 m.payload 2 = 0) →
    exec (.gpioConfig m) s = .next (reply ref [] (u.onBus (fun b => { b with
      pins := modAt b.pins (u8 m.payload 0) (pinAs (u8 m.payload 1) (u8 m.payload 2) (u8 m.payload 3)) })))) ∧
  (begun 0x0E01 m s = some (ref, u) → m.payload.length = 4 → u8 m.payload 0 ≤ 7 → pinHeld u (u8 m.payload 0) = true →
    exec (.gpioConfig m) s = .next (respond ref stDenied [] u)) ∧
  (begun 0x0E02 m s = some (ref, u) → m.payload.length = 2 →
    (∀ k, k < 8 → bitSet (u8 m.payload 0) k = true → pinHeld u k = false ∧ (u.bus.pins.getD k {}).function = 0 ∧ (u.bus.pins.getD k {}).dir ≠ 0) →
    ∃ pins, exec (.gpioWrite m) s = .next (reply ref [] (u.onBus (fun b => { b with pins := pins }))) ∧ pins.length = u.bus.pins.length ∧
      ∀ k, k < 8 → k < u.bus.pins.length → pins.getD k {} = if bitSet (u8 m.payload 0) k
        then { u.bus.pins.getD k {} with out := bitSet (u8 m.payload 1) k, level := bitSet (u8 m.payload 1) k } else u.bus.pins.getD k {}) ∧
  (begun 0x0E02 m s = some (ref, u) → m.payload.length = 2 → (∃ k, k < 8 ∧ bitSet (u8 m.payload 0) k = true ∧ pinHeld u k = true) →
    exec (.gpioWrite m) s = .next (respond ref stDenied [] u)) ∧
  (begun 0x0E03 m s = some (ref, u) → m.payload = [] → u.bus.pins.length = 8 → ∃ a b : Byte, exec (.gpioRead m) s = .next (reply ref [a, b] u) ∧
    ∀ k, k < 8 → (bitSet a.toNat k = true ↔ (u.bus.pins.getD k {}).level = true) ∧ (bitSet b.toNat k = true ↔ (u.bus.pins.getD k {}).dir ≠ 0))) ∧
  (∀ (bus kind node ident ovf : Nat) (data : Bytes) (s : State), running s = true →
  (1 ≤ bus → bus ≤ 2 → bus = param s 0x0E0E → ident = param s 0x0E0F → 2 ≤ data.length → canUp s bus = true →
    exec (.doorStatusFrame bus ident data ovf) s = .next (doorBitsRead (if s.bus.doorSeen then s.bus.doorBits else beNat (data.take 2)) (beNat (data.take 2))
      (busDiag (bus - 1) 4 true ((queueOverflow 5 ovf s).onBus (fun b => { b with doorBits := beNat (data.take 2), doorAt := now s, doorSeen := true }))))) ∧
  (param s 0x0E0E ≠ 0 → param s 0x0E0E ≤ 2 → bitSet (s.bus.bus.getD (param s 0x0E0E - 1) {}).kinds 4 = false → s.bus.bus.length = 6 →
    Completes (exec .doorStatusTimeout s) (fun t => bitSet (t.bus.bus.getD (param s 0x0E0E - 1) {}).kinds 4 = true ∧ t.bus.doorBits = s.bus.doorBits ∧
      s.bus.doorAt + 1000000 ≤ now t)) ∧
  (1 ≤ bus → bus ≤ 2 → s.clk.xtal26 = true → (s.bus.bus.getD (bus - 1) {}).state = 1 ∨ (s.bus.bus.getD (bus - 1) {}).state = 2 → bus ≤ s.bus.bus.length →
    Completes (exec (.busOff bus) s) (fun t =>
      (t.bus.bus.getD (bus - 1) {}).state = 3 ∧ (∀ k, k ≠ bus - 1 → t.bus.bus.getD k {} = s.bus.bus.getD k {}) ∧
      (transport s ≠ bus → t.mbx = s.mbx ∧ t.mmb = s.mmb) ∧
      (transport s = bus → t.mbx.isoRx = none ∧ t.mbx.isoTx = none ∧ t.mmb.isoRx = none ∧ t.mmb.isoTx = none))) ∧
  (1 ≤ bus → bus ≤ 2 → (s.bus.bus.getD (bus - 1) {}).state = 3 →
    let x := s.bus.bus.getD (bus - 1) {}
    let v := if x.delayed then advanceTo (x.offs.getLast?.getD 0 + 1000000) s else s
    Completes (exec (.busRecovered bus) s) (fun t => t = onCan bus (fun x => { x with state := 1, delayed := false, tec := 0, rec_ := 0 }) v)) ∧
  (bus ≤ 5 → 1 ≤ kind → kind ≤ (if bus < 2 then 3 else 2) → s.bus.bus.length = 6 →
    (bitSet (s.bus.bus.getD bus {}).kinds kind = false → Completes (exec (.busFault bus kind false) s) (fun t =>
      t.bus.bus = modAt s.bus.bus bus (fun x => { x with kinds := setBit x.kinds kind }))) ∧
    (bitSet (s.bus.bus.getD bus {}).kinds kind = true → Completes (exec (.busFault bus kind true) s) (fun t =>
      t.bus.bus = modAt s.bus.bus bus (fun x => { x with kinds := clrBit x.kinds kind })))) ∧
  (drives s = true → s.pwr.vbatFull = true → linNamed s bus node = true → linReserved s bus = false → Completes (exec (.linStatusPoll bus node) s) (fun t =>
    let n := linNode s bus node
    (linNode t bus node).missed = min 3 (n.missed + 1) ∧ (linNode t bus node).silent = (n.silent || decide (3 ≤ n.missed)) ∧
    (linNode t bus node).polledAt = some (now t) ∧ (∀ p, n.polledAt = some p → p + 10000 * param s 0x0E15 ≤ now t) ∧
    (∀ x p, x ∈ s.bus.nodes → x.bus = bus → x.polledAt = some p → p + 5000 ≤ now t))) ∧
  (drives s = true → linNamed s bus node = true → data.length = 4 →
    let v := pollOver s
    let n := linNode v bus node
    let pulled := bitSet (u8 data 1) 1
    let isOpen := bitSet (u8 data 1) 0
    let put := fun (silent : Bool) (heard : Nat) => onNode bus node (fun x => { x with
      version := some (u8 data 0 % 16), doorOpen := isOpen, pulled := pulled, missed := 0, silent := silent, heard := heard }) v
    let done := fun (w : State) =>
      let w := if n.version.isNone || n.doorOpen = isOpen then w else doorSource (fun r => u8 r 10 == 2 && u8 r 6 == bus && u8 r 7 == node) isOpen w
      exec (.linStatus bus node data) s = .next (if pulled && n.version.isSome && !n.pulled then serveTrigger (26 + bus) w else w)
    (n.silent = false → done (put false 0)) ∧ (n.silent = true → n.heard < 2 → done (put true (n.heard + 1))) ∧
    (n.silent = true → 2 ≤ n.heard → done (emitC evLinNoResponse 1 [byte bus, byte node] [byte bus, byte node] (put false 0)))))

/-- R44, R459, R460, R462, R464: the handling of faults, the host ring and the lines that read back. R473 to R476: SOUNDING_RUN over the
parts that are judged at once, the 24 h sample and the erosion report. -/
def Obligations.FaultsAndErosion : Prop :=
  (∀ (src line kind : Nat) (h : Nat × Nat) (r : EvRec) (f l : List (Nat × Nat)) (x : Nat × Nat) (s v : State),
  (s.flt.handling = some h → s.flt.suspended = x :: l → Completes (exec .faultHandlingDone s) (fun t =>
    t = s.onFlt (fun f => { f with handling := some x, suspended := l }))) ∧
  (s.flt.handling = some h → s.flt.suspended = [] → s.flt.queue = x :: f → Completes (exec .faultHandlingDone s) (fun t =>
    t = s.onFlt (fun g => { g with handling := some x, queue := f }))) ∧
  (s.flt.handling = some h → s.flt.suspended = [] → s.flt.queue = [] → s.flt.lost = 0 ∨ s.flt.reread = true → Completes (exec .faultHandlingDone s) (fun t =>
    t = s.onFlt (fun g => { g with handling := none }))) ∧
  (s.flt.handling = some h → s.flt.suspended = [] → s.flt.queue = [] → s.flt.lost ≠ 0 → s.flt.reread = false →
    let w := readMonitors (s.onFlt (fun g => { g with handling := none, reread := true }))
    exec .faultHandlingDone s = .next ((standing w).foldl (fun t d => if faultActive t d.1 d.2.2.1 then t else emitF d.1 d.2.1 d.2.2.1 d.2.2.2 t) w)) ∧
  (s.evt.ring.length < 256 → takeRecord src s = some (r, v) → exec (.recordToHostRing src) s = .next (pumpEvents (mirror [.event r.bytes]
    (flushLost src (v.onEvt (fun e => { e with ring := e.ring ++ [r], trace := lastN 512 (e.trace ++ [r]) })))))) ∧
  (256 ≤ s.evt.ring.length → Completes (exec (.recordToHostRing src) s) (fun t => t = s)) ∧
  (running s = true → line ≤ 1 → kind = 1 ∨ kind = 2 →
    let kinds := fun (t : State) => if line = 0 then t.pwr.lineKinds.1 else t.pwr.lineKinds.2
    (bitSet (kinds s) kind = false → Completes (exec (.signalLineFault line kind false) s) (fun t => kinds t = setBit (kinds s) kind)) ∧
    (bitSet (kinds s) kind = true → Completes (exec (.signalLineFault line kind true) s) (fun t => kinds t = clrBit (kinds s) kind)) ∧
    (bitSet (kinds s) kind = true → Completes (exec (.signalLineFault line kind false) s) (fun t => t = s)) ∧
    (bitSet (kinds s) kind = false → Completes (exec (.signalLineFault line kind true) s) (fun t => t = s))) ∧
  (running s = true → line = 2 ∨ line = 3 → kind = 1 ∨ kind = 2 → s.path = none → bitSet (tpDiags (line - 1) s) kind = false →
    Completes (exec (.signalLineFault line kind false) s) (fun t => tpDiags (line - 1) t = setBit (tpDiags (line - 1) s) kind)) ∧
  (running s = true → line = 2 ∨ line = 3 → 1 ≤ kind → kind ≤ 3 → bitSet (tpDiags (line - 1) s) kind = true →
    Completes (exec (.signalLineFault line kind true) s) (fun t => tpDiags (line - 1) t = clrBit (tpDiags (line - 1) s) kind))) ∧
  (∀ (m : MbxCmd) (k : Nat) (ref : CmdRef) (e : Erode) (s u : State),
  (begun 0x0D00 m s = some (ref, u) → m.payload = [byte k, 0, 0, 0] → k ∈ [0, 1, 16, 17] → u.soundRun = none → Completes (exec (.soundingRun m) s) (fun t =>
    t.soundRun = none ∧ t.lf = u.lf ∧ t.uwb = u.uwb ∧ t.rad = u.rad)) ∧
  (running s = true → Completes (exec .erosionSample s) (fun t => t.eroAt = max s.clk.mono (s.eroAt + dayUs) ∧
    t.store.queue.length = s.store.queue.length + 1)) ∧
  (begun 0x0D01 m s = some (ref, u) → m.payload.length = 4 → 3 ≤ u8 m.payload 0 → u8 m.payload 0 ≤ 8 → zeros m.payload 2 2 = true →
    u.ero.find? (fun x => x.item == u8 m.payload 0 && x.inst == u8 m.payload 1 && x.n ≠ 0) = some e →
    exec (.erosionRead m) s = .next (reply ref ([byte (u8 m.payload 0), byte (u8 m.payload 1)] ++ le32 (twos 32 e.present) ++
      [byte (unitCode (u8 m.payload 0) (u8 m.payload 1)), 0] ++ le16 e.months ++ le16 e.low ++ le16 e.high ++ [byte e.conf]) u)) ∧
  (begun 0x0D01 m s = some (ref, u) → m.payload.length = 4 → 1 ≤ u8 m.payload 0 → u8 m.payload 0 ≤ 2 → zeros m.payload 2 2 = true →
    (lfChan u (u8 m.payload 1)).disabled = false → u.ero.find? (fun x => x.item == u8 m.payload 0 && x.inst == u8 m.payload 1 && x.n ≠ 0) = some e →
    exec (.erosionRead m) s = .next (reply ref ([byte (u8 m.payload 0), byte (u8 m.payload 1)] ++ le32 (twos 32 e.present) ++
      [byte (unitCode (u8 m.payload 0) (u8 m.payload 1)), 0] ++ le16 e.months ++ le16 e.low ++ le16 e.high ++ [byte e.conf]) u)))

end
end

