-- ==== Sys2Proof/Laws/Auham.lean ====
section
/-! SUPPORT. What the shared operations of the Auham instructions do: registers, the end of an instruction, a load. -/

namespace Sys2Proof.Machine
open Sys2Proof

/-- At a boundary where the core carries out an instruction, `instr` runs its effect. -/
theorem instr_at {c : CoreId} {k : State → State} {s : State} (h : atBoundary c s = true) : instr c k s = .next (k s) := by
  unfold atBoundary at h
  cases c <;> simp_all [instr, next]
  intro h1; simp_all

/-- What a register reads after a write: g0 stays 0 (R408). -/
theorem get_put (k : Core) (gd r : Reg) (v : Word) : (k.put gd v).get r = if r = gd ∧ r ≠ 0 then v else k.get r := by
  unfold Core.put Core.get
  by_cases h : gd = 0
  · by_cases h2 : r = 0 <;> simp_all
  · by_cases h2 : r = 0
    · simp [h2]
    · by_cases h3 : r = gd
      · subst h3; simp [h]
      · simp [h, h2, h3]
        rw [Vector.getElem_set_ne]
        intro e; exact h3 (Fin.ext e.symm)
@[simp] theorem put_pc (k : Core) (gd v) : (k.put gd v).pc = k.pc := by unfold Core.put; split <;> rfl
@[simp] theorem put_cycle (k : Core) (gd v) : (k.put gd v).cycle = k.cycle := by unfold Core.put; split <;> rfl
@[simp] theorem put_ov (k : Core) (gd v) : (k.put gd v).ov = k.ov := by unfold Core.put; split <;> rfl
@[simp] theorem put_dz (k : Core) (gd v) : (k.put gd v).dz = k.dz := by unfold Core.put; split <;> rfl
@[simp] theorem put_sat (k : Core) (gd v) : (k.put gd v).sat = k.sat := by unfold Core.put; split <;> rfl
/-- A write of a register changes registers alone. -/
theorem put_rest (k : Core) (gd v) : { k with regs := (k.put gd v).regs } = k.put gd v := by unfold Core.put; split <;> rfl
/-- Reading a register rests on the registers alone. -/
theorem get_regs (k k' : Core) (r) (h : k.regs = k'.regs) : k.get r = k'.get r := by unfold Core.get; rw [h]
/-- What the end of a register instruction leaves. -/
theorem done_at (c : CoreId) (n gd v) (x : Sticky) (s : State) :
    Computed c n gd v x s (finish c n ((coreOf s c).pc + 4) (onCore c (fun k => (k.stick x).put gd v) s)) := by
  have hr : ∀ k : Core, (k.stick x).put gd v = { k.stick x with regs := ((k.stick x).put gd v).regs } := fun k => (put_rest _ _ _).symm
  have hg : ∀ (k : Core) r, ((k.stick x).put gd v).get r = if r = gd ∧ r ≠ 0 then v else k.get r := by
    intro k r; rw [get_put]; rfl
  cases c
  · refine ⟨fun r => ?_, ?_⟩
    · rw [← hg]; exact get_regs _ _ _ rfl
    · simp only [finish, spend, onCore, coreOf, Elsewhere]; rw [hr]; simp [Core.stick]
  · refine ⟨fun r => ?_, ?_⟩
    · rw [← hg]; exact get_regs _ _ _ rfl
    · simp only [finish, spend, onCore, coreOf, Elsewhere, State.onExt]; rw [hr]; simp [Core.stick]
/-- A register instruction completes, and with what. -/
theorem compute_at {c : CoreId} {n gd f} {s : State} (h : atBoundary c s = true) :
    Completes (compute c n gd f s) (Computed c n gd (f (coreOf s c)).1 (f (coreOf s c)).2 s) :=
  ⟨_, by rw [compute, instr_at h]; rfl, done_at ..⟩
/-- What the end of a jump leaves. -/
theorem jumped_at (c : CoreId) (n pc gd v) (s : State) :
    Jumped c n pc gd v s (finish c n pc (onCore c (fun k => k.put gd v) s)) := by
  have hr : ∀ k : Core, k.put gd v = { k with regs := (k.put gd v).regs } := fun k => (put_rest _ _ _).symm
  cases c
  · refine ⟨fun r => ?_, ?_⟩
    · rw [← get_put]; exact get_regs _ _ _ rfl
    · simp only [finish, spend, onCore, coreOf, Elsewhere]; rw [hr]; simp
  · refine ⟨fun r => ?_, ?_⟩
    · rw [← get_put]; exact get_regs _ _ _ rfl
    · simp only [finish, spend, onCore, coreOf, Elsewhere, State.onExt]; rw [hr]; simp
/-- `compute_at` where the answer is known. -/
theorem compute_next {c n gd x} {s : State} (h : atBoundary c s = true) {f : Core → Word × Sticky} {v : Word} (e2 : f (coreOf s c) = (v, x)) :
    Completes (compute c n gd f s) (Computed c n gd v x s) := by
  have := compute_at (n:=n) (gd:=gd) (f:=f) h; rw [e2] at this; exact this

/-- What a load that is aligned, admitted and readable leaves. -/
theorem loadStep_at {c gd ga imm n ext} {s : State}
   (h1 : ((coreOf s c).get ga + imm.signExtend 32).toNat % n = 0) (h2 : admits s c 1 ((coreOf s c).get ga + imm.signExtend 32).toNat n = true)
   (h3 : match c with | .cc => Config.ccDevice ((coreOf s c).get ga + imm.signExtend 32).toNat = false | .ext => extMemOk s 1 ((coreOf s c).get ga + imm.signExtend 32).toNat n = true) :
   Computed c 2 gd (ext (BitVec.ofNat 32 (leNat (memReadN (coreOf s c).mem ((coreOf s c).get ga + imm.signExtend 32).toNat n)))) {} s (loadStep c gd ga imm n ext s) := by
  have ht : accessTrap s c 1 ((coreOf s c).get ga + imm.signExtend 32) n = 0 := by
    unfold accessTrap; rw [if_neg (by rw [h1]; simp), h2]; rfl
  simp only [loadStep, sx, ht, ne_eq, not_true_eq_false, if_false]
  have hl : load c ((coreOf s c).get ga + imm.signExtend 32).toNat n s = (BitVec.ofNat 32 (leNat (memReadN (coreOf s c).mem ((coreOf s c).get ga + imm.signExtend 32).toNat n)), s) := by
    cases c <;> simp_all [load, coreOf]
  rw [hl]
  have hk : ∀ v : Word, (fun k : Core => k.put gd v) = fun k => (k.stick {}).put gd v := by intro v; funext k; simp [Core.stick]
  simp only [hk]
  exact done_at c 2 gd (ext (BitVec.ofNat 32 (leNat (memReadN (coreOf s c).mem ((coreOf s c).get ga + imm.signExtend 32).toNat n)))) {} s
/-- Such a load completes. -/
theorem load_at {c gd ga imm n ext} {s : State} (h : atBoundary c s = true)
   (h1 : ((coreOf s c).get ga + imm.signExtend 32).toNat % n = 0) (h2 : admits s c 1 ((coreOf s c).get ga + imm.signExtend 32).toNat n = true)
   (h3 : match c with | .cc => Config.ccDevice ((coreOf s c).get ga + imm.signExtend 32).toNat = false | .ext => extMemOk s 1 ((coreOf s c).get ga + imm.signExtend 32).toNat n = true) :
   Completes (loadInto c gd ga imm n ext s) (Computed c 2 gd (ext (BitVec.ofNat 32 (leNat (memReadN (coreOf s c).mem ((coreOf s c).get ga + imm.signExtend 32).toNat n)))) {} s) :=
  ⟨_, by rw [loadInto, instr_at h], loadStep_at h1 h2 h3⟩
/-- Without a difference of the second core the comparison changes nothing (R414). -/
@[simp] theorem lockstep_none (c : CoreId) (s : State) : lockstep c none s = s := by cases c <;> rfl
/-- The extension core has no second core. -/
@[simp] theorem lockstep_ext (k : Option Nat) (s : State) : lockstep .ext k s = s := rfl

end Sys2Proof.Machine
end

