-- ==== Sys2Proof/Laws/Exec.lean ====
section
/-! SUPPORT. Each command's arm of exec, and the step, as equations: later proofs cite these and never unfold exec. -/

namespace Sys2Proof.Machine
open Sys2Proof

@[simp] theorem exec_powerOn (vbat vddio : Nat) (s : State) : exec (.powerOn vbat vddio) s = execPowerOn vbat vddio s := rfl
@[simp] theorem exec_resetRelease (xtalStable cwPair cwRole testEn : Bool) (pufFails : Nat) (s : State) : exec (.resetRelease xtalStable cwPair cwRole testEn pufFails) s = execResetRelease xtalStable cwPair cwRole testEn pufFails s := rfl
@[simp] theorem exec_firmwareStart (s : State) : exec (.firmwareStart) s = execFirmwareStart s := rfl
@[simp] theorem exec_mailboxReady (s : State) : exec (.mailboxReady) s = execMailboxReady s := rfl
@[simp] theorem exec_vholdCharged (s : State) : exec (.vholdCharged) s = execVholdCharged s := rfl
@[simp] theorem exec_holdMeasureEnd (stepUv fallUv : Nat) (s : State) : exec (.holdMeasureEnd stepUv fallUv) s = execHoldMeasureEnd stepUv fallUv s := rfl
@[simp] theorem exec_supplyMonitorCrossing (m : Monitor) (mv : Nat) (s : State) : exec (.supplyMonitorCrossing m mv) s = execSupplyMonitorCrossing m mv s := rfl
@[simp] theorem exec_overvoltageTrip (group mv : Nat) (s : State) : exec (.overvoltageTrip group mv) s = execOvervoltageTrip group mv s := rfl
@[simp] theorem exec_railFault (rail mv : Nat) (s : State) : exec (.railFault rail mv) s = execRailFault rail mv s := rfl
@[simp] theorem exec_vbatLoss (mv : Nat) (s : State) : exec (.vbatLoss mv) s = execVbatLoss mv s := rfl
@[simp] theorem exec_vbatReturn (mv : Nat) (s : State) : exec (.vbatReturn mv) s = execVbatReturn mv s := rfl
@[simp] theorem exec_rideThroughExpiry (s : State) : exec (.rideThroughExpiry) s = execRideThroughExpiry s := rfl
@[simp] theorem exec_vholdFloor (s : State) : exec (.vholdFloor) s = execVholdFloor s := rfl
@[simp] theorem exec_resetNAssert (lowUs : Nat) (s : State) : exec (.resetNAssert lowUs) s = execResetNAssert lowUs s := rfl
@[simp] theorem exec_watchdogExpiry (s : State) : exec (.watchdogExpiry) s = execWatchdogExpiry s := rfl
@[simp] theorem exec_hostReset (s : State) : exec (.hostReset) s = execHostReset s := rfl
@[simp] theorem exec_isthmusTransferFail (repeats direction kind : Nat) (s : State) : exec (.isthmusTransferFail repeats direction kind) s = execIsthmusTransferFail repeats direction kind s := rfl
@[simp] theorem exec_isthmusWatchdogExpiry (s : State) : exec (.isthmusWatchdogExpiry) s = execIsthmusWatchdogExpiry s := rfl
@[simp] theorem exec_xtal26Fail (s : State) : exec (.xtal26Fail) s = execXtal26Fail s := rfl
@[simp] theorem exec_xtal26Recovered (s : State) : exec (.xtal26Recovered) s = execXtal26Recovered s := rfl
@[simp] theorem exec_xtal32Qualified (s : State) : exec (.xtal32Qualified) s = execXtal32Qualified s := rfl
@[simp] theorem exec_xtal32Absent (s : State) : exec (.xtal32Absent) s = execXtal32Absent s := rfl
@[simp] theorem exec_xtal32Fail (s : State) : exec (.xtal32Fail) s = execXtal32Fail s := rfl
@[simp] theorem exec_slowPeriodMeasure (period : Nat) (s : State) : exec (.slowPeriodMeasure period) s = execSlowPeriodMeasure period s := rfl
@[simp] theorem exec_tideCorrection (pAfter : Nat) (s : State) : exec (.tideCorrection pAfter) s = execTideCorrection pAfter s := rfl
@[simp] theorem exec_tideSlewStep (s : State) : exec (.tideSlewStep) s = execTideSlewStep s := rfl
@[simp] theorem exec_tideWrap (s : State) : exec (.tideWrap) s = execTideWrap s := rfl
@[simp] theorem exec_floodIdleExpiry (s : State) : exec (.floodIdleExpiry) s = execFloodIdleExpiry s := rfl
@[simp] theorem exec_slackIdleExpiry (s : State) : exec (.slackIdleExpiry) s = execSlackIdleExpiry s := rfl
@[simp] theorem exec_neapEntryDone (s : State) : exec (.neapEntryDone) s = execNeapEntryDone s := rfl
@[simp] theorem exec_spiCsAssert (low : Bool) (s : State) : exec (.spiCsAssert low) s = execSpiCsAssert low s := rfl
@[simp] theorem exec_spiWriteFrame (member : Bool) (bytes : Bytes) (s : State) : exec (.spiWriteFrame member bytes) s = execSpiWriteFrame member bytes s := rfl
@[simp] theorem exec_spiReadFrame (member : Bool) (clocked : Nat) (s : State) : exec (.spiReadFrame member clocked) s = execSpiReadFrame member clocked s := rfl
@[simp] theorem exec_spiStatusOnly (member : Bool) (type clocked : Nat) (s : State) : exec (.spiStatusOnly member type clocked) s = execSpiStatusOnly member type clocked s := rfl
@[simp] theorem exec_seqGapHoldoffEnd (member : Bool) (lane : Nat) (s : State) : exec (.seqGapHoldoffEnd member lane) s = execSeqGapHoldoffEnd member lane s := rfl
@[simp] theorem exec_ctlResend (member : Bool) (ctlSeq lane first : Nat) (s : State) : exec (.ctlResend member ctlSeq lane first) s = execCtlResend member ctlSeq lane first s := rfl
@[simp] theorem exec_ctlEvtAck (member : Bool) (ctlSeq upTo : Nat) (s : State) : exec (.ctlEvtAck member ctlSeq upTo) s = execCtlEvtAck member ctlSeq upTo s := rfl
@[simp] theorem exec_isotpSingleFrame (member : Bool) (bytes : Bytes) (s : State) : exec (.isotpSingleFrame member bytes) s = execIsotpSingleFrame member bytes s := rfl
@[simp] theorem exec_isotpFirstFrame (member : Bool) (len : Nat) (bytes : Bytes) (s : State) : exec (.isotpFirstFrame member len bytes) s = execIsotpFirstFrame member len bytes s := rfl
@[simp] theorem exec_isotpConsecutiveFrame (member : Bool) (sn : Nat) (bytes : Bytes) (s : State) : exec (.isotpConsecutiveFrame member sn bytes) s = execIsotpConsecutiveFrame member sn bytes s := rfl
@[simp] theorem exec_isotpFlowControl (member : Bool) (status blockSize stMin : Nat) (s : State) : exec (.isotpFlowControl member status blockSize stMin) s = execIsotpFlowControl member status blockSize stMin s := rfl
@[simp] theorem exec_isotpWaitTimer (member : Bool) (s : State) : exec (.isotpWaitTimer member) s = execIsotpWaitTimer member s := rfl
@[simp] theorem exec_isotpNCrTimeout (member : Bool) (s : State) : exec (.isotpNCrTimeout member) s = execIsotpNCrTimeout member s := rfl
@[simp] theorem exec_isotpNBsTimeout (member : Bool) (s : State) : exec (.isotpNBsTimeout member) s = execIsotpNBsTimeout member s := rfl
@[simp] theorem exec_transportTrialExpiry (s : State) : exec (.transportTrialExpiry) s = execTransportTrialExpiry s := rfl
@[simp] theorem exec_secureOpenExpiry (member : Bool) (s : State) : exec (.secureOpenExpiry member) s = execSecureOpenExpiry member s := rfl
@[simp] theorem exec_authStormHoldEnd (member : Bool) (s : State) : exec (.authStormHoldEnd member) s = execAuthStormHoldEnd member s := rfl
@[simp] theorem exec_hello (m : MbxCmd) (s : State) : exec (.hello m) s = execHello m s := rfl
@[simp] theorem exec_caps (m : MbxCmd) (s : State) : exec (.caps m) s = execCaps m s := rfl
@[simp] theorem exec_ping (m : MbxCmd) (s : State) : exec (.ping m) s = execPing m s := rfl
@[simp] theorem exec_secureOpen (m : MbxCmd) (s : State) : exec (.secureOpen m) s = execSecureOpen m s := rfl
@[simp] theorem exec_secureConfirm (m : MbxCmd) (s : State) : exec (.secureConfirm m) s = execSecureConfirm m s := rfl
@[simp] theorem exec_sysStatus (m : MbxCmd) (s : State) : exec (.sysStatus m) s = execSysStatus m s := rfl
@[simp] theorem exec_powerRequest (m : MbxCmd) (s : State) : exec (.powerRequest m) s = execPowerRequest m s := rfl
@[simp] theorem exec_resetCause (m : MbxCmd) (s : State) : exec (.resetCause m) s = execResetCause m s := rfl
@[simp] theorem exec_sysReset (m : MbxCmd) (s : State) : exec (.sysReset m) s = execSysReset m s := rfl
@[simp] theorem exec_paramGet (m : MbxCmd) (s : State) : exec (.paramGet m) s = execParamGet m s := rfl
@[simp] theorem exec_paramSet (m : MbxCmd) (s : State) : exec (.paramSet m) s = execParamSet m s := rfl
@[simp] theorem exec_strandedExit (m : MbxCmd) (s : State) : exec (.strandedExit m) s = execStrandedExit m s := rfl
@[simp] theorem exec_faultList (m : MbxCmd) (s : State) : exec (.faultList m) s = execFaultList m s := rfl
@[simp] theorem exec_lfBurst (m : MbxCmd) (temp : Int) (s : State) : exec (.lfBurst m temp) s = execLfBurst m temp s := rfl
@[simp] theorem exec_lfChannelStatus (m : MbxCmd) (s : State) : exec (.lfChannelStatus m) s = execLfChannelStatus m s := rfl
@[simp] theorem exec_lfChannelEnable (m : MbxCmd) (found : Nat) (s : State) : exec (.lfChannelEnable m found) s = execLfChannelEnable m found s := rfl
@[simp] theorem exec_lfSounding (m : MbxCmd) (s : State) : exec (.lfSounding m) s = execLfSounding m s := rfl
@[simp] theorem exec_zoneWrite (m : MbxCmd) (s : State) : exec (.zoneWrite m) s = execZoneWrite m s := rfl
@[simp] theorem exec_zoneRead (m : MbxCmd) (s : State) : exec (.zoneRead m) s = execZoneRead m s := rfl
@[simp] theorem exec_synthGroupWrite (m : MbxCmd) (s : State) : exec (.synthGroupWrite m) s = execSynthGroupWrite m s := rfl
@[simp] theorem exec_couplingRead (m : MbxCmd) (s : State) : exec (.couplingRead m) s = execCouplingRead m s := rfl
@[simp] theorem exec_zoneState (m : MbxCmd) (s : State) : exec (.zoneState m) s = execZoneState m s := rfl
@[simp] theorem exec_tokenLearn (m : MbxCmd) (s : State) : exec (.tokenLearn m) s = execTokenLearn m s := rfl
@[simp] theorem exec_tokenRevoke (m : MbxCmd) (s : State) : exec (.tokenRevoke m) s = execTokenRevoke m s := rfl
@[simp] theorem exec_tokenRead (m : MbxCmd) (s : State) : exec (.tokenRead m) s = execTokenRead m s := rfl
@[simp] theorem exec_uwbPortStatus (m : MbxCmd) (s : State) : exec (.uwbPortStatus m) s = execUwbPortStatus m s := rfl
@[simp] theorem exec_uwbReflectometry (m : MbxCmd) (s : State) : exec (.uwbReflectometry m) s = execUwbReflectometry m s := rfl
@[simp] theorem exec_rangingStatus (m : MbxCmd) (s : State) : exec (.rangingStatus m) s = execRangingStatus m s := rfl
@[simp] theorem exec_pathStart (m : MbxCmd) (s : State) : exec (.pathStart m) s = execPathStart m s := rfl
@[simp] theorem exec_sessionEnd (m : MbxCmd) (s : State) : exec (.sessionEnd m) s = execSessionEnd m s := rfl
@[simp] theorem exec_sessionStatus (m : MbxCmd) (s : State) : exec (.sessionStatus m) s = execSessionStatus m s := rfl
@[simp] theorem exec_transponderStart (m : MbxCmd) (s : State) : exec (.transponderStart m) s = execTransponderStart m s := rfl
@[simp] theorem exec_startWithdraw (m : MbxCmd) (s : State) : exec (.startWithdraw m) s = execStartWithdraw m s := rfl
@[simp] theorem exec_doorMapWrite (m : MbxCmd) (s : State) : exec (.doorMapWrite m) s = execDoorMapWrite m s := rfl
@[simp] theorem exec_radioStatus (m : MbxCmd) (s : State) : exec (.radioStatus m) s = execRadioStatus m s := rfl
@[simp] theorem exec_powerTableWrite (m : MbxCmd) (s : State) : exec (.powerTableWrite m) s = execPowerTableWrite m s := rfl
@[simp] theorem exec_regRecordWrite (m : MbxCmd) (s : State) : exec (.regRecordWrite m) s = execRegRecordWrite m s := rfl
@[simp] theorem exec_regRecordRead (m : MbxCmd) (s : State) : exec (.regRecordRead m) s = execRegRecordRead m s := rfl
@[simp] theorem exec_radioCalRun (m : MbxCmd) (s : State) : exec (.radioCalRun m) s = execRadioCalRun m s := rfl
@[simp] theorem exec_radioTestTx (m : MbxCmd) (temp : Int) (s : State) : exec (.radioTestTx m temp) s = execRadioTestTx m temp s := rfl
@[simp] theorem exec_senseStatus (m : MbxCmd) (s : State) : exec (.senseStatus m) s = execSenseStatus m s := rfl
@[simp] theorem exec_wakeMapWrite (m : MbxCmd) (s : State) : exec (.wakeMapWrite m) s = execWakeMapWrite m s := rfl
@[simp] theorem exec_contactStatus (m : MbxCmd) (s : State) : exec (.contactStatus m) s = execContactStatus m s := rfl
@[simp] theorem exec_senseRebase (m : MbxCmd) (s : State) : exec (.senseRebase m) s = execSenseRebase m s := rfl
@[simp] theorem exec_evtFetch (m : MbxCmd) (s : State) : exec (.evtFetch m) s = execEvtFetch m s := rfl
@[simp] theorem exec_logRead (m : MbxCmd) (s : State) : exec (.logRead m) s = execLogRead m s := rfl
@[simp] theorem exec_logCheckpoint (m : MbxCmd) (s : State) : exec (.logCheckpoint m) s = execLogCheckpoint m s := rfl
@[simp] theorem exec_storeStatus (m : MbxCmd) (s : State) : exec (.storeStatus m) s = execStoreStatus m s := rfl
@[simp] theorem exec_stageWrite (m : MbxCmd) (s : State) : exec (.stageWrite m) s = execStageWrite m s := rfl
@[simp] theorem exec_fwActivate (m : MbxCmd) (s : State) : exec (.fwActivate m) s = execFwActivate m s := rfl
@[simp] theorem exec_grantApply (m : MbxCmd) (s : State) : exec (.grantApply m) s = execGrantApply m s := rfl
@[simp] theorem exec_attest (m : MbxCmd) (s : State) : exec (.attest m) s = execAttest m s := rfl
@[simp] theorem exec_objectRead (m : MbxCmd) (s : State) : exec (.objectRead m) s = execObjectRead m s := rfl
@[simp] theorem exec_tamperStatus (m : MbxCmd) (s : State) : exec (.tamperStatus m) s = execTamperStatus m s := rfl
@[simp] theorem exec_tamperMapWrite (m : MbxCmd) (s : State) : exec (.tamperMapWrite m) s = execTamperMapWrite m s := rfl
@[simp] theorem exec_pairStatus (m : MbxCmd) (s : State) : exec (.pairStatus m) s = execPairStatus m s := rfl
@[simp] theorem exec_pairSwitchover (m : MbxCmd) (s : State) : exec (.pairSwitchover m) s = execPairSwitchover m s := rfl
@[simp] theorem exec_pairAdmit (m : MbxCmd) (s : State) : exec (.pairAdmit m) s = execPairAdmit m s := rfl
@[simp] theorem exec_pluginLoad (m : MbxCmd) (s : State) : exec (.pluginLoad m) s = execPluginLoad m s := rfl
@[simp] theorem exec_pluginUnload (m : MbxCmd) (s : State) : exec (.pluginUnload m) s = execPluginUnload m s := rfl
@[simp] theorem exec_extStatus (m : MbxCmd) (s : State) : exec (.extStatus m) s = execExtStatus m s := rfl
@[simp] theorem exec_soundingRun (m : MbxCmd) (s : State) : exec (.soundingRun m) s = execSoundingRun m s := rfl
@[simp] theorem exec_erosionRead (m : MbxCmd) (s : State) : exec (.erosionRead m) s = execErosionRead m s := rfl
@[simp] theorem exec_busStatus (m : MbxCmd) (s : State) : exec (.busStatus m) s = execBusStatus m s := rfl
@[simp] theorem exec_gpioConfig (m : MbxCmd) (s : State) : exec (.gpioConfig m) s = execGpioConfig m s := rfl
@[simp] theorem exec_gpioWrite (m : MbxCmd) (s : State) : exec (.gpioWrite m) s = execGpioWrite m s := rfl
@[simp] theorem exec_gpioRead (m : MbxCmd) (s : State) : exec (.gpioRead m) s = execGpioRead m s := rfl
@[simp] theorem exec_pathBegin (s : State) : exec (.pathBegin) s = execPathBegin s := rfl
@[simp] theorem exec_pathDeadlineExpiry (s : State) : exec (.pathDeadlineExpiry) s = execPathDeadlineExpiry s := rfl
@[simp] theorem exec_lfBurstBegin (temp : Int) (s : State) : exec (.lfBurstBegin temp) s = execLfBurstBegin temp s := rfl
@[simp] theorem exec_lfBurstEnd (energyUj : Nat) (overflow : Nat) (recs : List WinRec) (temp : Int) (s : State) : exec (.lfBurstEnd energyUj overflow recs temp) s = execLfBurstEnd energyUj overflow recs temp s := rfl
@[simp] theorem exec_lfValidationDone (s : State) : exec (.lfValidationDone) s = execLfValidationDone s := rfl
@[simp] theorem exec_lfDriveFault (chan bit : Nat) (s : State) : exec (.lfDriveFault chan bit) s = execLfDriveFault chan bit s := rfl
@[simp] theorem exec_offStateScan (gnd bat cable : Nat) (s : State) : exec (.offStateScan gnd bat cable) s = execOffStateScan gnd bat cable s := rfl
@[simp] theorem exec_soundingChannelDone (chan : Nat) (fit : RingFit) (gndShort batShort cableShort : Bool) (s : State) : exec (.soundingChannelDone chan fit gndShort batShort cableShort) s = execSoundingChannelDone chan fit gndShort batShort cableShort s := rfl
@[simp] theorem exec_autoSounding (chan : Nat) (s : State) : exec (.autoSounding chan) s = execAutoSounding chan s := rfl
@[simp] theorem exec_keepFreshRefresh (group : Nat) (temp : Int) (s : State) : exec (.keepFreshRefresh group temp) s = execKeepFreshRefresh group temp s := rfl
@[simp] theorem exec_lfDutyBinRoll (s : State) : exec (.lfDutyBinRoll) s = execLfDutyBinRoll s := rfl
@[simp] theorem exec_responseWindowOpen (temp : Int) (s : State) : exec (.responseWindowOpen temp) s = execResponseWindowOpen temp s := rfl
@[simp] theorem exec_slotEnd (energy sync : Bool) (overflow : Nat) (s : State) : exec (.slotEnd energy sync overflow) s = execSlotEnd energy sync overflow s := rfl
@[simp] theorem exec_answerReceived (slot : Nat) (body : Bytes) (offsetNs carrier : Int) (s : State) : exec (.answerReceived slot body offsetNs carrier) s = execAnswerReceived slot body offsetNs carrier s := rfl
@[simp] theorem exec_proofReceived (body : Bytes) (offsetNs : Int) (s : State) : exec (.proofReceived body offsetNs) s = execProofReceived body offsetNs s := rfl
@[simp] theorem exec_proofTimeout (s : State) : exec (.proofTimeout) s = execProofTimeout s := rfl
@[simp] theorem exec_locatePoll (plan : Nat) (temp : Int) (s : State) : exec (.locatePoll plan temp) s = execLocatePoll plan temp s := rfl
@[simp] theorem exec_locateReportReceived (slot : Nat) (body : Bytes) (s : State) : exec (.locateReportReceived slot body) s = execLocateReportReceived slot body s := rfl
@[simp] theorem exec_pluginFrameReceived (body : Bytes) (syncEnd : Nat) (offsetUs : Option Int) (s : State) : exec (.pluginFrameReceived body syncEnd offsetUs) s = execPluginFrameReceived body syncEnd offsetUs s := rfl
@[simp] theorem exec_pathZoneDecision (s : State) : exec (.pathZoneDecision) s = execPathZoneDecision s := rfl
@[simp] theorem exec_zonePeriodDecision (s : State) : exec (.zonePeriodDecision) s = execZonePeriodDecision s := rfl
@[simp] theorem exec_renewalBurstDue (token : Nat) (s : State) : exec (.renewalBurstDue token) s = execRenewalBurstDue token s := rfl
@[simp] theorem exec_rangingBurstBegin (token : Nat) (s : State) : exec (.rangingBurstBegin token) s = execRangingBurstBegin token s := rfl
@[simp] theorem exec_rangingRoundStart (token port : Nat) (s : State) : exec (.rangingRoundStart token port) s = execRangingRoundStart token port s := rfl
@[simp] theorem exec_uwbResponseReceived (token quality fpPs tround1 treply2 : Nat) (phase : Option Int) (s : State) : exec (.uwbResponseReceived token quality fpPs tround1 treply2 phase) s = execUwbResponseReceived token quality fpPs tround1 treply2 phase s := rfl
@[simp] theorem exec_uwbReportReceived (token : Nat) (payload : Bytes) (s : State) : exec (.uwbReportReceived token payload) s = execUwbReportReceived token payload s := rfl
@[simp] theorem exec_rangingRoundEnd (token overflow : Nat) (s : State) : exec (.rangingRoundEnd token overflow) s = execRangingRoundEnd token overflow s := rfl
@[simp] theorem exec_reflectometryAuto (port : Nat) (s : State) : exec (.reflectometryAuto port) s = execReflectometryAuto port s := rfl
@[simp] theorem exec_reflectometryPortDone (port : Nat) (rhoPermille : Int) (roundTripPs : Nat) (s : State) : exec (.reflectometryPortDone port rhoPermille roundTripPs) s = execReflectometryPortDone port rhoPermille roundTripPs s := rfl
@[simp] theorem exec_uwbSelftestFail (s : State) : exec (.uwbSelftestFail) s = execUwbSelftestFail s := rfl
@[simp] theorem exec_pathEnd (s : State) : exec (.pathEnd) s = execPathEnd s := rfl
@[simp] theorem exec_doorTimeout (door : Nat) (opening : Bool) (s : State) : exec (.doorTimeout door opening) s = execDoorTimeout door opening s := rfl
@[simp] theorem exec_startTimeout (s : State) : exec (.startTimeout) s = execStartTimeout s := rfl
@[simp] theorem exec_gpioPulseEnd (pin : Nat) (s : State) : exec (.gpioPulseEnd pin) s = execGpioPulseEnd pin s := rfl
@[simp] theorem exec_releaseRepeat (s : State) : exec (.releaseRepeat) s = execReleaseRepeat s := rfl
@[simp] theorem exec_releaseFrameTimeout (bus : Nat) (s : State) : exec (.releaseFrameTimeout bus) s = execReleaseFrameTimeout bus s := rfl
@[simp] theorem exec_engineStatus (frame : Bytes) (s : State) : exec (.engineStatus frame) s = execEngineStatus frame s := rfl
@[simp] theorem exec_runInputConfirmed (s : State) : exec (.runInputConfirmed) s = execRunInputConfirmed s := rfl
@[simp] theorem exec_startOutputCheck (aBat aOpen bGnd bOpen : Bool) (s : State) : exec (.startOutputCheck aBat aOpen bGnd bOpen) s = execStartOutputCheck aBat aOpen bGnd bOpen s := rfl
@[simp] theorem exec_startOutputFault (output kind : Nat) (s : State) : exec (.startOutputFault output kind) s = execStartOutputFault output kind s := rfl
@[simp] theorem exec_tpChargeEnd (s : State) : exec (.tpChargeEnd) s = execTpChargeEnd s := rfl
@[simp] theorem exec_tpOpenCheck (currentMa : Nat) (s : State) : exec (.tpOpenCheck currentMa) s = execTpOpenCheck currentMa s := rfl
@[simp] theorem exec_tpIdentReceived (frame : Bytes) (s : State) : exec (.tpIdentReceived frame) s = execTpIdentReceived frame s := rfl
@[simp] theorem exec_tpResponseReceived (frame : Bytes) (s : State) : exec (.tpResponseReceived frame) s = execTpResponseReceived frame s := rfl
@[simp] theorem exec_tpSyncTimeout (s : State) : exec (.tpSyncTimeout) s = execTpSyncTimeout s := rfl
@[simp] theorem exec_radioBgCalStep (temp : Int) (s : State) : exec (.radioBgCalStep temp) s = execRadioBgCalStep temp s := rfl
@[simp] theorem exec_radioCalStepDone (value : Nat) (dc : List Nat) (s : State) : exec (.radioCalStepDone value dc) s = execRadioCalStepDone value dc s := rfl
@[simp] theorem exec_radioTxRequest (freq power airUs prec : Nat) (temp : Int) (s : State) : exec (.radioTxRequest freq power airUs prec temp) s = execRadioTxRequest freq power airUs prec temp s := rfl
@[simp] theorem exec_hopLockFail (chan : Nat) (s : State) : exec (.hopLockFail chan) s = execHopLockFail chan s := rfl
@[simp] theorem exec_radioPacketEnd (vswr : Nat) (fwd : Int) (s : State) : exec (.radioPacketEnd vswr fwd) s = execRadioPacketEnd vswr fwd s := rfl
@[simp] theorem exec_radioTestTxEnd (vswr : Nat) (fwd : Int) (s : State) : exec (.radioTestTxEnd vswr fwd) s = execRadioTestTxEnd vswr fwd s := rfl
@[simp] theorem exec_tunerAcquire (band : Nat) (temp : Int) (s : State) : exec (.tunerAcquire band temp) s = execTunerAcquire band temp s := rfl
@[simp] theorem exec_coexGrantAssert (s : State) : exec (.coexGrantAssert) s = execCoexGrantAssert s := rfl
@[simp] theorem exec_coexGrantNegate (s : State) : exec (.coexGrantNegate) s = execCoexGrantNegate s := rfl
@[simp] theorem exec_coexWaitExpiry (s : State) : exec (.coexWaitExpiry) s = execCoexWaitExpiry s := rfl
@[simp] theorem exec_radioDutyBinRoll (s : State) : exec (.radioDutyBinRoll) s = execRadioDutyBinRoll s := rfl
@[simp] theorem exec_scan (convs : List Conv) (eol : List EolSample) (guard1Ok guard2Ok : Bool) (s : State) : exec (.scan convs eol guard1Ok guard2Ok) s = execScan convs eol guard1Ok guard2Ok s := rfl
@[simp] theorem exec_confirmConversion (chan counts : Nat) (s : State) : exec (.confirmConversion chan counts) s = execConfirmConversion chan counts s := rfl
@[simp] theorem exec_baselineDrift (chan : Nat) (s : State) : exec (.baselineDrift chan) s = execBaselineDrift chan s := rfl
@[simp] theorem exec_maxTouchExpiry (chan : Nat) (s : State) : exec (.maxTouchExpiry chan) s = execMaxTouchExpiry chan s := rfl
@[simp] theorem exec_contactChange (input : Nat) (high : Bool) (s : State) : exec (.contactChange input high) s = execContactChange input high s := rfl
@[simp] theorem exec_stuckTimeout (input : Nat) (s : State) : exec (.stuckTimeout input) s = execStuckTimeout input s := rfl
@[simp] theorem exec_wakeNAssert (s : State) : exec (.wakeNAssert) s = execWakeNAssert s := rfl
@[simp] theorem exec_canWake (bus : Nat) (frame : Option WakeFrame) (s : State) : exec (.canWake bus frame) s = execCanWake bus frame s := rfl
@[simp] theorem exec_linWake (bus : Nat) (s : State) : exec (.linWake bus) s = execLinWake bus s := rfl
@[simp] theorem exec_tamperTrip (sensor : Nat) (s : State) : exec (.tamperTrip sensor) s = execTamperTrip sensor s := rfl
@[simp] theorem exec_tamperHoldEnd (sensor : Nat) (s : State) : exec (.tamperHoldEnd sensor) s = execTamperHoldEnd sensor s := rfl
@[simp] theorem exec_strikeExpiry (s : State) : exec (.strikeExpiry) s = execStrikeExpiry s := rfl
@[simp] theorem exec_serviceExpiry (s : State) : exec (.serviceExpiry) s = execServiceExpiry s := rfl
@[simp] theorem exec_envelopeVerifyDone (s : State) : exec (.envelopeVerifyDone) s = execEnvelopeVerifyDone s := rfl
@[simp] theorem exec_signatureDone (s : State) : exec (.signatureDone) s = execSignatureDone s := rfl
@[simp] theorem exec_checkpointBegin (s : State) : exec (.checkpointBegin) s = execCheckpointBegin s := rfl
@[simp] theorem exec_counterWriteRetry (s : State) : exec (.counterWriteRetry) s = execCounterWriteRetry s := rfl
@[simp] theorem exec_rngStartupTestPass (source : Nat) (s : State) : exec (.rngStartupTestPass source) s = execRngStartupTestPass source s := rfl
@[simp] theorem exec_rngHealthFail (source test : Nat) (s : State) : exec (.rngHealthFail source test) s = execRngHealthFail source test s := rfl
@[simp] theorem exec_rngBlockReady (source : Nat) (samples : Bytes) (s : State) : exec (.rngBlockReady source samples) s = execRngBlockReady source samples s := rfl
@[simp] theorem exec_rngNoBlockTimeout (s : State) : exec (.rngNoBlockTimeout) s = execRngNoBlockTimeout s := rfl
@[simp] theorem exec_rngFatalRestart (s : State) : exec (.rngFatalRestart) s = execRngFatalRestart s := rfl
@[simp] theorem exec_rngWaitTimeout (user : RngUser) (s : State) : exec (.rngWaitTimeout user) s = execRngWaitTimeout user s := rfl
@[simp] theorem exec_rngDataRead (owner : CoreId) (s : State) : exec (.rngDataRead owner) s = execRngDataRead owner s := rfl
@[simp] theorem exec_rngReseedRequest (owner : CoreId) (s : State) : exec (.rngReseedRequest owner) s = execRngReseedRequest owner s := rfl
@[simp] theorem exec_rngFlush (owner : CoreId) (s : State) : exec (.rngFlush owner) s = execRngFlush owner s := rfl
@[simp] theorem exec_rngTestWrite (value : Word) (s : State) : exec (.rngTestWrite value) s = execRngTestWrite value s := rfl
@[simp] theorem exec_storeWriteBegin (s : State) : exec (.storeWriteBegin) s = execStoreWriteBegin s := rfl
@[simp] theorem exec_storeCopyDone (s : State) : exec (.storeCopyDone) s = execStoreCopyDone s := rfl
@[simp] theorem exec_storeWriteCommit (s : State) : exec (.storeWriteCommit) s = execStoreWriteCommit s := rfl
@[simp] theorem exec_storeDeferredRetry (s : State) : exec (.storeDeferredRetry) s = execStoreDeferredRetry s := rfl
@[simp] theorem exec_reclaim (area : Nat) (copyB : Bool) (s : State) : exec (.reclaim area copyB) s = execReclaim area copyB s := rfl
@[simp] theorem exec_pageEraseDone (page : Nat) (ok : Bool) (s : State) : exec (.pageEraseDone page ok) s = execPageEraseDone page ok s := rfl
@[simp] theorem exec_scrub (corrected : List Nat) (s : State) : exec (.scrub corrected) s = execScrub corrected s := rfl
@[simp] theorem exec_pairCommitTimeout (s : State) : exec (.pairCommitTimeout) s = execPairCommitTimeout s := rfl
@[simp] theorem exec_timerArm (n : Nat) (s : State) : exec (.timerArm n) s = execTimerArm n s := rfl
@[simp] theorem exec_timerStop (n : Nat) (s : State) : exec (.timerStop n) s = execTimerStop n s := rfl
@[simp] theorem exec_timerCompareWrite (n : Nat) (value : Word) (s : State) : exec (.timerCompareWrite n value) s = execTimerCompareWrite n value s := rfl
@[simp] theorem exec_timerCaptureRead (n : Nat) (s : State) : exec (.timerCaptureRead n) s = execTimerCaptureRead n s := rfl
@[simp] theorem exec_timerMatch (n : Nat) (w1c : Word) (ctl : Option (Nat × Word)) (s : State) : exec (.timerMatch n w1c ctl) s = execTimerMatch n w1c ctl s := rfl
@[simp] theorem exec_timerEnd (n : Nat) (w1c : Word) (s : State) : exec (.timerEnd n w1c) s = execTimerEnd n w1c s := rfl
@[simp] theorem exec_timerCapture (n : Nat) (sameClockRead : Bool) (w1c : Word) (s : State) : exec (.timerCapture n sameClockRead w1c) s = execTimerCapture n sameClockRead w1c s := rfl
@[simp] theorem exec_timerWake (s : State) : exec (.timerWake) s = execTimerWake s := rfl
@[simp] theorem exec_registerWrite (addr : RegAddr) (value : Word) (s : State) : exec (.registerWrite addr value) s = execRegisterWrite addr value s := rfl
@[simp] theorem exec_addi (c : CoreId) (gd ga : Reg) (imm : BitVec 16) (s : State) : exec (.addi c gd ga imm) s = execAddi c gd ga imm s := rfl
@[simp] theorem exec_andi (c : CoreId) (gd ga : Reg) (imm : BitVec 16) (s : State) : exec (.andi c gd ga imm) s = execAndi c gd ga imm s := rfl
@[simp] theorem exec_ori (c : CoreId) (gd ga : Reg) (imm : BitVec 16) (s : State) : exec (.ori c gd ga imm) s = execOri c gd ga imm s := rfl
@[simp] theorem exec_xori (c : CoreId) (gd ga : Reg) (imm : BitVec 16) (s : State) : exec (.xori c gd ga imm) s = execXori c gd ga imm s := rfl
@[simp] theorem exec_cmplti (c : CoreId) (gd ga : Reg) (imm : BitVec 16) (s : State) : exec (.cmplti c gd ga imm) s = execCmplti c gd ga imm s := rfl
@[simp] theorem exec_cmpltiu (c : CoreId) (gd ga : Reg) (imm : BitVec 16) (s : State) : exec (.cmpltiu c gd ga imm) s = execCmpltiu c gd ga imm s := rfl
@[simp] theorem exec_slli (c : CoreId) (gd ga : Reg) (imm : BitVec 16) (s : State) : exec (.slli c gd ga imm) s = execSlli c gd ga imm s := rfl
@[simp] theorem exec_srli (c : CoreId) (gd ga : Reg) (imm : BitVec 16) (s : State) : exec (.srli c gd ga imm) s = execSrli c gd ga imm s := rfl
@[simp] theorem exec_srai (c : CoreId) (gd ga : Reg) (imm : BitVec 16) (s : State) : exec (.srai c gd ga imm) s = execSrai c gd ga imm s := rfl
@[simp] theorem exec_movu (c : CoreId) (gd : Reg) (imm : BitVec 21) (s : State) : exec (.movu c gd imm) s = execMovu c gd imm s := rfl
@[simp] theorem exec_leapc (c : CoreId) (gd : Reg) (imm : BitVec 21) (s : State) : exec (.leapc c gd imm) s = execLeapc c gd imm s := rfl
@[simp] theorem exec_lb (c : CoreId) (gd ga : Reg) (imm : BitVec 16) (s : State) : exec (.lb c gd ga imm) s = execLb c gd ga imm s := rfl
@[simp] theorem exec_lbu (c : CoreId) (gd ga : Reg) (imm : BitVec 16) (s : State) : exec (.lbu c gd ga imm) s = execLbu c gd ga imm s := rfl
@[simp] theorem exec_lh (c : CoreId) (gd ga : Reg) (imm : BitVec 16) (s : State) : exec (.lh c gd ga imm) s = execLh c gd ga imm s := rfl
@[simp] theorem exec_lhu (c : CoreId) (gd ga : Reg) (imm : BitVec 16) (s : State) : exec (.lhu c gd ga imm) s = execLhu c gd ga imm s := rfl
@[simp] theorem exec_lw (c : CoreId) (gd ga : Reg) (imm : BitVec 16) (second : Word) (s : State) : exec (.lw c gd ga imm second) s = execLw c gd ga imm second s := rfl
@[simp] theorem exec_sb (c : CoreId) (data base : Reg) (imm : BitVec 16) (s : State) : exec (.sb c data base imm) s = execSb c data base imm s := rfl
@[simp] theorem exec_sh (c : CoreId) (data base : Reg) (imm : BitVec 16) (s : State) : exec (.sh c data base imm) s = execSh c data base imm s := rfl
@[simp] theorem exec_sw (c : CoreId) (data base : Reg) (imm : BitVec 16) (second : Word) (s : State) : exec (.sw c data base imm second) s = execSw c data base imm second s := rfl
@[simp] theorem exec_beq (c : CoreId) (ga gb : Reg) (offset : BitVec 16) (s : State) : exec (.beq c ga gb offset) s = execBeq c ga gb offset s := rfl
@[simp] theorem exec_bne (c : CoreId) (ga gb : Reg) (offset : BitVec 16) (s : State) : exec (.bne c ga gb offset) s = execBne c ga gb offset s := rfl
@[simp] theorem exec_blt (c : CoreId) (ga gb : Reg) (offset : BitVec 16) (s : State) : exec (.blt c ga gb offset) s = execBlt c ga gb offset s := rfl
@[simp] theorem exec_bge (c : CoreId) (ga gb : Reg) (offset : BitVec 16) (s : State) : exec (.bge c ga gb offset) s = execBge c ga gb offset s := rfl
@[simp] theorem exec_bltu (c : CoreId) (ga gb : Reg) (offset : BitVec 16) (s : State) : exec (.bltu c ga gb offset) s = execBltu c ga gb offset s := rfl
@[simp] theorem exec_bgeu (c : CoreId) (ga gb : Reg) (offset : BitVec 16) (s : State) : exec (.bgeu c ga gb offset) s = execBgeu c ga gb offset s := rfl
@[simp] theorem exec_jlnk (c : CoreId) (gd : Reg) (offset : BitVec 21) (s : State) : exec (.jlnk c gd offset) s = execJlnk c gd offset s := rfl
@[simp] theorem exec_jlnkr (c : CoreId) (gd ga : Reg) (imm : BitVec 16) (s : State) : exec (.jlnkr c gd ga imm) s = execJlnkr c gd ga imm s := rfl
@[simp] theorem exec_add (c : CoreId) (gd ga gb : Reg) (second : Word) (s : State) : exec (.add c gd ga gb second) s = execAdd c gd ga gb second s := rfl
@[simp] theorem exec_sub (c : CoreId) (gd ga gb : Reg) (s : State) : exec (.sub c gd ga gb) s = execSub c gd ga gb s := rfl
@[simp] theorem exec_and (c : CoreId) (gd ga gb : Reg) (s : State) : exec (.and c gd ga gb) s = execAnd c gd ga gb s := rfl
@[simp] theorem exec_or (c : CoreId) (gd ga gb : Reg) (s : State) : exec (.or c gd ga gb) s = execOr c gd ga gb s := rfl
@[simp] theorem exec_xor (c : CoreId) (gd ga gb : Reg) (s : State) : exec (.xor c gd ga gb) s = execXor c gd ga gb s := rfl
@[simp] theorem exec_sll (c : CoreId) (gd ga gb : Reg) (s : State) : exec (.sll c gd ga gb) s = execSll c gd ga gb s := rfl
@[simp] theorem exec_srl (c : CoreId) (gd ga gb : Reg) (s : State) : exec (.srl c gd ga gb) s = execSrl c gd ga gb s := rfl
@[simp] theorem exec_sra (c : CoreId) (gd ga gb : Reg) (s : State) : exec (.sra c gd ga gb) s = execSra c gd ga gb s := rfl
@[simp] theorem exec_cmplt (c : CoreId) (gd ga gb : Reg) (s : State) : exec (.cmplt c gd ga gb) s = execCmplt c gd ga gb s := rfl
@[simp] theorem exec_cmpltu (c : CoreId) (gd ga gb : Reg) (s : State) : exec (.cmpltu c gd ga gb) s = execCmpltu c gd ga gb s := rfl
@[simp] theorem exec_neg (c : CoreId) (gd ga : Reg) (s : State) : exec (.neg c gd ga) s = execNeg c gd ga s := rfl
@[simp] theorem exec_addsat (c : CoreId) (gd ga gb : Reg) (s : State) : exec (.addsat c gd ga gb) s = execAddsat c gd ga gb s := rfl
@[simp] theorem exec_subsat (c : CoreId) (gd ga gb : Reg) (s : State) : exec (.subsat c gd ga gb) s = execSubsat c gd ga gb s := rfl
@[simp] theorem exec_negsat (c : CoreId) (gd ga : Reg) (s : State) : exec (.negsat c gd ga) s = execNegsat c gd ga s := rfl
@[simp] theorem exec_mul (c : CoreId) (gd ga gb : Reg) (s : State) : exec (.mul c gd ga gb) s = execMul c gd ga gb s := rfl
@[simp] theorem exec_mulhs (c : CoreId) (gd ga gb : Reg) (s : State) : exec (.mulhs c gd ga gb) s = execMulhs c gd ga gb s := rfl
@[simp] theorem exec_mulhu (c : CoreId) (gd ga gb : Reg) (s : State) : exec (.mulhu c gd ga gb) s = execMulhu c gd ga gb s := rfl
@[simp] theorem exec_divs (c : CoreId) (gd ga gb : Reg) (s : State) : exec (.divs c gd ga gb) s = execDivs c gd ga gb s := rfl
@[simp] theorem exec_divu (c : CoreId) (gd ga gb : Reg) (s : State) : exec (.divu c gd ga gb) s = execDivu c gd ga gb s := rfl
@[simp] theorem exec_rems (c : CoreId) (gd ga gb : Reg) (s : State) : exec (.rems c gd ga gb) s = execRems c gd ga gb s := rfl
@[simp] theorem exec_remu (c : CoreId) (gd ga gb : Reg) (s : State) : exec (.remu c gd ga gb) s = execRemu c gd ga gb s := rfl
@[simp] theorem exec_srvc (c : CoreId) (s : State) : exec (.srvc c) s = execSrvc c s := rfl
@[simp] theorem exec_brkpt (c : CoreId) (s : State) : exec (.brkpt c) s = execBrkpt c s := rfl
@[simp] theorem exec_tret (c : CoreId) (s : State) : exec (.tret c) s = execTret c s := rfl
@[simp] theorem exec_idle (c : CoreId) (s : State) : exec (.idle c) s = execIdle c s := rfl
@[simp] theorem exec_rdstatus (c : CoreId) (gd : Reg) (s : State) : exec (.rdstatus c gd) s = execRdstatus c gd s := rfl
@[simp] theorem exec_wrstatus (c : CoreId) (ga : Reg) (s : State) : exec (.wrstatus c ga) s = execWrstatus c ga s := rfl
@[simp] theorem exec_rdcause (c : CoreId) (gd : Reg) (s : State) : exec (.rdcause c gd) s = execRdcause c gd s := rfl
@[simp] theorem exec_rdtval (c : CoreId) (gd : Reg) (s : State) : exec (.rdtval c gd) s = execRdtval c gd s := rfl
@[simp] theorem exec_rdtpc (c : CoreId) (gd : Reg) (s : State) : exec (.rdtpc c gd) s = execRdtpc c gd s := rfl
@[simp] theorem exec_wrtpc (c : CoreId) (ga : Reg) (s : State) : exec (.wrtpc c ga) s = execWrtpc c ga s := rfl
@[simp] theorem exec_rdcycle (c : CoreId) (gd : Reg) (s : State) : exec (.rdcycle c gd) s = execRdcycle c gd s := rfl
@[simp] theorem exec_rdcycleh (c : CoreId) (gd : Reg) (s : State) : exec (.rdcycleh c gd) s = execRdcycleh c gd s := rfl
@[simp] theorem exec_illegalInstruction (c : CoreId) (word : Word) (s : State) : exec (.illegalInstruction c word) s = execIllegalInstruction c word s := rfl
@[simp] theorem exec_interrupt (line : Nat) (s : State) : exec (.interrupt line) s = execInterrupt line s := rfl
@[simp] theorem exec_ccWatchdogWarning (s : State) : exec (.ccWatchdogWarning) s = execCcWatchdogWarning s := rfl
@[simp] theorem exec_extInvocationBegin (s : State) : exec (.extInvocationBegin) s = execExtInvocationBegin s := rfl
@[simp] theorem exec_extWatchdog (s : State) : exec (.extWatchdog) s = execExtWatchdog s := rfl
@[simp] theorem exec_answerRequest (serial : Nat) (tokenId : Nat) (s : State) : exec (.answerRequest serial tokenId) s = execAnswerRequest serial tokenId s := rfl
@[simp] theorem exec_transmitRequest (buffer preamble start : Nat) (s : State) : exec (.transmitRequest buffer preamble start) s = execTransmitRequest buffer preamble start s := rfl
@[simp] theorem exec_verdict (address : Word) (s : State) : exec (.verdict address) s = execVerdict address s := rfl
@[simp] theorem exec_pluginStepEnd (s : State) : exec (.pluginStepEnd) s = execPluginStepEnd s := rfl
@[simp] theorem exec_fxLookup (tokenId : Word) (s : State) : exec (.fxLookup tokenId) s = execFxLookup tokenId s := rfl
@[simp] theorem exec_aesEncrypt (s : State) : exec (.aesEncrypt) s = execAesEncrypt s := rfl
@[simp] theorem exec_aesDecrypt (s : State) : exec (.aesDecrypt) s = execAesDecrypt s := rfl
@[simp] theorem exec_aesCmac (s : State) : exec (.aesCmac) s = execAesCmac s := rfl
@[simp] theorem exec_aesCmacDkey (dkey : Nat) (s : State) : exec (.aesCmacDkey dkey) s = execAesCmacDkey dkey s := rfl
@[simp] theorem exec_aesBusyRead (s : State) : exec (.aesBusyRead) s = execAesBusyRead s := rfl
@[simp] theorem exec_aesOpDone (s : State) : exec (.aesOpDone) s = execAesOpDone s := rfl
@[simp] theorem exec_causewayLock (s : State) : exec (.causewayLock) s = execCausewayLock s := rfl
@[simp] theorem exec_negotiate (b : NegoBlock) (s : State) : exec (.negotiate b) s = execNegotiate b s := rfl
@[simp] theorem exec_partnerAbsentTimeout (s : State) : exec (.partnerAbsentTimeout) s = execPartnerAbsentTimeout s := rfl
@[simp] theorem exec_heartbeatSend (s : State) : exec (.heartbeatSend) s = execHeartbeatSend s := rfl
@[simp] theorem exec_heartbeat (seq baseTick : Nat) (temp : Int) (power faultClass lastMirror : Nat) (neapOk : Bool) (overflow : Nat) (s : State) : exec (.heartbeat seq baseTick temp power faultClass lastMirror neapOk overflow) s = execHeartbeat seq baseTick temp power faultClass lastMirror neapOk overflow s := rfl
@[simp] theorem exec_heartbeatMiss (s : State) : exec (.heartbeatMiss) s = execHeartbeatMiss s := rfl
@[simp] theorem exec_pairAliveToggle (input : Bool) (s : State) : exec (.pairAliveToggle input) s = execPairAliveToggle input s := rfl
@[simp] theorem exec_yield (seq : Nat) (s : State) : exec (.yield seq) s = execYield seq s := rfl
@[simp] theorem exec_handover (seq lastMirror : Nat) (s : State) : exec (.handover seq lastMirror) s = execHandover seq lastMirror s := rfl
@[simp] theorem exec_switchoverTimeout (s : State) : exec (.switchoverTimeout) s = execSwitchoverTimeout s := rfl
@[simp] theorem exec_mirror (seq mirrorSeq : Nat) (items : List MirrorItem) (last : Bool) (s : State) : exec (.mirror seq mirrorSeq items last) s = execMirror seq mirrorSeq items last s := rfl
@[simp] theorem exec_mirrorAcknowledge (seq mirrorSeq : Nat) (s : State) : exec (.mirrorAcknowledge seq mirrorSeq) s = execMirrorAcknowledge seq mirrorSeq s := rfl
@[simp] theorem exec_counterCommitRequest (seq counter value : Nat) (s : State) : exec (.counterCommitRequest seq counter value) s = execCounterCommitRequest seq counter value s := rfl
@[simp] theorem exec_counterCommitAcknowledge (seq counter : Nat) (deferred : Bool) (s : State) : exec (.counterCommitAcknowledge seq counter deferred) s = execCounterCommitAcknowledge seq counter deferred s := rfl
@[simp] theorem exec_resendRequest (first : Nat) (s : State) : exec (.resendRequest first) s = execResendRequest first s := rfl
@[simp] theorem exec_triggerForward (seq trigger : Nat) (s : State) : exec (.triggerForward seq trigger) s = execTriggerForward seq trigger s := rfl
@[simp] theorem exec_breachBlock (seq : Nat) (s : State) : exec (.breachBlock seq) s = execBreachBlock seq s := rfl
@[simp] theorem exec_tamperStrandedBlock (seq : Nat) (s : State) : exec (.tamperStrandedBlock seq) s = execTamperStrandedBlock seq s := rfl
@[simp] theorem exec_attestationRequest (seq : Nat) (nonce : Bytes) (s : State) : exec (.attestationRequest seq nonce) s = execAttestationRequest seq nonce s := rfl
@[simp] theorem exec_attestationReport (seq : Nat) (report : JoinReport) (s : State) : exec (.attestationReport seq report) s = execAttestationReport seq report s := rfl
@[simp] theorem exec_stateTransfer (seq : Nat) (items : List MirrorItem) (last : Bool) (s : State) : exec (.stateTransfer seq items last) s = execStateTransfer seq items last s := rfl
@[simp] theorem exec_admitTimeout (s : State) : exec (.admitTimeout) s = execAdmitTimeout s := rfl
@[simp] theorem exec_pairWake (s : State) : exec (.pairWake) s = execPairWake s := rfl
@[simp] theorem exec_faultHandlingDone (s : State) : exec (.faultHandlingDone) s = execFaultHandlingDone s := rfl
@[simp] theorem exec_recordToHostRing (source : Nat) (s : State) : exec (.recordToHostRing source) s = execRecordToHostRing source s := rfl
@[simp] theorem exec_signalLineFault (line kind : Nat) (clear : Bool) (s : State) : exec (.signalLineFault line kind clear) s = execSignalLineFault line kind clear s := rfl
@[simp] theorem exec_erosionSample (s : State) : exec (.erosionSample) s = execErosionSample s := rfl
@[simp] theorem exec_doorStatusFrame (bus ident : Nat) (data : Bytes) (overflow : Nat) (s : State) : exec (.doorStatusFrame bus ident data overflow) s = execDoorStatusFrame bus ident data overflow s := rfl
@[simp] theorem exec_doorStatusTimeout (s : State) : exec (.doorStatusTimeout) s = execDoorStatusTimeout s := rfl
@[simp] theorem exec_busOff (bus : Nat) (s : State) : exec (.busOff bus) s = execBusOff bus s := rfl
@[simp] theorem exec_busRecovered (bus : Nat) (s : State) : exec (.busRecovered bus) s = execBusRecovered bus s := rfl
@[simp] theorem exec_busFault (bus kind : Nat) (clear : Bool) (s : State) : exec (.busFault bus kind clear) s = execBusFault bus kind clear s := rfl
@[simp] theorem exec_linStatusPoll (bus node : Nat) (s : State) : exec (.linStatusPoll bus node) s = execLinStatusPoll bus node s := rfl
@[simp] theorem exec_linStatus (bus node : Nat) (data : Bytes) (s : State) : exec (.linStatus bus node data) s = execLinStatus bus node data s := rfl
@[simp] theorem exec_wakeNNegate (s : State) : exec (.wakeNNegate) s = execWakeNNegate s := rfl
@[simp] theorem exec_tamperSensorClear (sensor : Nat) (s : State) : exec (.tamperSensorClear sensor) s = execTamperSensorClear sensor s := rfl
@[simp] theorem exec_debugHalt (c : CoreId) (s : State) : exec (.debugHalt c) s = execDebugHalt c s := rfl
@[simp] theorem exec_debugResume (c : CoreId) (s : State) : exec (.debugResume c) s = execDebugResume c s := rfl
@[simp] theorem exec_zoneDropAgeExpiry (token : Nat) (s : State) : exec (.zoneDropAgeExpiry token) s = execZoneDropAgeExpiry token s := rfl
@[simp] theorem exec_railsWithinLimits (s : State) : exec (.railsWithinLimits) s = execRailsWithinLimits s := rfl
@[simp] theorem exec_noiseSourcesStart (s : State) : exec (.noiseSourcesStart) s = execNoiseSourcesStart s := rfl

/-- A step with a command in front of the queue. -/
theorem step_cons (s : State) (c : Instr) (l : List Instr) (h : s.pending = c :: l) : step s = exec c { s with pending := l } := by
  simp only [step, h]
/-- A step with an empty queue. -/
theorem step_nil (s : State) (h : s.pending = []) : step s = .next (idle s) := by simp only [step, h]

end Sys2Proof.Machine
end

