-- ==== Sys2Proof/Laws/Frames.lean ====
section
/-! SUPPORT. What the shared operations can change, each said once: the state with the fields that an operation may change blanked is
the same after it (`evFrame`, `talkFrame` and `timeFrame` of Safety). -/

namespace Sys2Proof.Machine
open Sys2Proof

theorem talkFrame_of_evFrame {s t : State} (h : evFrame t = evFrame s) : talkFrame t = talkFrame s := by
  unfold talkFrame; rw [h]
theorem timeFrame_of_evFrame {s t : State} (h : evFrame t = evFrame s) : timeFrame t = timeFrame s := by
  have hc : t.cc = s.cc := (congrArg State.cc h : (evFrame t).cc = (evFrame s).cc)
  have hx : t.xc = s.xc := (congrArg State.xc h : (evFrame t).xc = (evFrame s).xc)
  have he : t.ext = s.ext := (congrArg State.ext h : (evFrame t).ext = (evFrame s).ext)
  have hb : t.bus = s.bus := (congrArg State.bus h : (evFrame t).bus = (evFrame s).bus)
  have hr : t.rel = s.rel := (congrArg State.rel h : (evFrame t).rel = (evFrame s).rel)
  unfold timeFrame; rw [h, hc, hx, he, hb, hr]

/-! ### Events -/

@[simp] theorem evFrame_onEvt (s : State) (f : Evt → Evt) : evFrame (s.onEvt f) = evFrame s := rfl
@[simp] theorem evFrame_onFlt (s : State) (f : Flt → Flt) : evFrame (s.onFlt f) = evFrame s := rfl
@[simp] theorem evFrame_wires (s : State) : evFrame (wires s) = evFrame s := rfl
@[simp] theorem evFrame_flushLost (n : Nat) (s : State) : evFrame (flushLost n s) = evFrame s := by
  unfold flushLost; split
  · rfl
  · split <;> rfl
@[simp] theorem evFrame_backlogPush (p : Bool) (e : Bytes) (s : State) : evFrame (backlogPush p e s) = evFrame s := rfl
@[simp] theorem evFrame_placeRecord (r : EvRec) (s : State) : evFrame (placeRecord r s) = evFrame s := rfl
@[simp] theorem evFrame_stampFor (n k : Nat) (s : State) : evFrame (stampFor n k s).2.2 = evFrame s := rfl
@[simp] theorem evFrame_handleFault (a b : Nat) (s : State) : evFrame (handleFault a b s).2 = evFrame s := by
  unfold handleFault; split
  · rfl
  · split
    · rfl
    · split
      · rfl
      · split <;> rfl
@[simp] theorem evFrame_holdFault (a b c q : Nat) (i : Bytes) (s : State) : evFrame (holdFault a b c q i s) = evFrame s := by
  unfold holdFault; simp only; split
  · rfl
  · split <;> rfl
@[simp] theorem evFrame_dropFault (a : Nat) (i : Bytes) (s : State) : evFrame (dropFault a i s) = evFrame s := rfl
/-- A raised record changes event paths, fault handling and the alarm wires, and nothing else. -/
@[simp] theorem evFrame_raiseX (a b : Nat) (p : Bytes) (o : EvOpt) (s : State) : evFrame (raiseX a b p o s) = evFrame s := by
  unfold raiseX; simp only [evFrame_wires]
  have hf : evFrame (if a = evCmdDone then s else flushLost (a / 256) s) = evFrame s := by split <;> simp
  split
  · simp only [evFrame_dropFault]; split <;> simpa using hf
  · have : ∀ (q : Nat) u, evFrame u = evFrame s → evFrame (if (lasting a b && !(handleFault a b u).1) = true then
        holdFault (a / 256) a b q o.inst (handleFault a b u).2 else (handleFault a b u).2) = evFrame s := by
      intro q u hu; split <;> simp [hu]
    apply this
    split <;> simpa using hf
/-- So does one that is found, raised or held back. -/
@[simp] theorem evFrame_emitX (a b : Nat) (p : Bytes) (o : EvOpt) (s : State) : evFrame (emitX a b p o s) = evFrame s := by
  unfold emitX; split
  · rfl
  · exact evFrame_raiseX ..
@[simp] theorem evFrame_emit (a b : Nat) (p : Bytes) (s : State) : evFrame (emit a b p s) = evFrame s := by unfold emit; rw [evFrame_emitX]
@[simp] theorem evFrame_emitF (a b : Nat) (i p : Bytes) (s : State) : evFrame (emitF a b i p s) = evFrame s := by
  unfold emitF; rw [evFrame_emitX]
@[simp] theorem evFrame_emitC (a b : Nat) (i p : Bytes) (s : State) : evFrame (emitC a b i p s) = evFrame s := by
  unfold emitC; rw [evFrame_emitX]
@[simp] theorem evFrame_cmdDone (r : CmdRef) (n : Nat) (b : Bytes) (s : State) : evFrame (cmdDone r n b s) = evFrame s := by
  unfold cmdDone; rw [evFrame_emitX]
@[simp] theorem evFrame_traceOnly (n : Nat) (b : Bytes) (s : State) : evFrame (traceOnly n b s) = evFrame s := by
  unfold traceOnly; rw [evFrame_onEvt]
@[simp] theorem evFrame_rateLimit (k n : Nat) (s : State) : evFrame (rateLimit k n s).2 = evFrame s := by
  unfold rateLimit; split
  · split <;> rfl
  · rfl

/-! ### Time -/

@[simp] theorem timeFrame_onClk (s : State) (f : Clk → Clk) : timeFrame (s.onClk f) = timeFrame s := rfl
@[simp] theorem timeFrame_emitX (a b : Nat) (p : Bytes) (o : EvOpt) (s : State) : timeFrame (emitX a b p o s) = timeFrame s :=
  timeFrame_of_evFrame (evFrame_emitX ..)
/-- The base, and at a wrap its event. -/
@[simp] theorem timeFrame_advanceBase (n : Nat) (s : State) : timeFrame (advanceBase n s) = timeFrame s := by
  unfold advanceBase; dsimp only; split <;> simp only [timeFrame_emitX, timeFrame_onClk]
@[simp] theorem timeFrame_countersPass (n : Nat) (s : State) : timeFrame (countersPass n s) = timeFrame s := by
  unfold countersPass; split <;> rfl
@[simp] theorem timeFrame_budgetPass (n : Nat) (s : State) : timeFrame (budgetPass n s) = timeFrame s := by
  unfold budgetPass; split <;> rfl
@[simp] theorem timeFrame_idlePass (s0 s : State) : timeFrame (idlePass s0 s) = timeFrame s := by
  unfold idlePass; exact timeFrame_onClk ..
@[simp] theorem timeFrame_busDiag (a b : Nat) (c : Bool) (s : State) : timeFrame (busDiag a b c s) = timeFrame s := by
  unfold busDiag; split
  · rfl
  · dsimp only; split
    · unfold emitC; rw [timeFrame_emitX]; rfl
    · unfold emitF; rw [timeFrame_emitX]; rfl
@[simp] theorem timeFrame_relSent (s : State) (f : CanFrame) : timeFrame (relSent s f) = timeFrame s := by
  unfold relSent; dsimp only; rw [timeFrame_busDiag]; rfl
theorem timeFrame_relSents (l : List CanFrame) (s : State) : timeFrame (l.foldl relSent s) = timeFrame s := by
  induction l generalizing s with
  | nil => rfl
  | cons a l ih => rw [List.foldl_cons, ih, timeFrame_relSent]
/-- A frame handed over joins a queue or those that wait. -/
theorem canPut_rest (f : CanFrame) (b : Buses) : { canPut f b with canTx := [], canWait := [], bus := [] } = { b with canTx := [], canWait := [], bus := [] } := by
  unfold canPut; split <;> rfl
theorem canPuts_rest (l : List CanFrame) (b : Buses) :
    { l.foldl (fun b f => canPut f b) b with canTx := [], canWait := [], bus := [] } = { b with canTx := [], canWait := [], bus := [] } := by
  induction l generalizing b with
  | nil => rfl
  | cons a l ih => rw [List.foldl_cons, ih, canPut_rest]
@[simp] theorem timeFrame_canPass (s : State) : timeFrame (canPass s) = timeFrame s := by
  unfold canPass; split
  · rfl
  · dsimp only; rw [timeFrame_relSents]
    unfold timeFrame evFrame State.onBus; dsimp only; rw [canPuts_rest]
/-- Time passes: only what `timeFrame` leaves out changes. -/
@[simp] theorem timeFrame_passUs (n : Nat) (s : State) : timeFrame (passUs n s) = timeFrame s := by simp [passUs]
@[simp] theorem timeFrame_advanceTo (n : Nat) (s : State) : timeFrame (advanceTo n s) = timeFrame s := by
  unfold advanceTo; split <;> simp
@[simp] theorem timeFrame_dueAt (n : Nat) (s : State) : timeFrame (dueAt n s) = timeFrame s := by
  unfold dueAt; split <;> simp
@[simp] theorem timeFrame_monoAt (n : Nat) (s : State) : timeFrame (monoAt n s) = timeFrame s := by
  unfold monoAt; simp

/-! ### Answers and mirrored blocks -/

@[simp] theorem talkFrame_onBox (s : State) (m : Bool) (f : Mbx → Mbx) : talkFrame (s.onBox m f) = talkFrame s := by cases m <;> rfl
@[simp] theorem talkFrame_onPair (s : State) (f : Pair → Pair) : talkFrame (s.onPair f) = talkFrame s := rfl
@[simp] theorem talkFrame_sendFlagged (f n : Nat) (b : Bytes) (s : State) : talkFrame (sendFlagged f n b s) = talkFrame s := by
  unfold sendFlagged; split <;> rfl
@[simp] theorem talkFrame_sendBlock (n : Nat) (b : Bytes) (s : State) : talkFrame (sendBlock n b s) = talkFrame s :=
  talkFrame_sendFlagged 0 n b s
theorem talkFrame_blocks (l : List Bytes) (n : Nat) (s : State) : talkFrame (l.foldl (fun s p => sendBlock n p s) s) = talkFrame s := by
  induction l generalizing s with
  | nil => rfl
  | cons a l ih => rw [List.foldl_cons, ih, talkFrame_sendBlock]
@[simp] theorem talkFrame_mirror (l : List MirrorItem) (s : State) : talkFrame (mirror l s) = talkFrame s := by
  unfold mirror; split
  · rfl
  · simp only [talkFrame_onPair, talkFrame_sendFlagged, talkFrame_blocks]
@[simp] theorem talkFrame_closeSecure (m : Bool) (r : Nat) (s : State) : talkFrame (closeSecure m r s) = talkFrame s := by
  unfold closeSecure; simp only; split
  · rfl
  · refine (talkFrame_of_evFrame (evFrame_emit ..)).trans ?_
    cases m
    · simp only [mirrorLink, Bool.false_eq_true, if_false, talkFrame_mirror]; rfl
    · rfl
@[simp] theorem talkFrame_rekeyDue (m : Bool) (a b : Nat) (s : State) : talkFrame (rekeyDue m a b s) = talkFrame s := by
  unfold rekeyDue; dsimp only; split
  · rw [talkFrame_of_evFrame (evFrame_emit ..), talkFrame_onBox]
  · rfl
@[simp] theorem talkFrame_takeSeq (m : Bool) (n : Nat) (s : State) : talkFrame (takeSeq m n s).2 = talkFrame s := by
  unfold takeSeq; dsimp only; split
  · exact talkFrame_closeSecure ..
  · rw [talkFrame_rekeyDue, talkFrame_onBox]
@[simp] theorem talkFrame_sendResponse (f : Nat) (fin : Bool) (r : CmdRef) (n : Nat) (b : Bytes) (s : State) :
    talkFrame (sendResponse f fin r n b s) = talkFrame s := by
  have h := talkFrame_takeSeq r.member r.lane s
  unfold sendResponse; split
  · rename_i w e; rw [e] at h; exact h
  · rename_i q w e; rw [e] at h
    dsimp only; rw [talkFrame_onBox]; split
    · exact h
    · rw [talkFrame_mirror]; exact h
@[simp] theorem talkFrame_endCommand (fin : Bool) (r : CmdRef) (s : State) : talkFrame (endCommand fin r s) = talkFrame s := talkFrame_onBox ..
/-- An answer changes the mailboxes, the pair and what events touch, and nothing else. -/
@[simp] theorem talkFrame_respondWith (f : Nat) (r : CmdRef) (n : Nat) (b : Bytes) (s : State) :
    talkFrame (respondWith f r n b s) = talkFrame s := by
  unfold respondWith; dsimp only; split
  · simp
  · split
    · simp only [talkFrame_sendResponse, talkFrame_onPair, talkFrame_endCommand]
    · simp only [talkFrame_sendResponse, talkFrame_endCommand]
@[simp] theorem talkFrame_respond (r : CmdRef) (n : Nat) (b : Bytes) (s : State) : talkFrame (respond r n b s) = talkFrame s :=
  talkFrame_respondWith ..
@[simp] theorem talkFrame_reply (r : CmdRef) (b : Bytes) (s : State) : talkFrame (reply r b s) = talkFrame s := talkFrame_respondWith ..
@[simp] theorem talkFrame_accepted (r : CmdRef) (s : State) : talkFrame (accepted r s) = talkFrame s := talkFrame_respondWith ..

/-! ### Mailbox commands -/

/-- A command that has begun runs its body. -/
theorem runCmd_begun {op : Nat} {m : MbxCmd} {s u : State} {ref : CmdRef} (h : begun op m s = some (ref, u))
    (body : CmdRef → Bytes → State → State) : runCmd op m s body = body ref m.payload u := by simp only [runCmd, h]
theorem need_true {c : Bool} (h : c = true) (ref : CmdRef) (n : Nat) (s : State) (k : State → State) : need c ref n s k = k s := by
  simp [need, h]
theorem need_false {c : Bool} (h : c = false) (ref : CmdRef) (n : Nat) (s : State) (k : State → State) :
    need c ref n s k = respond ref n [] s := by simp [need, h]
theorem needLen_eq {n : Nat} {p : Bytes} (h : p.length = n) (ref : CmdRef) (s : State) (k : State → State) : needLen n p ref s k = k s := by
  simp [needLen, need, h]
theorem needLen_ne {n : Nat} {p : Bytes} (h : p.length ≠ n) (ref : CmdRef) (s : State) (k : State → State) :
    needLen n p ref s k = respond ref stBadLength [] s := by simp [needLen, need, h]

end Sys2Proof.Machine
end

