-- ==== Sys2Proof/Laws/State.lean ====
section
/-! SUPPORT. Every field after every update of a group of State: the group updated is the function's value, the others are as before. -/

namespace Sys2Proof.Machine
open Sys2Proof

@[simp] theorem State.onClk_pending (s : State) (f : Clk → Clk) : (s.onClk f).pending = s.pending := rfl
@[simp] theorem State.onClk_clk (s : State) (f : Clk → Clk) : (s.onClk f).clk = f s.clk := rfl
@[simp] theorem State.onClk_pwr (s : State) (f : Clk → Clk) : (s.onClk f).pwr = s.pwr := rfl
@[simp] theorem State.onClk_evt (s : State) (f : Clk → Clk) : (s.onClk f).evt = s.evt := rfl
@[simp] theorem State.onClk_flt (s : State) (f : Clk → Clk) : (s.onClk f).flt = s.flt := rfl
@[simp] theorem State.onClk_par (s : State) (f : Clk → Clk) : (s.onClk f).par = s.par := rfl
@[simp] theorem State.onClk_mbx (s : State) (f : Clk → Clk) : (s.onClk f).mbx = s.mbx := rfl
@[simp] theorem State.onClk_mmb (s : State) (f : Clk → Clk) : (s.onClk f).mmb = s.mmb := rfl
@[simp] theorem State.onClk_wasOpen (s : State) (f : Clk → Clk) : (s.onClk f).wasOpen = s.wasOpen := rfl
@[simp] theorem State.onClk_lf (s : State) (f : Clk → Clk) : (s.onClk f).lf = s.lf := rfl
@[simp] theorem State.onClk_zon (s : State) (f : Clk → Clk) : (s.onClk f).zon = s.zon := rfl
@[simp] theorem State.onClk_paths (s : State) (f : Clk → Clk) : (s.onClk f).paths = s.paths := rfl
@[simp] theorem State.onClk_path (s : State) (f : Clk → Clk) : (s.onClk f).path = s.path := rfl
@[simp] theorem State.onClk_lastAuth (s : State) (f : Clk → Clk) : (s.onClk f).lastAuth = s.lastAuth := rfl
@[simp] theorem State.onClk_raised (s : State) (f : Clk → Clk) : (s.onClk f).raised = s.raised := rfl
@[simp] theorem State.onClk_awaited (s : State) (f : Clk → Clk) : (s.onClk f).awaited = s.awaited := rfl
@[simp] theorem State.onClk_uwb (s : State) (f : Clk → Clk) : (s.onClk f).uwb = s.uwb := rfl
@[simp] theorem State.onClk_rel (s : State) (f : Clk → Clk) : (s.onClk f).rel = s.rel := rfl
@[simp] theorem State.onClk_rad (s : State) (f : Clk → Clk) : (s.onClk f).rad = s.rad := rfl
@[simp] theorem State.onClk_sen (s : State) (f : Clk → Clk) : (s.onClk f).sen = s.sen := rfl
@[simp] theorem State.onClk_sec (s : State) (f : Clk → Clk) : (s.onClk f).sec = s.sec := rfl
@[simp] theorem State.onClk_rng (s : State) (f : Clk → Clk) : (s.onClk f).rng = s.rng := rfl
@[simp] theorem State.onClk_store (s : State) (f : Clk → Clk) : (s.onClk f).store = s.store := rfl
@[simp] theorem State.onClk_timers (s : State) (f : Clk → Clk) : (s.onClk f).timers = s.timers := rfl
@[simp] theorem State.onClk_cc (s : State) (f : Clk → Clk) : (s.onClk f).cc = s.cc := rfl
@[simp] theorem State.onClk_xc (s : State) (f : Clk → Clk) : (s.onClk f).xc = s.xc := rfl
@[simp] theorem State.onClk_ext (s : State) (f : Clk → Clk) : (s.onClk f).ext = s.ext := rfl
@[simp] theorem State.onClk_pair (s : State) (f : Clk → Clk) : (s.onClk f).pair = s.pair := rfl
@[simp] theorem State.onClk_bus (s : State) (f : Clk → Clk) : (s.onClk f).bus = s.bus := rfl
@[simp] theorem State.onClk_ero (s : State) (f : Clk → Clk) : (s.onClk f).ero = s.ero := rfl
@[simp] theorem State.onClk_eroAt (s : State) (f : Clk → Clk) : (s.onClk f).eroAt = s.eroAt := rfl
@[simp] theorem State.onClk_soundRun (s : State) (f : Clk → Clk) : (s.onClk f).soundRun = s.soundRun := rfl
@[simp] theorem State.onClk_free (s : State) (f : Clk → Clk) : (s.onClk f).free = s.free := rfl

@[simp] theorem State.onPwr_pending (s : State) (f : Pwr → Pwr) : (s.onPwr f).pending = s.pending := rfl
@[simp] theorem State.onPwr_clk (s : State) (f : Pwr → Pwr) : (s.onPwr f).clk = s.clk := rfl
@[simp] theorem State.onPwr_pwr (s : State) (f : Pwr → Pwr) : (s.onPwr f).pwr = f s.pwr := rfl
@[simp] theorem State.onPwr_evt (s : State) (f : Pwr → Pwr) : (s.onPwr f).evt = s.evt := rfl
@[simp] theorem State.onPwr_flt (s : State) (f : Pwr → Pwr) : (s.onPwr f).flt = s.flt := rfl
@[simp] theorem State.onPwr_par (s : State) (f : Pwr → Pwr) : (s.onPwr f).par = s.par := rfl
@[simp] theorem State.onPwr_mbx (s : State) (f : Pwr → Pwr) : (s.onPwr f).mbx = s.mbx := rfl
@[simp] theorem State.onPwr_mmb (s : State) (f : Pwr → Pwr) : (s.onPwr f).mmb = s.mmb := rfl
@[simp] theorem State.onPwr_wasOpen (s : State) (f : Pwr → Pwr) : (s.onPwr f).wasOpen = s.wasOpen := rfl
@[simp] theorem State.onPwr_lf (s : State) (f : Pwr → Pwr) : (s.onPwr f).lf = s.lf := rfl
@[simp] theorem State.onPwr_zon (s : State) (f : Pwr → Pwr) : (s.onPwr f).zon = s.zon := rfl
@[simp] theorem State.onPwr_paths (s : State) (f : Pwr → Pwr) : (s.onPwr f).paths = s.paths := rfl
@[simp] theorem State.onPwr_path (s : State) (f : Pwr → Pwr) : (s.onPwr f).path = s.path := rfl
@[simp] theorem State.onPwr_lastAuth (s : State) (f : Pwr → Pwr) : (s.onPwr f).lastAuth = s.lastAuth := rfl
@[simp] theorem State.onPwr_raised (s : State) (f : Pwr → Pwr) : (s.onPwr f).raised = s.raised := rfl
@[simp] theorem State.onPwr_awaited (s : State) (f : Pwr → Pwr) : (s.onPwr f).awaited = s.awaited := rfl
@[simp] theorem State.onPwr_uwb (s : State) (f : Pwr → Pwr) : (s.onPwr f).uwb = s.uwb := rfl
@[simp] theorem State.onPwr_rel (s : State) (f : Pwr → Pwr) : (s.onPwr f).rel = s.rel := rfl
@[simp] theorem State.onPwr_rad (s : State) (f : Pwr → Pwr) : (s.onPwr f).rad = s.rad := rfl
@[simp] theorem State.onPwr_sen (s : State) (f : Pwr → Pwr) : (s.onPwr f).sen = s.sen := rfl
@[simp] theorem State.onPwr_sec (s : State) (f : Pwr → Pwr) : (s.onPwr f).sec = s.sec := rfl
@[simp] theorem State.onPwr_rng (s : State) (f : Pwr → Pwr) : (s.onPwr f).rng = s.rng := rfl
@[simp] theorem State.onPwr_store (s : State) (f : Pwr → Pwr) : (s.onPwr f).store = s.store := rfl
@[simp] theorem State.onPwr_timers (s : State) (f : Pwr → Pwr) : (s.onPwr f).timers = s.timers := rfl
@[simp] theorem State.onPwr_cc (s : State) (f : Pwr → Pwr) : (s.onPwr f).cc = s.cc := rfl
@[simp] theorem State.onPwr_xc (s : State) (f : Pwr → Pwr) : (s.onPwr f).xc = s.xc := rfl
@[simp] theorem State.onPwr_ext (s : State) (f : Pwr → Pwr) : (s.onPwr f).ext = s.ext := rfl
@[simp] theorem State.onPwr_pair (s : State) (f : Pwr → Pwr) : (s.onPwr f).pair = s.pair := rfl
@[simp] theorem State.onPwr_bus (s : State) (f : Pwr → Pwr) : (s.onPwr f).bus = s.bus := rfl
@[simp] theorem State.onPwr_ero (s : State) (f : Pwr → Pwr) : (s.onPwr f).ero = s.ero := rfl
@[simp] theorem State.onPwr_eroAt (s : State) (f : Pwr → Pwr) : (s.onPwr f).eroAt = s.eroAt := rfl
@[simp] theorem State.onPwr_soundRun (s : State) (f : Pwr → Pwr) : (s.onPwr f).soundRun = s.soundRun := rfl
@[simp] theorem State.onPwr_free (s : State) (f : Pwr → Pwr) : (s.onPwr f).free = s.free := rfl

@[simp] theorem State.onEvt_pending (s : State) (f : Evt → Evt) : (s.onEvt f).pending = s.pending := rfl
@[simp] theorem State.onEvt_clk (s : State) (f : Evt → Evt) : (s.onEvt f).clk = s.clk := rfl
@[simp] theorem State.onEvt_pwr (s : State) (f : Evt → Evt) : (s.onEvt f).pwr = s.pwr := rfl
@[simp] theorem State.onEvt_evt (s : State) (f : Evt → Evt) : (s.onEvt f).evt = f s.evt := rfl
@[simp] theorem State.onEvt_flt (s : State) (f : Evt → Evt) : (s.onEvt f).flt = s.flt := rfl
@[simp] theorem State.onEvt_par (s : State) (f : Evt → Evt) : (s.onEvt f).par = s.par := rfl
@[simp] theorem State.onEvt_mbx (s : State) (f : Evt → Evt) : (s.onEvt f).mbx = s.mbx := rfl
@[simp] theorem State.onEvt_mmb (s : State) (f : Evt → Evt) : (s.onEvt f).mmb = s.mmb := rfl
@[simp] theorem State.onEvt_wasOpen (s : State) (f : Evt → Evt) : (s.onEvt f).wasOpen = s.wasOpen := rfl
@[simp] theorem State.onEvt_lf (s : State) (f : Evt → Evt) : (s.onEvt f).lf = s.lf := rfl
@[simp] theorem State.onEvt_zon (s : State) (f : Evt → Evt) : (s.onEvt f).zon = s.zon := rfl
@[simp] theorem State.onEvt_paths (s : State) (f : Evt → Evt) : (s.onEvt f).paths = s.paths := rfl
@[simp] theorem State.onEvt_path (s : State) (f : Evt → Evt) : (s.onEvt f).path = s.path := rfl
@[simp] theorem State.onEvt_lastAuth (s : State) (f : Evt → Evt) : (s.onEvt f).lastAuth = s.lastAuth := rfl
@[simp] theorem State.onEvt_raised (s : State) (f : Evt → Evt) : (s.onEvt f).raised = s.raised := rfl
@[simp] theorem State.onEvt_awaited (s : State) (f : Evt → Evt) : (s.onEvt f).awaited = s.awaited := rfl
@[simp] theorem State.onEvt_uwb (s : State) (f : Evt → Evt) : (s.onEvt f).uwb = s.uwb := rfl
@[simp] theorem State.onEvt_rel (s : State) (f : Evt → Evt) : (s.onEvt f).rel = s.rel := rfl
@[simp] theorem State.onEvt_rad (s : State) (f : Evt → Evt) : (s.onEvt f).rad = s.rad := rfl
@[simp] theorem State.onEvt_sen (s : State) (f : Evt → Evt) : (s.onEvt f).sen = s.sen := rfl
@[simp] theorem State.onEvt_sec (s : State) (f : Evt → Evt) : (s.onEvt f).sec = s.sec := rfl
@[simp] theorem State.onEvt_rng (s : State) (f : Evt → Evt) : (s.onEvt f).rng = s.rng := rfl
@[simp] theorem State.onEvt_store (s : State) (f : Evt → Evt) : (s.onEvt f).store = s.store := rfl
@[simp] theorem State.onEvt_timers (s : State) (f : Evt → Evt) : (s.onEvt f).timers = s.timers := rfl
@[simp] theorem State.onEvt_cc (s : State) (f : Evt → Evt) : (s.onEvt f).cc = s.cc := rfl
@[simp] theorem State.onEvt_xc (s : State) (f : Evt → Evt) : (s.onEvt f).xc = s.xc := rfl
@[simp] theorem State.onEvt_ext (s : State) (f : Evt → Evt) : (s.onEvt f).ext = s.ext := rfl
@[simp] theorem State.onEvt_pair (s : State) (f : Evt → Evt) : (s.onEvt f).pair = s.pair := rfl
@[simp] theorem State.onEvt_bus (s : State) (f : Evt → Evt) : (s.onEvt f).bus = s.bus := rfl
@[simp] theorem State.onEvt_ero (s : State) (f : Evt → Evt) : (s.onEvt f).ero = s.ero := rfl
@[simp] theorem State.onEvt_eroAt (s : State) (f : Evt → Evt) : (s.onEvt f).eroAt = s.eroAt := rfl
@[simp] theorem State.onEvt_soundRun (s : State) (f : Evt → Evt) : (s.onEvt f).soundRun = s.soundRun := rfl
@[simp] theorem State.onEvt_free (s : State) (f : Evt → Evt) : (s.onEvt f).free = s.free := rfl

@[simp] theorem State.onFlt_pending (s : State) (f : Flt → Flt) : (s.onFlt f).pending = s.pending := rfl
@[simp] theorem State.onFlt_clk (s : State) (f : Flt → Flt) : (s.onFlt f).clk = s.clk := rfl
@[simp] theorem State.onFlt_pwr (s : State) (f : Flt → Flt) : (s.onFlt f).pwr = s.pwr := rfl
@[simp] theorem State.onFlt_evt (s : State) (f : Flt → Flt) : (s.onFlt f).evt = s.evt := rfl
@[simp] theorem State.onFlt_flt (s : State) (f : Flt → Flt) : (s.onFlt f).flt = f s.flt := rfl
@[simp] theorem State.onFlt_par (s : State) (f : Flt → Flt) : (s.onFlt f).par = s.par := rfl
@[simp] theorem State.onFlt_mbx (s : State) (f : Flt → Flt) : (s.onFlt f).mbx = s.mbx := rfl
@[simp] theorem State.onFlt_mmb (s : State) (f : Flt → Flt) : (s.onFlt f).mmb = s.mmb := rfl
@[simp] theorem State.onFlt_wasOpen (s : State) (f : Flt → Flt) : (s.onFlt f).wasOpen = s.wasOpen := rfl
@[simp] theorem State.onFlt_lf (s : State) (f : Flt → Flt) : (s.onFlt f).lf = s.lf := rfl
@[simp] theorem State.onFlt_zon (s : State) (f : Flt → Flt) : (s.onFlt f).zon = s.zon := rfl
@[simp] theorem State.onFlt_paths (s : State) (f : Flt → Flt) : (s.onFlt f).paths = s.paths := rfl
@[simp] theorem State.onFlt_path (s : State) (f : Flt → Flt) : (s.onFlt f).path = s.path := rfl
@[simp] theorem State.onFlt_lastAuth (s : State) (f : Flt → Flt) : (s.onFlt f).lastAuth = s.lastAuth := rfl
@[simp] theorem State.onFlt_raised (s : State) (f : Flt → Flt) : (s.onFlt f).raised = s.raised := rfl
@[simp] theorem State.onFlt_awaited (s : State) (f : Flt → Flt) : (s.onFlt f).awaited = s.awaited := rfl
@[simp] theorem State.onFlt_uwb (s : State) (f : Flt → Flt) : (s.onFlt f).uwb = s.uwb := rfl
@[simp] theorem State.onFlt_rel (s : State) (f : Flt → Flt) : (s.onFlt f).rel = s.rel := rfl
@[simp] theorem State.onFlt_rad (s : State) (f : Flt → Flt) : (s.onFlt f).rad = s.rad := rfl
@[simp] theorem State.onFlt_sen (s : State) (f : Flt → Flt) : (s.onFlt f).sen = s.sen := rfl
@[simp] theorem State.onFlt_sec (s : State) (f : Flt → Flt) : (s.onFlt f).sec = s.sec := rfl
@[simp] theorem State.onFlt_rng (s : State) (f : Flt → Flt) : (s.onFlt f).rng = s.rng := rfl
@[simp] theorem State.onFlt_store (s : State) (f : Flt → Flt) : (s.onFlt f).store = s.store := rfl
@[simp] theorem State.onFlt_timers (s : State) (f : Flt → Flt) : (s.onFlt f).timers = s.timers := rfl
@[simp] theorem State.onFlt_cc (s : State) (f : Flt → Flt) : (s.onFlt f).cc = s.cc := rfl
@[simp] theorem State.onFlt_xc (s : State) (f : Flt → Flt) : (s.onFlt f).xc = s.xc := rfl
@[simp] theorem State.onFlt_ext (s : State) (f : Flt → Flt) : (s.onFlt f).ext = s.ext := rfl
@[simp] theorem State.onFlt_pair (s : State) (f : Flt → Flt) : (s.onFlt f).pair = s.pair := rfl
@[simp] theorem State.onFlt_bus (s : State) (f : Flt → Flt) : (s.onFlt f).bus = s.bus := rfl
@[simp] theorem State.onFlt_ero (s : State) (f : Flt → Flt) : (s.onFlt f).ero = s.ero := rfl
@[simp] theorem State.onFlt_eroAt (s : State) (f : Flt → Flt) : (s.onFlt f).eroAt = s.eroAt := rfl
@[simp] theorem State.onFlt_soundRun (s : State) (f : Flt → Flt) : (s.onFlt f).soundRun = s.soundRun := rfl
@[simp] theorem State.onFlt_free (s : State) (f : Flt → Flt) : (s.onFlt f).free = s.free := rfl

@[simp] theorem State.onPar_pending (s : State) (f : Par → Par) : (s.onPar f).pending = s.pending := rfl
@[simp] theorem State.onPar_clk (s : State) (f : Par → Par) : (s.onPar f).clk = s.clk := rfl
@[simp] theorem State.onPar_pwr (s : State) (f : Par → Par) : (s.onPar f).pwr = s.pwr := rfl
@[simp] theorem State.onPar_evt (s : State) (f : Par → Par) : (s.onPar f).evt = s.evt := rfl
@[simp] theorem State.onPar_flt (s : State) (f : Par → Par) : (s.onPar f).flt = s.flt := rfl
@[simp] theorem State.onPar_par (s : State) (f : Par → Par) : (s.onPar f).par = f s.par := rfl
@[simp] theorem State.onPar_mbx (s : State) (f : Par → Par) : (s.onPar f).mbx = s.mbx := rfl
@[simp] theorem State.onPar_mmb (s : State) (f : Par → Par) : (s.onPar f).mmb = s.mmb := rfl
@[simp] theorem State.onPar_wasOpen (s : State) (f : Par → Par) : (s.onPar f).wasOpen = s.wasOpen := rfl
@[simp] theorem State.onPar_lf (s : State) (f : Par → Par) : (s.onPar f).lf = s.lf := rfl
@[simp] theorem State.onPar_zon (s : State) (f : Par → Par) : (s.onPar f).zon = s.zon := rfl
@[simp] theorem State.onPar_paths (s : State) (f : Par → Par) : (s.onPar f).paths = s.paths := rfl
@[simp] theorem State.onPar_path (s : State) (f : Par → Par) : (s.onPar f).path = s.path := rfl
@[simp] theorem State.onPar_lastAuth (s : State) (f : Par → Par) : (s.onPar f).lastAuth = s.lastAuth := rfl
@[simp] theorem State.onPar_raised (s : State) (f : Par → Par) : (s.onPar f).raised = s.raised := rfl
@[simp] theorem State.onPar_awaited (s : State) (f : Par → Par) : (s.onPar f).awaited = s.awaited := rfl
@[simp] theorem State.onPar_uwb (s : State) (f : Par → Par) : (s.onPar f).uwb = s.uwb := rfl
@[simp] theorem State.onPar_rel (s : State) (f : Par → Par) : (s.onPar f).rel = s.rel := rfl
@[simp] theorem State.onPar_rad (s : State) (f : Par → Par) : (s.onPar f).rad = s.rad := rfl
@[simp] theorem State.onPar_sen (s : State) (f : Par → Par) : (s.onPar f).sen = s.sen := rfl
@[simp] theorem State.onPar_sec (s : State) (f : Par → Par) : (s.onPar f).sec = s.sec := rfl
@[simp] theorem State.onPar_rng (s : State) (f : Par → Par) : (s.onPar f).rng = s.rng := rfl
@[simp] theorem State.onPar_store (s : State) (f : Par → Par) : (s.onPar f).store = s.store := rfl
@[simp] theorem State.onPar_timers (s : State) (f : Par → Par) : (s.onPar f).timers = s.timers := rfl
@[simp] theorem State.onPar_cc (s : State) (f : Par → Par) : (s.onPar f).cc = s.cc := rfl
@[simp] theorem State.onPar_xc (s : State) (f : Par → Par) : (s.onPar f).xc = s.xc := rfl
@[simp] theorem State.onPar_ext (s : State) (f : Par → Par) : (s.onPar f).ext = s.ext := rfl
@[simp] theorem State.onPar_pair (s : State) (f : Par → Par) : (s.onPar f).pair = s.pair := rfl
@[simp] theorem State.onPar_bus (s : State) (f : Par → Par) : (s.onPar f).bus = s.bus := rfl
@[simp] theorem State.onPar_ero (s : State) (f : Par → Par) : (s.onPar f).ero = s.ero := rfl
@[simp] theorem State.onPar_eroAt (s : State) (f : Par → Par) : (s.onPar f).eroAt = s.eroAt := rfl
@[simp] theorem State.onPar_soundRun (s : State) (f : Par → Par) : (s.onPar f).soundRun = s.soundRun := rfl
@[simp] theorem State.onPar_free (s : State) (f : Par → Par) : (s.onPar f).free = s.free := rfl

@[simp] theorem State.onLf_pending (s : State) (f : Lf → Lf) : (s.onLf f).pending = s.pending := rfl
@[simp] theorem State.onLf_clk (s : State) (f : Lf → Lf) : (s.onLf f).clk = s.clk := rfl
@[simp] theorem State.onLf_pwr (s : State) (f : Lf → Lf) : (s.onLf f).pwr = s.pwr := rfl
@[simp] theorem State.onLf_evt (s : State) (f : Lf → Lf) : (s.onLf f).evt = s.evt := rfl
@[simp] theorem State.onLf_flt (s : State) (f : Lf → Lf) : (s.onLf f).flt = s.flt := rfl
@[simp] theorem State.onLf_par (s : State) (f : Lf → Lf) : (s.onLf f).par = s.par := rfl
@[simp] theorem State.onLf_mbx (s : State) (f : Lf → Lf) : (s.onLf f).mbx = s.mbx := rfl
@[simp] theorem State.onLf_mmb (s : State) (f : Lf → Lf) : (s.onLf f).mmb = s.mmb := rfl
@[simp] theorem State.onLf_wasOpen (s : State) (f : Lf → Lf) : (s.onLf f).wasOpen = s.wasOpen := rfl
@[simp] theorem State.onLf_lf (s : State) (f : Lf → Lf) : (s.onLf f).lf = f s.lf := rfl
@[simp] theorem State.onLf_zon (s : State) (f : Lf → Lf) : (s.onLf f).zon = s.zon := rfl
@[simp] theorem State.onLf_paths (s : State) (f : Lf → Lf) : (s.onLf f).paths = s.paths := rfl
@[simp] theorem State.onLf_path (s : State) (f : Lf → Lf) : (s.onLf f).path = s.path := rfl
@[simp] theorem State.onLf_lastAuth (s : State) (f : Lf → Lf) : (s.onLf f).lastAuth = s.lastAuth := rfl
@[simp] theorem State.onLf_raised (s : State) (f : Lf → Lf) : (s.onLf f).raised = s.raised := rfl
@[simp] theorem State.onLf_awaited (s : State) (f : Lf → Lf) : (s.onLf f).awaited = s.awaited := rfl
@[simp] theorem State.onLf_uwb (s : State) (f : Lf → Lf) : (s.onLf f).uwb = s.uwb := rfl
@[simp] theorem State.onLf_rel (s : State) (f : Lf → Lf) : (s.onLf f).rel = s.rel := rfl
@[simp] theorem State.onLf_rad (s : State) (f : Lf → Lf) : (s.onLf f).rad = s.rad := rfl
@[simp] theorem State.onLf_sen (s : State) (f : Lf → Lf) : (s.onLf f).sen = s.sen := rfl
@[simp] theorem State.onLf_sec (s : State) (f : Lf → Lf) : (s.onLf f).sec = s.sec := rfl
@[simp] theorem State.onLf_rng (s : State) (f : Lf → Lf) : (s.onLf f).rng = s.rng := rfl
@[simp] theorem State.onLf_store (s : State) (f : Lf → Lf) : (s.onLf f).store = s.store := rfl
@[simp] theorem State.onLf_timers (s : State) (f : Lf → Lf) : (s.onLf f).timers = s.timers := rfl
@[simp] theorem State.onLf_cc (s : State) (f : Lf → Lf) : (s.onLf f).cc = s.cc := rfl
@[simp] theorem State.onLf_xc (s : State) (f : Lf → Lf) : (s.onLf f).xc = s.xc := rfl
@[simp] theorem State.onLf_ext (s : State) (f : Lf → Lf) : (s.onLf f).ext = s.ext := rfl
@[simp] theorem State.onLf_pair (s : State) (f : Lf → Lf) : (s.onLf f).pair = s.pair := rfl
@[simp] theorem State.onLf_bus (s : State) (f : Lf → Lf) : (s.onLf f).bus = s.bus := rfl
@[simp] theorem State.onLf_ero (s : State) (f : Lf → Lf) : (s.onLf f).ero = s.ero := rfl
@[simp] theorem State.onLf_eroAt (s : State) (f : Lf → Lf) : (s.onLf f).eroAt = s.eroAt := rfl
@[simp] theorem State.onLf_soundRun (s : State) (f : Lf → Lf) : (s.onLf f).soundRun = s.soundRun := rfl
@[simp] theorem State.onLf_free (s : State) (f : Lf → Lf) : (s.onLf f).free = s.free := rfl

@[simp] theorem State.onZon_pending (s : State) (f : Zon → Zon) : (s.onZon f).pending = s.pending := rfl
@[simp] theorem State.onZon_clk (s : State) (f : Zon → Zon) : (s.onZon f).clk = s.clk := rfl
@[simp] theorem State.onZon_pwr (s : State) (f : Zon → Zon) : (s.onZon f).pwr = s.pwr := rfl
@[simp] theorem State.onZon_evt (s : State) (f : Zon → Zon) : (s.onZon f).evt = s.evt := rfl
@[simp] theorem State.onZon_flt (s : State) (f : Zon → Zon) : (s.onZon f).flt = s.flt := rfl
@[simp] theorem State.onZon_par (s : State) (f : Zon → Zon) : (s.onZon f).par = s.par := rfl
@[simp] theorem State.onZon_mbx (s : State) (f : Zon → Zon) : (s.onZon f).mbx = s.mbx := rfl
@[simp] theorem State.onZon_mmb (s : State) (f : Zon → Zon) : (s.onZon f).mmb = s.mmb := rfl
@[simp] theorem State.onZon_wasOpen (s : State) (f : Zon → Zon) : (s.onZon f).wasOpen = s.wasOpen := rfl
@[simp] theorem State.onZon_lf (s : State) (f : Zon → Zon) : (s.onZon f).lf = s.lf := rfl
@[simp] theorem State.onZon_zon (s : State) (f : Zon → Zon) : (s.onZon f).zon = f s.zon := rfl
@[simp] theorem State.onZon_paths (s : State) (f : Zon → Zon) : (s.onZon f).paths = s.paths := rfl
@[simp] theorem State.onZon_path (s : State) (f : Zon → Zon) : (s.onZon f).path = s.path := rfl
@[simp] theorem State.onZon_lastAuth (s : State) (f : Zon → Zon) : (s.onZon f).lastAuth = s.lastAuth := rfl
@[simp] theorem State.onZon_raised (s : State) (f : Zon → Zon) : (s.onZon f).raised = s.raised := rfl
@[simp] theorem State.onZon_awaited (s : State) (f : Zon → Zon) : (s.onZon f).awaited = s.awaited := rfl
@[simp] theorem State.onZon_uwb (s : State) (f : Zon → Zon) : (s.onZon f).uwb = s.uwb := rfl
@[simp] theorem State.onZon_rel (s : State) (f : Zon → Zon) : (s.onZon f).rel = s.rel := rfl
@[simp] theorem State.onZon_rad (s : State) (f : Zon → Zon) : (s.onZon f).rad = s.rad := rfl
@[simp] theorem State.onZon_sen (s : State) (f : Zon → Zon) : (s.onZon f).sen = s.sen := rfl
@[simp] theorem State.onZon_sec (s : State) (f : Zon → Zon) : (s.onZon f).sec = s.sec := rfl
@[simp] theorem State.onZon_rng (s : State) (f : Zon → Zon) : (s.onZon f).rng = s.rng := rfl
@[simp] theorem State.onZon_store (s : State) (f : Zon → Zon) : (s.onZon f).store = s.store := rfl
@[simp] theorem State.onZon_timers (s : State) (f : Zon → Zon) : (s.onZon f).timers = s.timers := rfl
@[simp] theorem State.onZon_cc (s : State) (f : Zon → Zon) : (s.onZon f).cc = s.cc := rfl
@[simp] theorem State.onZon_xc (s : State) (f : Zon → Zon) : (s.onZon f).xc = s.xc := rfl
@[simp] theorem State.onZon_ext (s : State) (f : Zon → Zon) : (s.onZon f).ext = s.ext := rfl
@[simp] theorem State.onZon_pair (s : State) (f : Zon → Zon) : (s.onZon f).pair = s.pair := rfl
@[simp] theorem State.onZon_bus (s : State) (f : Zon → Zon) : (s.onZon f).bus = s.bus := rfl
@[simp] theorem State.onZon_ero (s : State) (f : Zon → Zon) : (s.onZon f).ero = s.ero := rfl
@[simp] theorem State.onZon_eroAt (s : State) (f : Zon → Zon) : (s.onZon f).eroAt = s.eroAt := rfl
@[simp] theorem State.onZon_soundRun (s : State) (f : Zon → Zon) : (s.onZon f).soundRun = s.soundRun := rfl
@[simp] theorem State.onZon_free (s : State) (f : Zon → Zon) : (s.onZon f).free = s.free := rfl

@[simp] theorem State.onUwb_pending (s : State) (f : Uwb → Uwb) : (s.onUwb f).pending = s.pending := rfl
@[simp] theorem State.onUwb_clk (s : State) (f : Uwb → Uwb) : (s.onUwb f).clk = s.clk := rfl
@[simp] theorem State.onUwb_pwr (s : State) (f : Uwb → Uwb) : (s.onUwb f).pwr = s.pwr := rfl
@[simp] theorem State.onUwb_evt (s : State) (f : Uwb → Uwb) : (s.onUwb f).evt = s.evt := rfl
@[simp] theorem State.onUwb_flt (s : State) (f : Uwb → Uwb) : (s.onUwb f).flt = s.flt := rfl
@[simp] theorem State.onUwb_par (s : State) (f : Uwb → Uwb) : (s.onUwb f).par = s.par := rfl
@[simp] theorem State.onUwb_mbx (s : State) (f : Uwb → Uwb) : (s.onUwb f).mbx = s.mbx := rfl
@[simp] theorem State.onUwb_mmb (s : State) (f : Uwb → Uwb) : (s.onUwb f).mmb = s.mmb := rfl
@[simp] theorem State.onUwb_wasOpen (s : State) (f : Uwb → Uwb) : (s.onUwb f).wasOpen = s.wasOpen := rfl
@[simp] theorem State.onUwb_lf (s : State) (f : Uwb → Uwb) : (s.onUwb f).lf = s.lf := rfl
@[simp] theorem State.onUwb_zon (s : State) (f : Uwb → Uwb) : (s.onUwb f).zon = s.zon := rfl
@[simp] theorem State.onUwb_paths (s : State) (f : Uwb → Uwb) : (s.onUwb f).paths = s.paths := rfl
@[simp] theorem State.onUwb_path (s : State) (f : Uwb → Uwb) : (s.onUwb f).path = s.path := rfl
@[simp] theorem State.onUwb_lastAuth (s : State) (f : Uwb → Uwb) : (s.onUwb f).lastAuth = s.lastAuth := rfl
@[simp] theorem State.onUwb_raised (s : State) (f : Uwb → Uwb) : (s.onUwb f).raised = s.raised := rfl
@[simp] theorem State.onUwb_awaited (s : State) (f : Uwb → Uwb) : (s.onUwb f).awaited = s.awaited := rfl
@[simp] theorem State.onUwb_uwb (s : State) (f : Uwb → Uwb) : (s.onUwb f).uwb = f s.uwb := rfl
@[simp] theorem State.onUwb_rel (s : State) (f : Uwb → Uwb) : (s.onUwb f).rel = s.rel := rfl
@[simp] theorem State.onUwb_rad (s : State) (f : Uwb → Uwb) : (s.onUwb f).rad = s.rad := rfl
@[simp] theorem State.onUwb_sen (s : State) (f : Uwb → Uwb) : (s.onUwb f).sen = s.sen := rfl
@[simp] theorem State.onUwb_sec (s : State) (f : Uwb → Uwb) : (s.onUwb f).sec = s.sec := rfl
@[simp] theorem State.onUwb_rng (s : State) (f : Uwb → Uwb) : (s.onUwb f).rng = s.rng := rfl
@[simp] theorem State.onUwb_store (s : State) (f : Uwb → Uwb) : (s.onUwb f).store = s.store := rfl
@[simp] theorem State.onUwb_timers (s : State) (f : Uwb → Uwb) : (s.onUwb f).timers = s.timers := rfl
@[simp] theorem State.onUwb_cc (s : State) (f : Uwb → Uwb) : (s.onUwb f).cc = s.cc := rfl
@[simp] theorem State.onUwb_xc (s : State) (f : Uwb → Uwb) : (s.onUwb f).xc = s.xc := rfl
@[simp] theorem State.onUwb_ext (s : State) (f : Uwb → Uwb) : (s.onUwb f).ext = s.ext := rfl
@[simp] theorem State.onUwb_pair (s : State) (f : Uwb → Uwb) : (s.onUwb f).pair = s.pair := rfl
@[simp] theorem State.onUwb_bus (s : State) (f : Uwb → Uwb) : (s.onUwb f).bus = s.bus := rfl
@[simp] theorem State.onUwb_ero (s : State) (f : Uwb → Uwb) : (s.onUwb f).ero = s.ero := rfl
@[simp] theorem State.onUwb_eroAt (s : State) (f : Uwb → Uwb) : (s.onUwb f).eroAt = s.eroAt := rfl
@[simp] theorem State.onUwb_soundRun (s : State) (f : Uwb → Uwb) : (s.onUwb f).soundRun = s.soundRun := rfl
@[simp] theorem State.onUwb_free (s : State) (f : Uwb → Uwb) : (s.onUwb f).free = s.free := rfl

@[simp] theorem State.onRel_pending (s : State) (f : Rel → Rel) : (s.onRel f).pending = s.pending := rfl
@[simp] theorem State.onRel_clk (s : State) (f : Rel → Rel) : (s.onRel f).clk = s.clk := rfl
@[simp] theorem State.onRel_pwr (s : State) (f : Rel → Rel) : (s.onRel f).pwr = s.pwr := rfl
@[simp] theorem State.onRel_evt (s : State) (f : Rel → Rel) : (s.onRel f).evt = s.evt := rfl
@[simp] theorem State.onRel_flt (s : State) (f : Rel → Rel) : (s.onRel f).flt = s.flt := rfl
@[simp] theorem State.onRel_par (s : State) (f : Rel → Rel) : (s.onRel f).par = s.par := rfl
@[simp] theorem State.onRel_mbx (s : State) (f : Rel → Rel) : (s.onRel f).mbx = s.mbx := rfl
@[simp] theorem State.onRel_mmb (s : State) (f : Rel → Rel) : (s.onRel f).mmb = s.mmb := rfl
@[simp] theorem State.onRel_wasOpen (s : State) (f : Rel → Rel) : (s.onRel f).wasOpen = s.wasOpen := rfl
@[simp] theorem State.onRel_lf (s : State) (f : Rel → Rel) : (s.onRel f).lf = s.lf := rfl
@[simp] theorem State.onRel_zon (s : State) (f : Rel → Rel) : (s.onRel f).zon = s.zon := rfl
@[simp] theorem State.onRel_paths (s : State) (f : Rel → Rel) : (s.onRel f).paths = s.paths := rfl
@[simp] theorem State.onRel_path (s : State) (f : Rel → Rel) : (s.onRel f).path = s.path := rfl
@[simp] theorem State.onRel_lastAuth (s : State) (f : Rel → Rel) : (s.onRel f).lastAuth = s.lastAuth := rfl
@[simp] theorem State.onRel_raised (s : State) (f : Rel → Rel) : (s.onRel f).raised = s.raised := rfl
@[simp] theorem State.onRel_awaited (s : State) (f : Rel → Rel) : (s.onRel f).awaited = s.awaited := rfl
@[simp] theorem State.onRel_uwb (s : State) (f : Rel → Rel) : (s.onRel f).uwb = s.uwb := rfl
@[simp] theorem State.onRel_rel (s : State) (f : Rel → Rel) : (s.onRel f).rel = f s.rel := rfl
@[simp] theorem State.onRel_rad (s : State) (f : Rel → Rel) : (s.onRel f).rad = s.rad := rfl
@[simp] theorem State.onRel_sen (s : State) (f : Rel → Rel) : (s.onRel f).sen = s.sen := rfl
@[simp] theorem State.onRel_sec (s : State) (f : Rel → Rel) : (s.onRel f).sec = s.sec := rfl
@[simp] theorem State.onRel_rng (s : State) (f : Rel → Rel) : (s.onRel f).rng = s.rng := rfl
@[simp] theorem State.onRel_store (s : State) (f : Rel → Rel) : (s.onRel f).store = s.store := rfl
@[simp] theorem State.onRel_timers (s : State) (f : Rel → Rel) : (s.onRel f).timers = s.timers := rfl
@[simp] theorem State.onRel_cc (s : State) (f : Rel → Rel) : (s.onRel f).cc = s.cc := rfl
@[simp] theorem State.onRel_xc (s : State) (f : Rel → Rel) : (s.onRel f).xc = s.xc := rfl
@[simp] theorem State.onRel_ext (s : State) (f : Rel → Rel) : (s.onRel f).ext = s.ext := rfl
@[simp] theorem State.onRel_pair (s : State) (f : Rel → Rel) : (s.onRel f).pair = s.pair := rfl
@[simp] theorem State.onRel_bus (s : State) (f : Rel → Rel) : (s.onRel f).bus = s.bus := rfl
@[simp] theorem State.onRel_ero (s : State) (f : Rel → Rel) : (s.onRel f).ero = s.ero := rfl
@[simp] theorem State.onRel_eroAt (s : State) (f : Rel → Rel) : (s.onRel f).eroAt = s.eroAt := rfl
@[simp] theorem State.onRel_soundRun (s : State) (f : Rel → Rel) : (s.onRel f).soundRun = s.soundRun := rfl
@[simp] theorem State.onRel_free (s : State) (f : Rel → Rel) : (s.onRel f).free = s.free := rfl

@[simp] theorem State.onRad_pending (s : State) (f : Rad → Rad) : (s.onRad f).pending = s.pending := rfl
@[simp] theorem State.onRad_clk (s : State) (f : Rad → Rad) : (s.onRad f).clk = s.clk := rfl
@[simp] theorem State.onRad_pwr (s : State) (f : Rad → Rad) : (s.onRad f).pwr = s.pwr := rfl
@[simp] theorem State.onRad_evt (s : State) (f : Rad → Rad) : (s.onRad f).evt = s.evt := rfl
@[simp] theorem State.onRad_flt (s : State) (f : Rad → Rad) : (s.onRad f).flt = s.flt := rfl
@[simp] theorem State.onRad_par (s : State) (f : Rad → Rad) : (s.onRad f).par = s.par := rfl
@[simp] theorem State.onRad_mbx (s : State) (f : Rad → Rad) : (s.onRad f).mbx = s.mbx := rfl
@[simp] theorem State.onRad_mmb (s : State) (f : Rad → Rad) : (s.onRad f).mmb = s.mmb := rfl
@[simp] theorem State.onRad_wasOpen (s : State) (f : Rad → Rad) : (s.onRad f).wasOpen = s.wasOpen := rfl
@[simp] theorem State.onRad_lf (s : State) (f : Rad → Rad) : (s.onRad f).lf = s.lf := rfl
@[simp] theorem State.onRad_zon (s : State) (f : Rad → Rad) : (s.onRad f).zon = s.zon := rfl
@[simp] theorem State.onRad_paths (s : State) (f : Rad → Rad) : (s.onRad f).paths = s.paths := rfl
@[simp] theorem State.onRad_path (s : State) (f : Rad → Rad) : (s.onRad f).path = s.path := rfl
@[simp] theorem State.onRad_lastAuth (s : State) (f : Rad → Rad) : (s.onRad f).lastAuth = s.lastAuth := rfl
@[simp] theorem State.onRad_raised (s : State) (f : Rad → Rad) : (s.onRad f).raised = s.raised := rfl
@[simp] theorem State.onRad_awaited (s : State) (f : Rad → Rad) : (s.onRad f).awaited = s.awaited := rfl
@[simp] theorem State.onRad_uwb (s : State) (f : Rad → Rad) : (s.onRad f).uwb = s.uwb := rfl
@[simp] theorem State.onRad_rel (s : State) (f : Rad → Rad) : (s.onRad f).rel = s.rel := rfl
@[simp] theorem State.onRad_rad (s : State) (f : Rad → Rad) : (s.onRad f).rad = f s.rad := rfl
@[simp] theorem State.onRad_sen (s : State) (f : Rad → Rad) : (s.onRad f).sen = s.sen := rfl
@[simp] theorem State.onRad_sec (s : State) (f : Rad → Rad) : (s.onRad f).sec = s.sec := rfl
@[simp] theorem State.onRad_rng (s : State) (f : Rad → Rad) : (s.onRad f).rng = s.rng := rfl
@[simp] theorem State.onRad_store (s : State) (f : Rad → Rad) : (s.onRad f).store = s.store := rfl
@[simp] theorem State.onRad_timers (s : State) (f : Rad → Rad) : (s.onRad f).timers = s.timers := rfl
@[simp] theorem State.onRad_cc (s : State) (f : Rad → Rad) : (s.onRad f).cc = s.cc := rfl
@[simp] theorem State.onRad_xc (s : State) (f : Rad → Rad) : (s.onRad f).xc = s.xc := rfl
@[simp] theorem State.onRad_ext (s : State) (f : Rad → Rad) : (s.onRad f).ext = s.ext := rfl
@[simp] theorem State.onRad_pair (s : State) (f : Rad → Rad) : (s.onRad f).pair = s.pair := rfl
@[simp] theorem State.onRad_bus (s : State) (f : Rad → Rad) : (s.onRad f).bus = s.bus := rfl
@[simp] theorem State.onRad_ero (s : State) (f : Rad → Rad) : (s.onRad f).ero = s.ero := rfl
@[simp] theorem State.onRad_eroAt (s : State) (f : Rad → Rad) : (s.onRad f).eroAt = s.eroAt := rfl
@[simp] theorem State.onRad_soundRun (s : State) (f : Rad → Rad) : (s.onRad f).soundRun = s.soundRun := rfl
@[simp] theorem State.onRad_free (s : State) (f : Rad → Rad) : (s.onRad f).free = s.free := rfl

@[simp] theorem State.onSen_pending (s : State) (f : Sen → Sen) : (s.onSen f).pending = s.pending := rfl
@[simp] theorem State.onSen_clk (s : State) (f : Sen → Sen) : (s.onSen f).clk = s.clk := rfl
@[simp] theorem State.onSen_pwr (s : State) (f : Sen → Sen) : (s.onSen f).pwr = s.pwr := rfl
@[simp] theorem State.onSen_evt (s : State) (f : Sen → Sen) : (s.onSen f).evt = s.evt := rfl
@[simp] theorem State.onSen_flt (s : State) (f : Sen → Sen) : (s.onSen f).flt = s.flt := rfl
@[simp] theorem State.onSen_par (s : State) (f : Sen → Sen) : (s.onSen f).par = s.par := rfl
@[simp] theorem State.onSen_mbx (s : State) (f : Sen → Sen) : (s.onSen f).mbx = s.mbx := rfl
@[simp] theorem State.onSen_mmb (s : State) (f : Sen → Sen) : (s.onSen f).mmb = s.mmb := rfl
@[simp] theorem State.onSen_wasOpen (s : State) (f : Sen → Sen) : (s.onSen f).wasOpen = s.wasOpen := rfl
@[simp] theorem State.onSen_lf (s : State) (f : Sen → Sen) : (s.onSen f).lf = s.lf := rfl
@[simp] theorem State.onSen_zon (s : State) (f : Sen → Sen) : (s.onSen f).zon = s.zon := rfl
@[simp] theorem State.onSen_paths (s : State) (f : Sen → Sen) : (s.onSen f).paths = s.paths := rfl
@[simp] theorem State.onSen_path (s : State) (f : Sen → Sen) : (s.onSen f).path = s.path := rfl
@[simp] theorem State.onSen_lastAuth (s : State) (f : Sen → Sen) : (s.onSen f).lastAuth = s.lastAuth := rfl
@[simp] theorem State.onSen_raised (s : State) (f : Sen → Sen) : (s.onSen f).raised = s.raised := rfl
@[simp] theorem State.onSen_awaited (s : State) (f : Sen → Sen) : (s.onSen f).awaited = s.awaited := rfl
@[simp] theorem State.onSen_uwb (s : State) (f : Sen → Sen) : (s.onSen f).uwb = s.uwb := rfl
@[simp] theorem State.onSen_rel (s : State) (f : Sen → Sen) : (s.onSen f).rel = s.rel := rfl
@[simp] theorem State.onSen_rad (s : State) (f : Sen → Sen) : (s.onSen f).rad = s.rad := rfl
@[simp] theorem State.onSen_sen (s : State) (f : Sen → Sen) : (s.onSen f).sen = f s.sen := rfl
@[simp] theorem State.onSen_sec (s : State) (f : Sen → Sen) : (s.onSen f).sec = s.sec := rfl
@[simp] theorem State.onSen_rng (s : State) (f : Sen → Sen) : (s.onSen f).rng = s.rng := rfl
@[simp] theorem State.onSen_store (s : State) (f : Sen → Sen) : (s.onSen f).store = s.store := rfl
@[simp] theorem State.onSen_timers (s : State) (f : Sen → Sen) : (s.onSen f).timers = s.timers := rfl
@[simp] theorem State.onSen_cc (s : State) (f : Sen → Sen) : (s.onSen f).cc = s.cc := rfl
@[simp] theorem State.onSen_xc (s : State) (f : Sen → Sen) : (s.onSen f).xc = s.xc := rfl
@[simp] theorem State.onSen_ext (s : State) (f : Sen → Sen) : (s.onSen f).ext = s.ext := rfl
@[simp] theorem State.onSen_pair (s : State) (f : Sen → Sen) : (s.onSen f).pair = s.pair := rfl
@[simp] theorem State.onSen_bus (s : State) (f : Sen → Sen) : (s.onSen f).bus = s.bus := rfl
@[simp] theorem State.onSen_ero (s : State) (f : Sen → Sen) : (s.onSen f).ero = s.ero := rfl
@[simp] theorem State.onSen_eroAt (s : State) (f : Sen → Sen) : (s.onSen f).eroAt = s.eroAt := rfl
@[simp] theorem State.onSen_soundRun (s : State) (f : Sen → Sen) : (s.onSen f).soundRun = s.soundRun := rfl
@[simp] theorem State.onSen_free (s : State) (f : Sen → Sen) : (s.onSen f).free = s.free := rfl

@[simp] theorem State.onSec_pending (s : State) (f : Sec → Sec) : (s.onSec f).pending = s.pending := rfl
@[simp] theorem State.onSec_clk (s : State) (f : Sec → Sec) : (s.onSec f).clk = s.clk := rfl
@[simp] theorem State.onSec_pwr (s : State) (f : Sec → Sec) : (s.onSec f).pwr = s.pwr := rfl
@[simp] theorem State.onSec_evt (s : State) (f : Sec → Sec) : (s.onSec f).evt = s.evt := rfl
@[simp] theorem State.onSec_flt (s : State) (f : Sec → Sec) : (s.onSec f).flt = s.flt := rfl
@[simp] theorem State.onSec_par (s : State) (f : Sec → Sec) : (s.onSec f).par = s.par := rfl
@[simp] theorem State.onSec_mbx (s : State) (f : Sec → Sec) : (s.onSec f).mbx = s.mbx := rfl
@[simp] theorem State.onSec_mmb (s : State) (f : Sec → Sec) : (s.onSec f).mmb = s.mmb := rfl
@[simp] theorem State.onSec_wasOpen (s : State) (f : Sec → Sec) : (s.onSec f).wasOpen = s.wasOpen := rfl
@[simp] theorem State.onSec_lf (s : State) (f : Sec → Sec) : (s.onSec f).lf = s.lf := rfl
@[simp] theorem State.onSec_zon (s : State) (f : Sec → Sec) : (s.onSec f).zon = s.zon := rfl
@[simp] theorem State.onSec_paths (s : State) (f : Sec → Sec) : (s.onSec f).paths = s.paths := rfl
@[simp] theorem State.onSec_path (s : State) (f : Sec → Sec) : (s.onSec f).path = s.path := rfl
@[simp] theorem State.onSec_lastAuth (s : State) (f : Sec → Sec) : (s.onSec f).lastAuth = s.lastAuth := rfl
@[simp] theorem State.onSec_raised (s : State) (f : Sec → Sec) : (s.onSec f).raised = s.raised := rfl
@[simp] theorem State.onSec_awaited (s : State) (f : Sec → Sec) : (s.onSec f).awaited = s.awaited := rfl
@[simp] theorem State.onSec_uwb (s : State) (f : Sec → Sec) : (s.onSec f).uwb = s.uwb := rfl
@[simp] theorem State.onSec_rel (s : State) (f : Sec → Sec) : (s.onSec f).rel = s.rel := rfl
@[simp] theorem State.onSec_rad (s : State) (f : Sec → Sec) : (s.onSec f).rad = s.rad := rfl
@[simp] theorem State.onSec_sen (s : State) (f : Sec → Sec) : (s.onSec f).sen = s.sen := rfl
@[simp] theorem State.onSec_sec (s : State) (f : Sec → Sec) : (s.onSec f).sec = f s.sec := rfl
@[simp] theorem State.onSec_rng (s : State) (f : Sec → Sec) : (s.onSec f).rng = s.rng := rfl
@[simp] theorem State.onSec_store (s : State) (f : Sec → Sec) : (s.onSec f).store = s.store := rfl
@[simp] theorem State.onSec_timers (s : State) (f : Sec → Sec) : (s.onSec f).timers = s.timers := rfl
@[simp] theorem State.onSec_cc (s : State) (f : Sec → Sec) : (s.onSec f).cc = s.cc := rfl
@[simp] theorem State.onSec_xc (s : State) (f : Sec → Sec) : (s.onSec f).xc = s.xc := rfl
@[simp] theorem State.onSec_ext (s : State) (f : Sec → Sec) : (s.onSec f).ext = s.ext := rfl
@[simp] theorem State.onSec_pair (s : State) (f : Sec → Sec) : (s.onSec f).pair = s.pair := rfl
@[simp] theorem State.onSec_bus (s : State) (f : Sec → Sec) : (s.onSec f).bus = s.bus := rfl
@[simp] theorem State.onSec_ero (s : State) (f : Sec → Sec) : (s.onSec f).ero = s.ero := rfl
@[simp] theorem State.onSec_eroAt (s : State) (f : Sec → Sec) : (s.onSec f).eroAt = s.eroAt := rfl
@[simp] theorem State.onSec_soundRun (s : State) (f : Sec → Sec) : (s.onSec f).soundRun = s.soundRun := rfl
@[simp] theorem State.onSec_free (s : State) (f : Sec → Sec) : (s.onSec f).free = s.free := rfl

@[simp] theorem State.onRng_pending (s : State) (f : Rng → Rng) : (s.onRng f).pending = s.pending := rfl
@[simp] theorem State.onRng_clk (s : State) (f : Rng → Rng) : (s.onRng f).clk = s.clk := rfl
@[simp] theorem State.onRng_pwr (s : State) (f : Rng → Rng) : (s.onRng f).pwr = s.pwr := rfl
@[simp] theorem State.onRng_evt (s : State) (f : Rng → Rng) : (s.onRng f).evt = s.evt := rfl
@[simp] theorem State.onRng_flt (s : State) (f : Rng → Rng) : (s.onRng f).flt = s.flt := rfl
@[simp] theorem State.onRng_par (s : State) (f : Rng → Rng) : (s.onRng f).par = s.par := rfl
@[simp] theorem State.onRng_mbx (s : State) (f : Rng → Rng) : (s.onRng f).mbx = s.mbx := rfl
@[simp] theorem State.onRng_mmb (s : State) (f : Rng → Rng) : (s.onRng f).mmb = s.mmb := rfl
@[simp] theorem State.onRng_wasOpen (s : State) (f : Rng → Rng) : (s.onRng f).wasOpen = s.wasOpen := rfl
@[simp] theorem State.onRng_lf (s : State) (f : Rng → Rng) : (s.onRng f).lf = s.lf := rfl
@[simp] theorem State.onRng_zon (s : State) (f : Rng → Rng) : (s.onRng f).zon = s.zon := rfl
@[simp] theorem State.onRng_paths (s : State) (f : Rng → Rng) : (s.onRng f).paths = s.paths := rfl
@[simp] theorem State.onRng_path (s : State) (f : Rng → Rng) : (s.onRng f).path = s.path := rfl
@[simp] theorem State.onRng_lastAuth (s : State) (f : Rng → Rng) : (s.onRng f).lastAuth = s.lastAuth := rfl
@[simp] theorem State.onRng_raised (s : State) (f : Rng → Rng) : (s.onRng f).raised = s.raised := rfl
@[simp] theorem State.onRng_awaited (s : State) (f : Rng → Rng) : (s.onRng f).awaited = s.awaited := rfl
@[simp] theorem State.onRng_uwb (s : State) (f : Rng → Rng) : (s.onRng f).uwb = s.uwb := rfl
@[simp] theorem State.onRng_rel (s : State) (f : Rng → Rng) : (s.onRng f).rel = s.rel := rfl
@[simp] theorem State.onRng_rad (s : State) (f : Rng → Rng) : (s.onRng f).rad = s.rad := rfl
@[simp] theorem State.onRng_sen (s : State) (f : Rng → Rng) : (s.onRng f).sen = s.sen := rfl
@[simp] theorem State.onRng_sec (s : State) (f : Rng → Rng) : (s.onRng f).sec = s.sec := rfl
@[simp] theorem State.onRng_rng (s : State) (f : Rng → Rng) : (s.onRng f).rng = f s.rng := rfl
@[simp] theorem State.onRng_store (s : State) (f : Rng → Rng) : (s.onRng f).store = s.store := rfl
@[simp] theorem State.onRng_timers (s : State) (f : Rng → Rng) : (s.onRng f).timers = s.timers := rfl
@[simp] theorem State.onRng_cc (s : State) (f : Rng → Rng) : (s.onRng f).cc = s.cc := rfl
@[simp] theorem State.onRng_xc (s : State) (f : Rng → Rng) : (s.onRng f).xc = s.xc := rfl
@[simp] theorem State.onRng_ext (s : State) (f : Rng → Rng) : (s.onRng f).ext = s.ext := rfl
@[simp] theorem State.onRng_pair (s : State) (f : Rng → Rng) : (s.onRng f).pair = s.pair := rfl
@[simp] theorem State.onRng_bus (s : State) (f : Rng → Rng) : (s.onRng f).bus = s.bus := rfl
@[simp] theorem State.onRng_ero (s : State) (f : Rng → Rng) : (s.onRng f).ero = s.ero := rfl
@[simp] theorem State.onRng_eroAt (s : State) (f : Rng → Rng) : (s.onRng f).eroAt = s.eroAt := rfl
@[simp] theorem State.onRng_soundRun (s : State) (f : Rng → Rng) : (s.onRng f).soundRun = s.soundRun := rfl
@[simp] theorem State.onRng_free (s : State) (f : Rng → Rng) : (s.onRng f).free = s.free := rfl

@[simp] theorem State.onStore_pending (s : State) (f : Store → Store) : (s.onStore f).pending = s.pending := rfl
@[simp] theorem State.onStore_clk (s : State) (f : Store → Store) : (s.onStore f).clk = s.clk := rfl
@[simp] theorem State.onStore_pwr (s : State) (f : Store → Store) : (s.onStore f).pwr = s.pwr := rfl
@[simp] theorem State.onStore_evt (s : State) (f : Store → Store) : (s.onStore f).evt = s.evt := rfl
@[simp] theorem State.onStore_flt (s : State) (f : Store → Store) : (s.onStore f).flt = s.flt := rfl
@[simp] theorem State.onStore_par (s : State) (f : Store → Store) : (s.onStore f).par = s.par := rfl
@[simp] theorem State.onStore_mbx (s : State) (f : Store → Store) : (s.onStore f).mbx = s.mbx := rfl
@[simp] theorem State.onStore_mmb (s : State) (f : Store → Store) : (s.onStore f).mmb = s.mmb := rfl
@[simp] theorem State.onStore_wasOpen (s : State) (f : Store → Store) : (s.onStore f).wasOpen = s.wasOpen := rfl
@[simp] theorem State.onStore_lf (s : State) (f : Store → Store) : (s.onStore f).lf = s.lf := rfl
@[simp] theorem State.onStore_zon (s : State) (f : Store → Store) : (s.onStore f).zon = s.zon := rfl
@[simp] theorem State.onStore_paths (s : State) (f : Store → Store) : (s.onStore f).paths = s.paths := rfl
@[simp] theorem State.onStore_path (s : State) (f : Store → Store) : (s.onStore f).path = s.path := rfl
@[simp] theorem State.onStore_lastAuth (s : State) (f : Store → Store) : (s.onStore f).lastAuth = s.lastAuth := rfl
@[simp] theorem State.onStore_raised (s : State) (f : Store → Store) : (s.onStore f).raised = s.raised := rfl
@[simp] theorem State.onStore_awaited (s : State) (f : Store → Store) : (s.onStore f).awaited = s.awaited := rfl
@[simp] theorem State.onStore_uwb (s : State) (f : Store → Store) : (s.onStore f).uwb = s.uwb := rfl
@[simp] theorem State.onStore_rel (s : State) (f : Store → Store) : (s.onStore f).rel = s.rel := rfl
@[simp] theorem State.onStore_rad (s : State) (f : Store → Store) : (s.onStore f).rad = s.rad := rfl
@[simp] theorem State.onStore_sen (s : State) (f : Store → Store) : (s.onStore f).sen = s.sen := rfl
@[simp] theorem State.onStore_sec (s : State) (f : Store → Store) : (s.onStore f).sec = s.sec := rfl
@[simp] theorem State.onStore_rng (s : State) (f : Store → Store) : (s.onStore f).rng = s.rng := rfl
@[simp] theorem State.onStore_store (s : State) (f : Store → Store) : (s.onStore f).store = f s.store := rfl
@[simp] theorem State.onStore_timers (s : State) (f : Store → Store) : (s.onStore f).timers = s.timers := rfl
@[simp] theorem State.onStore_cc (s : State) (f : Store → Store) : (s.onStore f).cc = s.cc := rfl
@[simp] theorem State.onStore_xc (s : State) (f : Store → Store) : (s.onStore f).xc = s.xc := rfl
@[simp] theorem State.onStore_ext (s : State) (f : Store → Store) : (s.onStore f).ext = s.ext := rfl
@[simp] theorem State.onStore_pair (s : State) (f : Store → Store) : (s.onStore f).pair = s.pair := rfl
@[simp] theorem State.onStore_bus (s : State) (f : Store → Store) : (s.onStore f).bus = s.bus := rfl
@[simp] theorem State.onStore_ero (s : State) (f : Store → Store) : (s.onStore f).ero = s.ero := rfl
@[simp] theorem State.onStore_eroAt (s : State) (f : Store → Store) : (s.onStore f).eroAt = s.eroAt := rfl
@[simp] theorem State.onStore_soundRun (s : State) (f : Store → Store) : (s.onStore f).soundRun = s.soundRun := rfl
@[simp] theorem State.onStore_free (s : State) (f : Store → Store) : (s.onStore f).free = s.free := rfl

@[simp] theorem State.onExt_pending (s : State) (f : Ext → Ext) : (s.onExt f).pending = s.pending := rfl
@[simp] theorem State.onExt_clk (s : State) (f : Ext → Ext) : (s.onExt f).clk = s.clk := rfl
@[simp] theorem State.onExt_pwr (s : State) (f : Ext → Ext) : (s.onExt f).pwr = s.pwr := rfl
@[simp] theorem State.onExt_evt (s : State) (f : Ext → Ext) : (s.onExt f).evt = s.evt := rfl
@[simp] theorem State.onExt_flt (s : State) (f : Ext → Ext) : (s.onExt f).flt = s.flt := rfl
@[simp] theorem State.onExt_par (s : State) (f : Ext → Ext) : (s.onExt f).par = s.par := rfl
@[simp] theorem State.onExt_mbx (s : State) (f : Ext → Ext) : (s.onExt f).mbx = s.mbx := rfl
@[simp] theorem State.onExt_mmb (s : State) (f : Ext → Ext) : (s.onExt f).mmb = s.mmb := rfl
@[simp] theorem State.onExt_wasOpen (s : State) (f : Ext → Ext) : (s.onExt f).wasOpen = s.wasOpen := rfl
@[simp] theorem State.onExt_lf (s : State) (f : Ext → Ext) : (s.onExt f).lf = s.lf := rfl
@[simp] theorem State.onExt_zon (s : State) (f : Ext → Ext) : (s.onExt f).zon = s.zon := rfl
@[simp] theorem State.onExt_paths (s : State) (f : Ext → Ext) : (s.onExt f).paths = s.paths := rfl
@[simp] theorem State.onExt_path (s : State) (f : Ext → Ext) : (s.onExt f).path = s.path := rfl
@[simp] theorem State.onExt_lastAuth (s : State) (f : Ext → Ext) : (s.onExt f).lastAuth = s.lastAuth := rfl
@[simp] theorem State.onExt_raised (s : State) (f : Ext → Ext) : (s.onExt f).raised = s.raised := rfl
@[simp] theorem State.onExt_awaited (s : State) (f : Ext → Ext) : (s.onExt f).awaited = s.awaited := rfl
@[simp] theorem State.onExt_uwb (s : State) (f : Ext → Ext) : (s.onExt f).uwb = s.uwb := rfl
@[simp] theorem State.onExt_rel (s : State) (f : Ext → Ext) : (s.onExt f).rel = s.rel := rfl
@[simp] theorem State.onExt_rad (s : State) (f : Ext → Ext) : (s.onExt f).rad = s.rad := rfl
@[simp] theorem State.onExt_sen (s : State) (f : Ext → Ext) : (s.onExt f).sen = s.sen := rfl
@[simp] theorem State.onExt_sec (s : State) (f : Ext → Ext) : (s.onExt f).sec = s.sec := rfl
@[simp] theorem State.onExt_rng (s : State) (f : Ext → Ext) : (s.onExt f).rng = s.rng := rfl
@[simp] theorem State.onExt_store (s : State) (f : Ext → Ext) : (s.onExt f).store = s.store := rfl
@[simp] theorem State.onExt_timers (s : State) (f : Ext → Ext) : (s.onExt f).timers = s.timers := rfl
@[simp] theorem State.onExt_cc (s : State) (f : Ext → Ext) : (s.onExt f).cc = s.cc := rfl
@[simp] theorem State.onExt_xc (s : State) (f : Ext → Ext) : (s.onExt f).xc = s.xc := rfl
@[simp] theorem State.onExt_ext (s : State) (f : Ext → Ext) : (s.onExt f).ext = f s.ext := rfl
@[simp] theorem State.onExt_pair (s : State) (f : Ext → Ext) : (s.onExt f).pair = s.pair := rfl
@[simp] theorem State.onExt_bus (s : State) (f : Ext → Ext) : (s.onExt f).bus = s.bus := rfl
@[simp] theorem State.onExt_ero (s : State) (f : Ext → Ext) : (s.onExt f).ero = s.ero := rfl
@[simp] theorem State.onExt_eroAt (s : State) (f : Ext → Ext) : (s.onExt f).eroAt = s.eroAt := rfl
@[simp] theorem State.onExt_soundRun (s : State) (f : Ext → Ext) : (s.onExt f).soundRun = s.soundRun := rfl
@[simp] theorem State.onExt_free (s : State) (f : Ext → Ext) : (s.onExt f).free = s.free := rfl

@[simp] theorem State.onPair_pending (s : State) (f : Pair → Pair) : (s.onPair f).pending = s.pending := rfl
@[simp] theorem State.onPair_clk (s : State) (f : Pair → Pair) : (s.onPair f).clk = s.clk := rfl
@[simp] theorem State.onPair_pwr (s : State) (f : Pair → Pair) : (s.onPair f).pwr = s.pwr := rfl
@[simp] theorem State.onPair_evt (s : State) (f : Pair → Pair) : (s.onPair f).evt = s.evt := rfl
@[simp] theorem State.onPair_flt (s : State) (f : Pair → Pair) : (s.onPair f).flt = s.flt := rfl
@[simp] theorem State.onPair_par (s : State) (f : Pair → Pair) : (s.onPair f).par = s.par := rfl
@[simp] theorem State.onPair_mbx (s : State) (f : Pair → Pair) : (s.onPair f).mbx = s.mbx := rfl
@[simp] theorem State.onPair_mmb (s : State) (f : Pair → Pair) : (s.onPair f).mmb = s.mmb := rfl
@[simp] theorem State.onPair_wasOpen (s : State) (f : Pair → Pair) : (s.onPair f).wasOpen = s.wasOpen := rfl
@[simp] theorem State.onPair_lf (s : State) (f : Pair → Pair) : (s.onPair f).lf = s.lf := rfl
@[simp] theorem State.onPair_zon (s : State) (f : Pair → Pair) : (s.onPair f).zon = s.zon := rfl
@[simp] theorem State.onPair_paths (s : State) (f : Pair → Pair) : (s.onPair f).paths = s.paths := rfl
@[simp] theorem State.onPair_path (s : State) (f : Pair → Pair) : (s.onPair f).path = s.path := rfl
@[simp] theorem State.onPair_lastAuth (s : State) (f : Pair → Pair) : (s.onPair f).lastAuth = s.lastAuth := rfl
@[simp] theorem State.onPair_raised (s : State) (f : Pair → Pair) : (s.onPair f).raised = s.raised := rfl
@[simp] theorem State.onPair_awaited (s : State) (f : Pair → Pair) : (s.onPair f).awaited = s.awaited := rfl
@[simp] theorem State.onPair_uwb (s : State) (f : Pair → Pair) : (s.onPair f).uwb = s.uwb := rfl
@[simp] theorem State.onPair_rel (s : State) (f : Pair → Pair) : (s.onPair f).rel = s.rel := rfl
@[simp] theorem State.onPair_rad (s : State) (f : Pair → Pair) : (s.onPair f).rad = s.rad := rfl
@[simp] theorem State.onPair_sen (s : State) (f : Pair → Pair) : (s.onPair f).sen = s.sen := rfl
@[simp] theorem State.onPair_sec (s : State) (f : Pair → Pair) : (s.onPair f).sec = s.sec := rfl
@[simp] theorem State.onPair_rng (s : State) (f : Pair → Pair) : (s.onPair f).rng = s.rng := rfl
@[simp] theorem State.onPair_store (s : State) (f : Pair → Pair) : (s.onPair f).store = s.store := rfl
@[simp] theorem State.onPair_timers (s : State) (f : Pair → Pair) : (s.onPair f).timers = s.timers := rfl
@[simp] theorem State.onPair_cc (s : State) (f : Pair → Pair) : (s.onPair f).cc = s.cc := rfl
@[simp] theorem State.onPair_xc (s : State) (f : Pair → Pair) : (s.onPair f).xc = s.xc := rfl
@[simp] theorem State.onPair_ext (s : State) (f : Pair → Pair) : (s.onPair f).ext = s.ext := rfl
@[simp] theorem State.onPair_pair (s : State) (f : Pair → Pair) : (s.onPair f).pair = f s.pair := rfl
@[simp] theorem State.onPair_bus (s : State) (f : Pair → Pair) : (s.onPair f).bus = s.bus := rfl
@[simp] theorem State.onPair_ero (s : State) (f : Pair → Pair) : (s.onPair f).ero = s.ero := rfl
@[simp] theorem State.onPair_eroAt (s : State) (f : Pair → Pair) : (s.onPair f).eroAt = s.eroAt := rfl
@[simp] theorem State.onPair_soundRun (s : State) (f : Pair → Pair) : (s.onPair f).soundRun = s.soundRun := rfl
@[simp] theorem State.onPair_free (s : State) (f : Pair → Pair) : (s.onPair f).free = s.free := rfl

@[simp] theorem State.onBus_pending (s : State) (f : Buses → Buses) : (s.onBus f).pending = s.pending := rfl
@[simp] theorem State.onBus_clk (s : State) (f : Buses → Buses) : (s.onBus f).clk = s.clk := rfl
@[simp] theorem State.onBus_pwr (s : State) (f : Buses → Buses) : (s.onBus f).pwr = s.pwr := rfl
@[simp] theorem State.onBus_evt (s : State) (f : Buses → Buses) : (s.onBus f).evt = s.evt := rfl
@[simp] theorem State.onBus_flt (s : State) (f : Buses → Buses) : (s.onBus f).flt = s.flt := rfl
@[simp] theorem State.onBus_par (s : State) (f : Buses → Buses) : (s.onBus f).par = s.par := rfl
@[simp] theorem State.onBus_mbx (s : State) (f : Buses → Buses) : (s.onBus f).mbx = s.mbx := rfl
@[simp] theorem State.onBus_mmb (s : State) (f : Buses → Buses) : (s.onBus f).mmb = s.mmb := rfl
@[simp] theorem State.onBus_wasOpen (s : State) (f : Buses → Buses) : (s.onBus f).wasOpen = s.wasOpen := rfl
@[simp] theorem State.onBus_lf (s : State) (f : Buses → Buses) : (s.onBus f).lf = s.lf := rfl
@[simp] theorem State.onBus_zon (s : State) (f : Buses → Buses) : (s.onBus f).zon = s.zon := rfl
@[simp] theorem State.onBus_paths (s : State) (f : Buses → Buses) : (s.onBus f).paths = s.paths := rfl
@[simp] theorem State.onBus_path (s : State) (f : Buses → Buses) : (s.onBus f).path = s.path := rfl
@[simp] theorem State.onBus_lastAuth (s : State) (f : Buses → Buses) : (s.onBus f).lastAuth = s.lastAuth := rfl
@[simp] theorem State.onBus_raised (s : State) (f : Buses → Buses) : (s.onBus f).raised = s.raised := rfl
@[simp] theorem State.onBus_awaited (s : State) (f : Buses → Buses) : (s.onBus f).awaited = s.awaited := rfl
@[simp] theorem State.onBus_uwb (s : State) (f : Buses → Buses) : (s.onBus f).uwb = s.uwb := rfl
@[simp] theorem State.onBus_rel (s : State) (f : Buses → Buses) : (s.onBus f).rel = s.rel := rfl
@[simp] theorem State.onBus_rad (s : State) (f : Buses → Buses) : (s.onBus f).rad = s.rad := rfl
@[simp] theorem State.onBus_sen (s : State) (f : Buses → Buses) : (s.onBus f).sen = s.sen := rfl
@[simp] theorem State.onBus_sec (s : State) (f : Buses → Buses) : (s.onBus f).sec = s.sec := rfl
@[simp] theorem State.onBus_rng (s : State) (f : Buses → Buses) : (s.onBus f).rng = s.rng := rfl
@[simp] theorem State.onBus_store (s : State) (f : Buses → Buses) : (s.onBus f).store = s.store := rfl
@[simp] theorem State.onBus_timers (s : State) (f : Buses → Buses) : (s.onBus f).timers = s.timers := rfl
@[simp] theorem State.onBus_cc (s : State) (f : Buses → Buses) : (s.onBus f).cc = s.cc := rfl
@[simp] theorem State.onBus_xc (s : State) (f : Buses → Buses) : (s.onBus f).xc = s.xc := rfl
@[simp] theorem State.onBus_ext (s : State) (f : Buses → Buses) : (s.onBus f).ext = s.ext := rfl
@[simp] theorem State.onBus_pair (s : State) (f : Buses → Buses) : (s.onBus f).pair = s.pair := rfl
@[simp] theorem State.onBus_bus (s : State) (f : Buses → Buses) : (s.onBus f).bus = f s.bus := rfl
@[simp] theorem State.onBus_ero (s : State) (f : Buses → Buses) : (s.onBus f).ero = s.ero := rfl
@[simp] theorem State.onBus_eroAt (s : State) (f : Buses → Buses) : (s.onBus f).eroAt = s.eroAt := rfl
@[simp] theorem State.onBus_soundRun (s : State) (f : Buses → Buses) : (s.onBus f).soundRun = s.soundRun := rfl
@[simp] theorem State.onBus_free (s : State) (f : Buses → Buses) : (s.onBus f).free = s.free := rfl

@[simp] theorem State.onPath_pending (s : State) (f : Path → Path) : (s.onPath f).pending = s.pending := rfl
@[simp] theorem State.onPath_clk (s : State) (f : Path → Path) : (s.onPath f).clk = s.clk := rfl
@[simp] theorem State.onPath_pwr (s : State) (f : Path → Path) : (s.onPath f).pwr = s.pwr := rfl
@[simp] theorem State.onPath_evt (s : State) (f : Path → Path) : (s.onPath f).evt = s.evt := rfl
@[simp] theorem State.onPath_flt (s : State) (f : Path → Path) : (s.onPath f).flt = s.flt := rfl
@[simp] theorem State.onPath_par (s : State) (f : Path → Path) : (s.onPath f).par = s.par := rfl
@[simp] theorem State.onPath_mbx (s : State) (f : Path → Path) : (s.onPath f).mbx = s.mbx := rfl
@[simp] theorem State.onPath_mmb (s : State) (f : Path → Path) : (s.onPath f).mmb = s.mmb := rfl
@[simp] theorem State.onPath_wasOpen (s : State) (f : Path → Path) : (s.onPath f).wasOpen = s.wasOpen := rfl
@[simp] theorem State.onPath_lf (s : State) (f : Path → Path) : (s.onPath f).lf = s.lf := rfl
@[simp] theorem State.onPath_zon (s : State) (f : Path → Path) : (s.onPath f).zon = s.zon := rfl
@[simp] theorem State.onPath_paths (s : State) (f : Path → Path) : (s.onPath f).paths = s.paths := rfl
@[simp] theorem State.onPath_path (s : State) (f : Path → Path) : (s.onPath f).path = s.path.map f := rfl
@[simp] theorem State.onPath_lastAuth (s : State) (f : Path → Path) : (s.onPath f).lastAuth = s.lastAuth := rfl
@[simp] theorem State.onPath_raised (s : State) (f : Path → Path) : (s.onPath f).raised = s.raised := rfl
@[simp] theorem State.onPath_awaited (s : State) (f : Path → Path) : (s.onPath f).awaited = s.awaited := rfl
@[simp] theorem State.onPath_uwb (s : State) (f : Path → Path) : (s.onPath f).uwb = s.uwb := rfl
@[simp] theorem State.onPath_rel (s : State) (f : Path → Path) : (s.onPath f).rel = s.rel := rfl
@[simp] theorem State.onPath_rad (s : State) (f : Path → Path) : (s.onPath f).rad = s.rad := rfl
@[simp] theorem State.onPath_sen (s : State) (f : Path → Path) : (s.onPath f).sen = s.sen := rfl
@[simp] theorem State.onPath_sec (s : State) (f : Path → Path) : (s.onPath f).sec = s.sec := rfl
@[simp] theorem State.onPath_rng (s : State) (f : Path → Path) : (s.onPath f).rng = s.rng := rfl
@[simp] theorem State.onPath_store (s : State) (f : Path → Path) : (s.onPath f).store = s.store := rfl
@[simp] theorem State.onPath_timers (s : State) (f : Path → Path) : (s.onPath f).timers = s.timers := rfl
@[simp] theorem State.onPath_cc (s : State) (f : Path → Path) : (s.onPath f).cc = s.cc := rfl
@[simp] theorem State.onPath_xc (s : State) (f : Path → Path) : (s.onPath f).xc = s.xc := rfl
@[simp] theorem State.onPath_ext (s : State) (f : Path → Path) : (s.onPath f).ext = s.ext := rfl
@[simp] theorem State.onPath_pair (s : State) (f : Path → Path) : (s.onPath f).pair = s.pair := rfl
@[simp] theorem State.onPath_bus (s : State) (f : Path → Path) : (s.onPath f).bus = s.bus := rfl
@[simp] theorem State.onPath_ero (s : State) (f : Path → Path) : (s.onPath f).ero = s.ero := rfl
@[simp] theorem State.onPath_eroAt (s : State) (f : Path → Path) : (s.onPath f).eroAt = s.eroAt := rfl
@[simp] theorem State.onPath_soundRun (s : State) (f : Path → Path) : (s.onPath f).soundRun = s.soundRun := rfl
@[simp] theorem State.onPath_free (s : State) (f : Path → Path) : (s.onPath f).free = s.free := rfl

@[simp] theorem State.onBox_box (s : State) (m : Bool) (f : Mbx → Mbx) : (s.onBox m f).box m = f (s.box m) := by cases m <;> rfl
@[simp] theorem State.onBox_pending (s : State) (m : Bool) (f : Mbx → Mbx) : (s.onBox m f).pending = s.pending := by cases m <;> rfl
@[simp] theorem State.onBox_clk (s : State) (m : Bool) (f : Mbx → Mbx) : (s.onBox m f).clk = s.clk := by cases m <;> rfl
@[simp] theorem State.onBox_pwr (s : State) (m : Bool) (f : Mbx → Mbx) : (s.onBox m f).pwr = s.pwr := by cases m <;> rfl
@[simp] theorem State.onBox_evt (s : State) (m : Bool) (f : Mbx → Mbx) : (s.onBox m f).evt = s.evt := by cases m <;> rfl
@[simp] theorem State.onBox_flt (s : State) (m : Bool) (f : Mbx → Mbx) : (s.onBox m f).flt = s.flt := by cases m <;> rfl
@[simp] theorem State.onBox_par (s : State) (m : Bool) (f : Mbx → Mbx) : (s.onBox m f).par = s.par := by cases m <;> rfl
@[simp] theorem State.onBox_wasOpen (s : State) (m : Bool) (f : Mbx → Mbx) : (s.onBox m f).wasOpen = s.wasOpen := by cases m <;> rfl
@[simp] theorem State.onBox_lf (s : State) (m : Bool) (f : Mbx → Mbx) : (s.onBox m f).lf = s.lf := by cases m <;> rfl
@[simp] theorem State.onBox_zon (s : State) (m : Bool) (f : Mbx → Mbx) : (s.onBox m f).zon = s.zon := by cases m <;> rfl
@[simp] theorem State.onBox_paths (s : State) (m : Bool) (f : Mbx → Mbx) : (s.onBox m f).paths = s.paths := by cases m <;> rfl
@[simp] theorem State.onBox_path (s : State) (m : Bool) (f : Mbx → Mbx) : (s.onBox m f).path = s.path := by cases m <;> rfl
@[simp] theorem State.onBox_lastAuth (s : State) (m : Bool) (f : Mbx → Mbx) : (s.onBox m f).lastAuth = s.lastAuth := by cases m <;> rfl
@[simp] theorem State.onBox_raised (s : State) (m : Bool) (f : Mbx → Mbx) : (s.onBox m f).raised = s.raised := by cases m <;> rfl
@[simp] theorem State.onBox_awaited (s : State) (m : Bool) (f : Mbx → Mbx) : (s.onBox m f).awaited = s.awaited := by cases m <;> rfl
@[simp] theorem State.onBox_uwb (s : State) (m : Bool) (f : Mbx → Mbx) : (s.onBox m f).uwb = s.uwb := by cases m <;> rfl
@[simp] theorem State.onBox_rel (s : State) (m : Bool) (f : Mbx → Mbx) : (s.onBox m f).rel = s.rel := by cases m <;> rfl
@[simp] theorem State.onBox_rad (s : State) (m : Bool) (f : Mbx → Mbx) : (s.onBox m f).rad = s.rad := by cases m <;> rfl
@[simp] theorem State.onBox_sen (s : State) (m : Bool) (f : Mbx → Mbx) : (s.onBox m f).sen = s.sen := by cases m <;> rfl
@[simp] theorem State.onBox_sec (s : State) (m : Bool) (f : Mbx → Mbx) : (s.onBox m f).sec = s.sec := by cases m <;> rfl
@[simp] theorem State.onBox_rng (s : State) (m : Bool) (f : Mbx → Mbx) : (s.onBox m f).rng = s.rng := by cases m <;> rfl
@[simp] theorem State.onBox_store (s : State) (m : Bool) (f : Mbx → Mbx) : (s.onBox m f).store = s.store := by cases m <;> rfl
@[simp] theorem State.onBox_timers (s : State) (m : Bool) (f : Mbx → Mbx) : (s.onBox m f).timers = s.timers := by cases m <;> rfl
@[simp] theorem State.onBox_cc (s : State) (m : Bool) (f : Mbx → Mbx) : (s.onBox m f).cc = s.cc := by cases m <;> rfl
@[simp] theorem State.onBox_xc (s : State) (m : Bool) (f : Mbx → Mbx) : (s.onBox m f).xc = s.xc := by cases m <;> rfl
@[simp] theorem State.onBox_ext (s : State) (m : Bool) (f : Mbx → Mbx) : (s.onBox m f).ext = s.ext := by cases m <;> rfl
@[simp] theorem State.onBox_pair (s : State) (m : Bool) (f : Mbx → Mbx) : (s.onBox m f).pair = s.pair := by cases m <;> rfl
@[simp] theorem State.onBox_bus (s : State) (m : Bool) (f : Mbx → Mbx) : (s.onBox m f).bus = s.bus := by cases m <;> rfl
@[simp] theorem State.onBox_ero (s : State) (m : Bool) (f : Mbx → Mbx) : (s.onBox m f).ero = s.ero := by cases m <;> rfl
@[simp] theorem State.onBox_eroAt (s : State) (m : Bool) (f : Mbx → Mbx) : (s.onBox m f).eroAt = s.eroAt := by cases m <;> rfl
@[simp] theorem State.onBox_soundRun (s : State) (m : Bool) (f : Mbx → Mbx) : (s.onBox m f).soundRun = s.soundRun := by cases m <;> rfl
@[simp] theorem State.onBox_free (s : State) (m : Bool) (f : Mbx → Mbx) : (s.onBox m f).free = s.free := by cases m <;> rfl

end Sys2Proof.Machine
end

