-- ==== Sys2Proof/Laws/Fields.lean ====
section
/-! SUPPORT. Each field that an event, the passing of time or an answer leaves alone, read off the frames of Laws/Frames.lean. -/

namespace Sys2Proof.Machine
open Sys2Proof

@[simp] theorem emitX_pending (a b : Nat) (p : Bytes) (o : EvOpt) (s : State) : (emitX a b p o s).pending = s.pending :=
  (congrArg State.pending (evFrame_emitX a b p o s) : (evFrame (emitX a b p o s)).pending = (evFrame s).pending)
@[simp] theorem emitX_clk (a b : Nat) (p : Bytes) (o : EvOpt) (s : State) : (emitX a b p o s).clk = s.clk :=
  (congrArg State.clk (evFrame_emitX a b p o s) : (evFrame (emitX a b p o s)).clk = (evFrame s).clk)
@[simp] theorem emitX_pwr_state (a b : Nat) (p : Bytes) (o : EvOpt) (s : State) : (emitX a b p o s).pwr.state = s.pwr.state :=
  (congrArg (fun x => x.pwr.state) (evFrame_emitX a b p o s) : (evFrame (emitX a b p o s)).pwr.state = (evFrame s).pwr.state)
@[simp] theorem emitX_pwr_phase (a b : Nat) (p : Bytes) (o : EvOpt) (s : State) : (emitX a b p o s).pwr.phase = s.pwr.phase :=
  (congrArg (fun x => x.pwr.phase) (evFrame_emitX a b p o s) : (evFrame (emitX a b p o s)).pwr.phase = (evFrame s).pwr.phase)
@[simp] theorem emitX_pwr_vbat (a b : Nat) (p : Bytes) (o : EvOpt) (s : State) : (emitX a b p o s).pwr.vbat = s.pwr.vbat :=
  (congrArg (fun x => x.pwr.vbat) (evFrame_emitX a b p o s) : (evFrame (emitX a b p o s)).pwr.vbat = (evFrame s).pwr.vbat)
@[simp] theorem emitX_pwr_vddio (a b : Nat) (p : Bytes) (o : EvOpt) (s : State) : (emitX a b p o s).pwr.vddio = s.pwr.vddio :=
  (congrArg (fun x => x.pwr.vddio) (evFrame_emitX a b p o s) : (evFrame (emitX a b p o s)).pwr.vddio = (evFrame s).pwr.vddio)
@[simp] theorem emitX_pwr_vlf (a b : Nat) (p : Bytes) (o : EvOpt) (s : State) : (emitX a b p o s).pwr.vlf = s.pwr.vlf :=
  (congrArg (fun x => x.pwr.vlf) (evFrame_emitX a b p o s) : (evFrame (emitX a b p o s)).pwr.vlf = (evFrame s).pwr.vlf)
@[simp] theorem emitX_pwr_vrel (a b : Nat) (p : Bytes) (o : EvOpt) (s : State) : (emitX a b p o s).pwr.vrel = s.pwr.vrel :=
  (congrArg (fun x => x.pwr.vrel) (evFrame_emitX a b p o s) : (evFrame (emitX a b p o s)).pwr.vrel = (evFrame s).pwr.vrel)
@[simp] theorem emitX_pwr_vhold (a b : Nat) (p : Bytes) (o : EvOpt) (s : State) : (emitX a b p o s).pwr.vhold = s.pwr.vhold :=
  (congrArg (fun x => x.pwr.vhold) (evFrame_emitX a b p o s) : (evFrame (emitX a b p o s)).pwr.vhold = (evFrame s).pwr.vhold)
@[simp] theorem emitX_pwr_vbatValid (a b : Nat) (p : Bytes) (o : EvOpt) (s : State) : (emitX a b p o s).pwr.vbatValid = s.pwr.vbatValid :=
  (congrArg (fun x => x.pwr.vbatValid) (evFrame_emitX a b p o s) : (evFrame (emitX a b p o s)).pwr.vbatValid = (evFrame s).pwr.vbatValid)
@[simp] theorem emitX_pwr_vbatFull (a b : Nat) (p : Bytes) (o : EvOpt) (s : State) : (emitX a b p o s).pwr.vbatFull = s.pwr.vbatFull :=
  (congrArg (fun x => x.pwr.vbatFull) (evFrame_emitX a b p o s) : (evFrame (emitX a b p o s)).pwr.vbatFull = (evFrame s).pwr.vbatFull)
@[simp] theorem emitX_pwr_vbatOv (a b : Nat) (p : Bytes) (o : EvOpt) (s : State) : (emitX a b p o s).pwr.vbatOv = s.pwr.vbatOv :=
  (congrArg (fun x => x.pwr.vbatOv) (evFrame_emitX a b p o s) : (evFrame (emitX a b p o s)).pwr.vbatOv = (evFrame s).pwr.vbatOv)
@[simp] theorem emitX_pwr_vlfValid (a b : Nat) (p : Bytes) (o : EvOpt) (s : State) : (emitX a b p o s).pwr.vlfValid = s.pwr.vlfValid :=
  (congrArg (fun x => x.pwr.vlfValid) (evFrame_emitX a b p o s) : (evFrame (emitX a b p o s)).pwr.vlfValid = (evFrame s).pwr.vlfValid)
@[simp] theorem emitX_pwr_vlfOv (a b : Nat) (p : Bytes) (o : EvOpt) (s : State) : (emitX a b p o s).pwr.vlfOv = s.pwr.vlfOv :=
  (congrArg (fun x => x.pwr.vlfOv) (evFrame_emitX a b p o s) : (evFrame (emitX a b p o s)).pwr.vlfOv = (evFrame s).pwr.vlfOv)
@[simp] theorem emitX_pwr_vrelValid (a b : Nat) (p : Bytes) (o : EvOpt) (s : State) : (emitX a b p o s).pwr.vrelValid = s.pwr.vrelValid :=
  (congrArg (fun x => x.pwr.vrelValid) (evFrame_emitX a b p o s) : (evFrame (emitX a b p o s)).pwr.vrelValid = (evFrame s).pwr.vrelValid)
@[simp] theorem emitX_pwr_vddioValid (a b : Nat) (p : Bytes) (o : EvOpt) (s : State) : (emitX a b p o s).pwr.vddioValid = s.pwr.vddioValid :=
  (congrArg (fun x => x.pwr.vddioValid) (evFrame_emitX a b p o s) : (evFrame (emitX a b p o s)).pwr.vddioValid = (evFrame s).pwr.vddioValid)
@[simp] theorem emitX_pwr_charger (a b : Nat) (p : Bytes) (o : EvOpt) (s : State) : (emitX a b p o s).pwr.charger = s.pwr.charger :=
  (congrArg (fun x => x.pwr.charger) (evFrame_emitX a b p o s) : (evFrame (emitX a b p o s)).pwr.charger = (evFrame s).pwr.charger)
@[simp] theorem emitX_pwr_chargeFrom (a b : Nat) (p : Bytes) (o : EvOpt) (s : State) : (emitX a b p o s).pwr.chargeFrom = s.pwr.chargeFrom :=
  (congrArg (fun x => x.pwr.chargeFrom) (evFrame_emitX a b p o s) : (evFrame (emitX a b p o s)).pwr.chargeFrom = (evFrame s).pwr.chargeFrom)
@[simp] theorem emitX_pwr_holdBusy (a b : Nat) (p : Bytes) (o : EvOpt) (s : State) : (emitX a b p o s).pwr.holdBusy = s.pwr.holdBusy :=
  (congrArg (fun x => x.pwr.holdBusy) (evFrame_emitX a b p o s) : (evFrame (emitX a b p o s)).pwr.holdBusy = (evFrame s).pwr.holdBusy)
@[simp] theorem emitX_pwr_hold (a b : Nat) (p : Bytes) (o : EvOpt) (s : State) : (emitX a b p o s).pwr.hold = s.pwr.hold :=
  (congrArg (fun x => x.pwr.hold) (evFrame_emitX a b p o s) : (evFrame (emitX a b p o s)).pwr.hold = (evFrame s).pwr.hold)
@[simp] theorem emitX_pwr_holdSkip (a b : Nat) (p : Bytes) (o : EvOpt) (s : State) : (emitX a b p o s).pwr.holdSkip = s.pwr.holdSkip :=
  (congrArg (fun x => x.pwr.holdSkip) (evFrame_emitX a b p o s) : (evFrame (emitX a b p o s)).pwr.holdSkip = (evFrame s).pwr.holdSkip)
@[simp] theorem emitX_pwr_ride (a b : Nat) (p : Bytes) (o : EvOpt) (s : State) : (emitX a b p o s).pwr.ride = s.pwr.ride :=
  (congrArg (fun x => x.pwr.ride) (evFrame_emitX a b p o s) : (evFrame (emitX a b p o s)).pwr.ride = (evFrame s).pwr.ride)
@[simp] theorem emitX_pwr_shutdown (a b : Nat) (p : Bytes) (o : EvOpt) (s : State) : (emitX a b p o s).pwr.shutdown = s.pwr.shutdown :=
  (congrArg (fun x => x.pwr.shutdown) (evFrame_emitX a b p o s) : (evFrame (emitX a b p o s)).pwr.shutdown = (evFrame s).pwr.shutdown)
@[simp] theorem emitX_pwr_neapEntry (a b : Nat) (p : Bytes) (o : EvOpt) (s : State) : (emitX a b p o s).pwr.neapEntry = s.pwr.neapEntry :=
  (congrArg (fun x => x.pwr.neapEntry) (evFrame_emitX a b p o s) : (evFrame (emitX a b p o s)).pwr.neapEntry = (evFrame s).pwr.neapEntry)
@[simp] theorem emitX_pwr_neapAfter (a b : Nat) (p : Bytes) (o : EvOpt) (s : State) : (emitX a b p o s).pwr.neapAfter = s.pwr.neapAfter :=
  (congrArg (fun x => x.pwr.neapAfter) (evFrame_emitX a b p o s) : (evFrame (emitX a b p o s)).pwr.neapAfter = (evFrame s).pwr.neapAfter)
@[simp] theorem emitX_pwr_hostRdy (a b : Nat) (p : Bytes) (o : EvOpt) (s : State) : (emitX a b p o s).pwr.hostRdy = s.pwr.hostRdy :=
  (congrArg (fun x => x.pwr.hostRdy) (evFrame_emitX a b p o s) : (evFrame (emitX a b p o s)).pwr.hostRdy = (evFrame s).pwr.hostRdy)
@[simp] theorem emitX_pwr_csLow (a b : Nat) (p : Bytes) (o : EvOpt) (s : State) : (emitX a b p o s).pwr.csLow = s.pwr.csLow :=
  (congrArg (fun x => x.pwr.csLow) (evFrame_emitX a b p o s) : (evFrame (emitX a b p o s)).pwr.csLow = (evFrame s).pwr.csLow)
@[simp] theorem emitX_pwr_csDiscard (a b : Nat) (p : Bytes) (o : EvOpt) (s : State) : (emitX a b p o s).pwr.csDiscard = s.pwr.csDiscard :=
  (congrArg (fun x => x.pwr.csDiscard) (evFrame_emitX a b p o s) : (evFrame (emitX a b p o s)).pwr.csDiscard = (evFrame s).pwr.csDiscard)
@[simp] theorem emitX_pwr_readyAt (a b : Nat) (p : Bytes) (o : EvOpt) (s : State) : (emitX a b p o s).pwr.readyAt = s.pwr.readyAt :=
  (congrArg (fun x => x.pwr.readyAt) (evFrame_emitX a b p o s) : (evFrame (emitX a b p o s)).pwr.readyAt = (evFrame s).pwr.readyAt)
@[simp] theorem emitX_pwr_persistWanted (a b : Nat) (p : Bytes) (o : EvOpt) (s : State) : (emitX a b p o s).pwr.persistWanted = s.pwr.persistWanted :=
  (congrArg (fun x => x.pwr.persistWanted) (evFrame_emitX a b p o s) : (evFrame (emitX a b p o s)).pwr.persistWanted = (evFrame s).pwr.persistWanted)
@[simp] theorem emitX_pwr_strandedBy (a b : Nat) (p : Bytes) (o : EvOpt) (s : State) : (emitX a b p o s).pwr.strandedBy = s.pwr.strandedBy :=
  (congrArg (fun x => x.pwr.strandedBy) (evFrame_emitX a b p o s) : (evFrame (emitX a b p o s)).pwr.strandedBy = (evFrame s).pwr.strandedBy)
@[simp] theorem emitX_pwr_cause (a b : Nat) (p : Bytes) (o : EvOpt) (s : State) : (emitX a b p o s).pwr.cause = s.pwr.cause :=
  (congrArg (fun x => x.pwr.cause) (evFrame_emitX a b p o s) : (evFrame (emitX a b p o s)).pwr.cause = (evFrame s).pwr.cause)
@[simp] theorem emitX_pwr_wdt (a b : Nat) (p : Bytes) (o : EvOpt) (s : State) : (emitX a b p o s).pwr.wdt = s.pwr.wdt :=
  (congrArg (fun x => x.pwr.wdt) (evFrame_emitX a b p o s) : (evFrame (emitX a b p o s)).pwr.wdt = (evFrame s).pwr.wdt)
@[simp] theorem emitX_pwr_resetAfter (a b : Nat) (p : Bytes) (o : EvOpt) (s : State) : (emitX a b p o s).pwr.resetAfter = s.pwr.resetAfter :=
  (congrArg (fun x => x.pwr.resetAfter) (evFrame_emitX a b p o s) : (evFrame (emitX a b p o s)).pwr.resetAfter = (evFrame s).pwr.resetAfter)
@[simp] theorem emitX_pwr_wdtSeen (a b : Nat) (p : Bytes) (o : EvOpt) (s : State) : (emitX a b p o s).pwr.wdtSeen = s.pwr.wdtSeen :=
  (congrArg (fun x => x.pwr.wdtSeen) (evFrame_emitX a b p o s) : (evFrame (emitX a b p o s)).pwr.wdtSeen = (evFrame s).pwr.wdtSeen)
@[simp] theorem emitX_pwr_railBad (a b : Nat) (p : Bytes) (o : EvOpt) (s : State) : (emitX a b p o s).pwr.railBad = s.pwr.railBad :=
  (congrArg (fun x => x.pwr.railBad) (evFrame_emitX a b p o s) : (evFrame (emitX a b p o s)).pwr.railBad = (evFrame s).pwr.railBad)
@[simp] theorem emitX_pwr_latched (a b : Nat) (p : Bytes) (o : EvOpt) (s : State) : (emitX a b p o s).pwr.latched = s.pwr.latched :=
  (congrArg (fun x => x.pwr.latched) (evFrame_emitX a b p o s) : (evFrame (emitX a b p o s)).pwr.latched = (evFrame s).pwr.latched)
@[simp] theorem emitX_pwr_cliffActed (a b : Nat) (p : Bytes) (o : EvOpt) (s : State) : (emitX a b p o s).pwr.cliffActed = s.pwr.cliffActed :=
  (congrArg (fun x => x.pwr.cliffActed) (evFrame_emitX a b p o s) : (evFrame (emitX a b p o s)).pwr.cliffActed = (evFrame s).pwr.cliffActed)
@[simp] theorem emitX_pwr_cwPair (a b : Nat) (p : Bytes) (o : EvOpt) (s : State) : (emitX a b p o s).pwr.cwPair = s.pwr.cwPair :=
  (congrArg (fun x => x.pwr.cwPair) (evFrame_emitX a b p o s) : (evFrame (emitX a b p o s)).pwr.cwPair = (evFrame s).pwr.cwPair)
@[simp] theorem emitX_pwr_cwRole (a b : Nat) (p : Bytes) (o : EvOpt) (s : State) : (emitX a b p o s).pwr.cwRole = s.pwr.cwRole :=
  (congrArg (fun x => x.pwr.cwRole) (evFrame_emitX a b p o s) : (evFrame (emitX a b p o s)).pwr.cwRole = (evFrame s).pwr.cwRole)
@[simp] theorem emitX_pwr_testEn (a b : Nat) (p : Bytes) (o : EvOpt) (s : State) : (emitX a b p o s).pwr.testEn = s.pwr.testEn :=
  (congrArg (fun x => x.pwr.testEn) (evFrame_emitX a b p o s) : (evFrame (emitX a b p o s)).pwr.testEn = (evFrame s).pwr.testEn)
@[simp] theorem emitX_pwr_scanTest (a b : Nat) (p : Bytes) (o : EvOpt) (s : State) : (emitX a b p o s).pwr.scanTest = s.pwr.scanTest :=
  (congrArg (fun x => x.pwr.scanTest) (evFrame_emitX a b p o s) : (evFrame (emitX a b p o s)).pwr.scanTest = (evFrame s).pwr.scanTest)
@[simp] theorem emitX_pwr_tripSeen (a b : Nat) (p : Bytes) (o : EvOpt) (s : State) : (emitX a b p o s).pwr.tripSeen = s.pwr.tripSeen :=
  (congrArg (fun x => x.pwr.tripSeen) (evFrame_emitX a b p o s) : (evFrame (emitX a b p o s)).pwr.tripSeen = (evFrame s).pwr.tripSeen)
@[simp] theorem emitX_pwr_recovery (a b : Nat) (p : Bytes) (o : EvOpt) (s : State) : (emitX a b p o s).pwr.recovery = s.pwr.recovery :=
  (congrArg (fun x => x.pwr.recovery) (evFrame_emitX a b p o s) : (evFrame (emitX a b p o s)).pwr.recovery = (evFrame s).pwr.recovery)
@[simp] theorem emitX_pwr_fwFailed (a b : Nat) (p : Bytes) (o : EvOpt) (s : State) : (emitX a b p o s).pwr.fwFailed = s.pwr.fwFailed :=
  (congrArg (fun x => x.pwr.fwFailed) (evFrame_emitX a b p o s) : (evFrame (emitX a b p o s)).pwr.fwFailed = (evFrame s).pwr.fwFailed)
@[simp] theorem emitX_pwr_lineKinds (a b : Nat) (p : Bytes) (o : EvOpt) (s : State) : (emitX a b p o s).pwr.lineKinds = s.pwr.lineKinds :=
  (congrArg (fun x => x.pwr.lineKinds) (evFrame_emitX a b p o s) : (evFrame (emitX a b p o s)).pwr.lineKinds = (evFrame s).pwr.lineKinds)
@[simp] theorem emitX_par (a b : Nat) (p : Bytes) (o : EvOpt) (s : State) : (emitX a b p o s).par = s.par :=
  (congrArg State.par (evFrame_emitX a b p o s) : (evFrame (emitX a b p o s)).par = (evFrame s).par)
@[simp] theorem emitX_mbx (a b : Nat) (p : Bytes) (o : EvOpt) (s : State) : (emitX a b p o s).mbx = s.mbx :=
  (congrArg State.mbx (evFrame_emitX a b p o s) : (evFrame (emitX a b p o s)).mbx = (evFrame s).mbx)
@[simp] theorem emitX_mmb (a b : Nat) (p : Bytes) (o : EvOpt) (s : State) : (emitX a b p o s).mmb = s.mmb :=
  (congrArg State.mmb (evFrame_emitX a b p o s) : (evFrame (emitX a b p o s)).mmb = (evFrame s).mmb)
@[simp] theorem emitX_wasOpen (a b : Nat) (p : Bytes) (o : EvOpt) (s : State) : (emitX a b p o s).wasOpen = s.wasOpen :=
  (congrArg State.wasOpen (evFrame_emitX a b p o s) : (evFrame (emitX a b p o s)).wasOpen = (evFrame s).wasOpen)
@[simp] theorem emitX_lf (a b : Nat) (p : Bytes) (o : EvOpt) (s : State) : (emitX a b p o s).lf = s.lf :=
  (congrArg State.lf (evFrame_emitX a b p o s) : (evFrame (emitX a b p o s)).lf = (evFrame s).lf)
@[simp] theorem emitX_zon (a b : Nat) (p : Bytes) (o : EvOpt) (s : State) : (emitX a b p o s).zon = s.zon :=
  (congrArg State.zon (evFrame_emitX a b p o s) : (evFrame (emitX a b p o s)).zon = (evFrame s).zon)
@[simp] theorem emitX_paths (a b : Nat) (p : Bytes) (o : EvOpt) (s : State) : (emitX a b p o s).paths = s.paths :=
  (congrArg State.paths (evFrame_emitX a b p o s) : (evFrame (emitX a b p o s)).paths = (evFrame s).paths)
@[simp] theorem emitX_path (a b : Nat) (p : Bytes) (o : EvOpt) (s : State) : (emitX a b p o s).path = s.path :=
  (congrArg State.path (evFrame_emitX a b p o s) : (evFrame (emitX a b p o s)).path = (evFrame s).path)
@[simp] theorem emitX_lastAuth (a b : Nat) (p : Bytes) (o : EvOpt) (s : State) : (emitX a b p o s).lastAuth = s.lastAuth :=
  (congrArg State.lastAuth (evFrame_emitX a b p o s) : (evFrame (emitX a b p o s)).lastAuth = (evFrame s).lastAuth)
@[simp] theorem emitX_raised (a b : Nat) (p : Bytes) (o : EvOpt) (s : State) : (emitX a b p o s).raised = s.raised :=
  (congrArg State.raised (evFrame_emitX a b p o s) : (evFrame (emitX a b p o s)).raised = (evFrame s).raised)
@[simp] theorem emitX_awaited (a b : Nat) (p : Bytes) (o : EvOpt) (s : State) : (emitX a b p o s).awaited = s.awaited :=
  (congrArg State.awaited (evFrame_emitX a b p o s) : (evFrame (emitX a b p o s)).awaited = (evFrame s).awaited)
@[simp] theorem emitX_uwb (a b : Nat) (p : Bytes) (o : EvOpt) (s : State) : (emitX a b p o s).uwb = s.uwb :=
  (congrArg State.uwb (evFrame_emitX a b p o s) : (evFrame (emitX a b p o s)).uwb = (evFrame s).uwb)
@[simp] theorem emitX_rel (a b : Nat) (p : Bytes) (o : EvOpt) (s : State) : (emitX a b p o s).rel = s.rel :=
  (congrArg State.rel (evFrame_emitX a b p o s) : (evFrame (emitX a b p o s)).rel = (evFrame s).rel)
@[simp] theorem emitX_rad (a b : Nat) (p : Bytes) (o : EvOpt) (s : State) : (emitX a b p o s).rad = s.rad :=
  (congrArg State.rad (evFrame_emitX a b p o s) : (evFrame (emitX a b p o s)).rad = (evFrame s).rad)
@[simp] theorem emitX_sen (a b : Nat) (p : Bytes) (o : EvOpt) (s : State) : (emitX a b p o s).sen = s.sen :=
  (congrArg State.sen (evFrame_emitX a b p o s) : (evFrame (emitX a b p o s)).sen = (evFrame s).sen)
@[simp] theorem emitX_sec (a b : Nat) (p : Bytes) (o : EvOpt) (s : State) : (emitX a b p o s).sec = s.sec :=
  (congrArg State.sec (evFrame_emitX a b p o s) : (evFrame (emitX a b p o s)).sec = (evFrame s).sec)
@[simp] theorem emitX_rng (a b : Nat) (p : Bytes) (o : EvOpt) (s : State) : (emitX a b p o s).rng = s.rng :=
  (congrArg State.rng (evFrame_emitX a b p o s) : (evFrame (emitX a b p o s)).rng = (evFrame s).rng)
@[simp] theorem emitX_store (a b : Nat) (p : Bytes) (o : EvOpt) (s : State) : (emitX a b p o s).store = s.store :=
  (congrArg State.store (evFrame_emitX a b p o s) : (evFrame (emitX a b p o s)).store = (evFrame s).store)
@[simp] theorem emitX_timers (a b : Nat) (p : Bytes) (o : EvOpt) (s : State) : (emitX a b p o s).timers = s.timers :=
  (congrArg State.timers (evFrame_emitX a b p o s) : (evFrame (emitX a b p o s)).timers = (evFrame s).timers)
@[simp] theorem emitX_cc (a b : Nat) (p : Bytes) (o : EvOpt) (s : State) : (emitX a b p o s).cc = s.cc :=
  (congrArg State.cc (evFrame_emitX a b p o s) : (evFrame (emitX a b p o s)).cc = (evFrame s).cc)
@[simp] theorem emitX_xc (a b : Nat) (p : Bytes) (o : EvOpt) (s : State) : (emitX a b p o s).xc = s.xc :=
  (congrArg State.xc (evFrame_emitX a b p o s) : (evFrame (emitX a b p o s)).xc = (evFrame s).xc)
@[simp] theorem emitX_ext (a b : Nat) (p : Bytes) (o : EvOpt) (s : State) : (emitX a b p o s).ext = s.ext :=
  (congrArg State.ext (evFrame_emitX a b p o s) : (evFrame (emitX a b p o s)).ext = (evFrame s).ext)
@[simp] theorem emitX_pair (a b : Nat) (p : Bytes) (o : EvOpt) (s : State) : (emitX a b p o s).pair = s.pair :=
  (congrArg State.pair (evFrame_emitX a b p o s) : (evFrame (emitX a b p o s)).pair = (evFrame s).pair)
@[simp] theorem emitX_bus (a b : Nat) (p : Bytes) (o : EvOpt) (s : State) : (emitX a b p o s).bus = s.bus :=
  (congrArg State.bus (evFrame_emitX a b p o s) : (evFrame (emitX a b p o s)).bus = (evFrame s).bus)
@[simp] theorem emitX_ero (a b : Nat) (p : Bytes) (o : EvOpt) (s : State) : (emitX a b p o s).ero = s.ero :=
  (congrArg State.ero (evFrame_emitX a b p o s) : (evFrame (emitX a b p o s)).ero = (evFrame s).ero)
@[simp] theorem emitX_eroAt (a b : Nat) (p : Bytes) (o : EvOpt) (s : State) : (emitX a b p o s).eroAt = s.eroAt :=
  (congrArg State.eroAt (evFrame_emitX a b p o s) : (evFrame (emitX a b p o s)).eroAt = (evFrame s).eroAt)
@[simp] theorem emitX_soundRun (a b : Nat) (p : Bytes) (o : EvOpt) (s : State) : (emitX a b p o s).soundRun = s.soundRun :=
  (congrArg State.soundRun (evFrame_emitX a b p o s) : (evFrame (emitX a b p o s)).soundRun = (evFrame s).soundRun)
@[simp] theorem emitX_free (a b : Nat) (p : Bytes) (o : EvOpt) (s : State) : (emitX a b p o s).free = s.free :=
  (congrArg State.free (evFrame_emitX a b p o s) : (evFrame (emitX a b p o s)).free = (evFrame s).free)

@[simp] theorem advanceTo_pending (n : Nat) (s : State) : (advanceTo n s).pending = s.pending :=
  (congrArg State.pending (timeFrame_advanceTo n s) : (timeFrame (advanceTo n s)).pending = (timeFrame s).pending)
@[simp] theorem advanceTo_pwr_state (n : Nat) (s : State) : (advanceTo n s).pwr.state = s.pwr.state :=
  (congrArg (fun x => x.pwr.state) (timeFrame_advanceTo n s) : (timeFrame (advanceTo n s)).pwr.state = (timeFrame s).pwr.state)
@[simp] theorem advanceTo_pwr_phase (n : Nat) (s : State) : (advanceTo n s).pwr.phase = s.pwr.phase :=
  (congrArg (fun x => x.pwr.phase) (timeFrame_advanceTo n s) : (timeFrame (advanceTo n s)).pwr.phase = (timeFrame s).pwr.phase)
@[simp] theorem advanceTo_pwr_vbat (n : Nat) (s : State) : (advanceTo n s).pwr.vbat = s.pwr.vbat :=
  (congrArg (fun x => x.pwr.vbat) (timeFrame_advanceTo n s) : (timeFrame (advanceTo n s)).pwr.vbat = (timeFrame s).pwr.vbat)
@[simp] theorem advanceTo_pwr_vddio (n : Nat) (s : State) : (advanceTo n s).pwr.vddio = s.pwr.vddio :=
  (congrArg (fun x => x.pwr.vddio) (timeFrame_advanceTo n s) : (timeFrame (advanceTo n s)).pwr.vddio = (timeFrame s).pwr.vddio)
@[simp] theorem advanceTo_pwr_vlf (n : Nat) (s : State) : (advanceTo n s).pwr.vlf = s.pwr.vlf :=
  (congrArg (fun x => x.pwr.vlf) (timeFrame_advanceTo n s) : (timeFrame (advanceTo n s)).pwr.vlf = (timeFrame s).pwr.vlf)
@[simp] theorem advanceTo_pwr_vrel (n : Nat) (s : State) : (advanceTo n s).pwr.vrel = s.pwr.vrel :=
  (congrArg (fun x => x.pwr.vrel) (timeFrame_advanceTo n s) : (timeFrame (advanceTo n s)).pwr.vrel = (timeFrame s).pwr.vrel)
@[simp] theorem advanceTo_pwr_vhold (n : Nat) (s : State) : (advanceTo n s).pwr.vhold = s.pwr.vhold :=
  (congrArg (fun x => x.pwr.vhold) (timeFrame_advanceTo n s) : (timeFrame (advanceTo n s)).pwr.vhold = (timeFrame s).pwr.vhold)
@[simp] theorem advanceTo_pwr_vbatValid (n : Nat) (s : State) : (advanceTo n s).pwr.vbatValid = s.pwr.vbatValid :=
  (congrArg (fun x => x.pwr.vbatValid) (timeFrame_advanceTo n s) : (timeFrame (advanceTo n s)).pwr.vbatValid = (timeFrame s).pwr.vbatValid)
@[simp] theorem advanceTo_pwr_vbatFull (n : Nat) (s : State) : (advanceTo n s).pwr.vbatFull = s.pwr.vbatFull :=
  (congrArg (fun x => x.pwr.vbatFull) (timeFrame_advanceTo n s) : (timeFrame (advanceTo n s)).pwr.vbatFull = (timeFrame s).pwr.vbatFull)
@[simp] theorem advanceTo_pwr_vbatOv (n : Nat) (s : State) : (advanceTo n s).pwr.vbatOv = s.pwr.vbatOv :=
  (congrArg (fun x => x.pwr.vbatOv) (timeFrame_advanceTo n s) : (timeFrame (advanceTo n s)).pwr.vbatOv = (timeFrame s).pwr.vbatOv)
@[simp] theorem advanceTo_pwr_vlfValid (n : Nat) (s : State) : (advanceTo n s).pwr.vlfValid = s.pwr.vlfValid :=
  (congrArg (fun x => x.pwr.vlfValid) (timeFrame_advanceTo n s) : (timeFrame (advanceTo n s)).pwr.vlfValid = (timeFrame s).pwr.vlfValid)
@[simp] theorem advanceTo_pwr_vlfOv (n : Nat) (s : State) : (advanceTo n s).pwr.vlfOv = s.pwr.vlfOv :=
  (congrArg (fun x => x.pwr.vlfOv) (timeFrame_advanceTo n s) : (timeFrame (advanceTo n s)).pwr.vlfOv = (timeFrame s).pwr.vlfOv)
@[simp] theorem advanceTo_pwr_vrelValid (n : Nat) (s : State) : (advanceTo n s).pwr.vrelValid = s.pwr.vrelValid :=
  (congrArg (fun x => x.pwr.vrelValid) (timeFrame_advanceTo n s) : (timeFrame (advanceTo n s)).pwr.vrelValid = (timeFrame s).pwr.vrelValid)
@[simp] theorem advanceTo_pwr_vddioValid (n : Nat) (s : State) : (advanceTo n s).pwr.vddioValid = s.pwr.vddioValid :=
  (congrArg (fun x => x.pwr.vddioValid) (timeFrame_advanceTo n s) : (timeFrame (advanceTo n s)).pwr.vddioValid = (timeFrame s).pwr.vddioValid)
@[simp] theorem advanceTo_pwr_charger (n : Nat) (s : State) : (advanceTo n s).pwr.charger = s.pwr.charger :=
  (congrArg (fun x => x.pwr.charger) (timeFrame_advanceTo n s) : (timeFrame (advanceTo n s)).pwr.charger = (timeFrame s).pwr.charger)
@[simp] theorem advanceTo_pwr_chargeFrom (n : Nat) (s : State) : (advanceTo n s).pwr.chargeFrom = s.pwr.chargeFrom :=
  (congrArg (fun x => x.pwr.chargeFrom) (timeFrame_advanceTo n s) : (timeFrame (advanceTo n s)).pwr.chargeFrom = (timeFrame s).pwr.chargeFrom)
@[simp] theorem advanceTo_pwr_holdBusy (n : Nat) (s : State) : (advanceTo n s).pwr.holdBusy = s.pwr.holdBusy :=
  (congrArg (fun x => x.pwr.holdBusy) (timeFrame_advanceTo n s) : (timeFrame (advanceTo n s)).pwr.holdBusy = (timeFrame s).pwr.holdBusy)
@[simp] theorem advanceTo_pwr_hold (n : Nat) (s : State) : (advanceTo n s).pwr.hold = s.pwr.hold :=
  (congrArg (fun x => x.pwr.hold) (timeFrame_advanceTo n s) : (timeFrame (advanceTo n s)).pwr.hold = (timeFrame s).pwr.hold)
@[simp] theorem advanceTo_pwr_holdSkip (n : Nat) (s : State) : (advanceTo n s).pwr.holdSkip = s.pwr.holdSkip :=
  (congrArg (fun x => x.pwr.holdSkip) (timeFrame_advanceTo n s) : (timeFrame (advanceTo n s)).pwr.holdSkip = (timeFrame s).pwr.holdSkip)
@[simp] theorem advanceTo_pwr_ride (n : Nat) (s : State) : (advanceTo n s).pwr.ride = s.pwr.ride :=
  (congrArg (fun x => x.pwr.ride) (timeFrame_advanceTo n s) : (timeFrame (advanceTo n s)).pwr.ride = (timeFrame s).pwr.ride)
@[simp] theorem advanceTo_pwr_shutdown (n : Nat) (s : State) : (advanceTo n s).pwr.shutdown = s.pwr.shutdown :=
  (congrArg (fun x => x.pwr.shutdown) (timeFrame_advanceTo n s) : (timeFrame (advanceTo n s)).pwr.shutdown = (timeFrame s).pwr.shutdown)
@[simp] theorem advanceTo_pwr_neapEntry (n : Nat) (s : State) : (advanceTo n s).pwr.neapEntry = s.pwr.neapEntry :=
  (congrArg (fun x => x.pwr.neapEntry) (timeFrame_advanceTo n s) : (timeFrame (advanceTo n s)).pwr.neapEntry = (timeFrame s).pwr.neapEntry)
@[simp] theorem advanceTo_pwr_neapAfter (n : Nat) (s : State) : (advanceTo n s).pwr.neapAfter = s.pwr.neapAfter :=
  (congrArg (fun x => x.pwr.neapAfter) (timeFrame_advanceTo n s) : (timeFrame (advanceTo n s)).pwr.neapAfter = (timeFrame s).pwr.neapAfter)
@[simp] theorem advanceTo_pwr_hostRdy (n : Nat) (s : State) : (advanceTo n s).pwr.hostRdy = s.pwr.hostRdy :=
  (congrArg (fun x => x.pwr.hostRdy) (timeFrame_advanceTo n s) : (timeFrame (advanceTo n s)).pwr.hostRdy = (timeFrame s).pwr.hostRdy)
@[simp] theorem advanceTo_pwr_csLow (n : Nat) (s : State) : (advanceTo n s).pwr.csLow = s.pwr.csLow :=
  (congrArg (fun x => x.pwr.csLow) (timeFrame_advanceTo n s) : (timeFrame (advanceTo n s)).pwr.csLow = (timeFrame s).pwr.csLow)
@[simp] theorem advanceTo_pwr_csDiscard (n : Nat) (s : State) : (advanceTo n s).pwr.csDiscard = s.pwr.csDiscard :=
  (congrArg (fun x => x.pwr.csDiscard) (timeFrame_advanceTo n s) : (timeFrame (advanceTo n s)).pwr.csDiscard = (timeFrame s).pwr.csDiscard)
@[simp] theorem advanceTo_pwr_readyAt (n : Nat) (s : State) : (advanceTo n s).pwr.readyAt = s.pwr.readyAt :=
  (congrArg (fun x => x.pwr.readyAt) (timeFrame_advanceTo n s) : (timeFrame (advanceTo n s)).pwr.readyAt = (timeFrame s).pwr.readyAt)
@[simp] theorem advanceTo_pwr_persistWanted (n : Nat) (s : State) : (advanceTo n s).pwr.persistWanted = s.pwr.persistWanted :=
  (congrArg (fun x => x.pwr.persistWanted) (timeFrame_advanceTo n s) : (timeFrame (advanceTo n s)).pwr.persistWanted = (timeFrame s).pwr.persistWanted)
@[simp] theorem advanceTo_pwr_strandedBy (n : Nat) (s : State) : (advanceTo n s).pwr.strandedBy = s.pwr.strandedBy :=
  (congrArg (fun x => x.pwr.strandedBy) (timeFrame_advanceTo n s) : (timeFrame (advanceTo n s)).pwr.strandedBy = (timeFrame s).pwr.strandedBy)
@[simp] theorem advanceTo_pwr_cause (n : Nat) (s : State) : (advanceTo n s).pwr.cause = s.pwr.cause :=
  (congrArg (fun x => x.pwr.cause) (timeFrame_advanceTo n s) : (timeFrame (advanceTo n s)).pwr.cause = (timeFrame s).pwr.cause)
@[simp] theorem advanceTo_pwr_wdt (n : Nat) (s : State) : (advanceTo n s).pwr.wdt = s.pwr.wdt :=
  (congrArg (fun x => x.pwr.wdt) (timeFrame_advanceTo n s) : (timeFrame (advanceTo n s)).pwr.wdt = (timeFrame s).pwr.wdt)
@[simp] theorem advanceTo_pwr_resetAfter (n : Nat) (s : State) : (advanceTo n s).pwr.resetAfter = s.pwr.resetAfter :=
  (congrArg (fun x => x.pwr.resetAfter) (timeFrame_advanceTo n s) : (timeFrame (advanceTo n s)).pwr.resetAfter = (timeFrame s).pwr.resetAfter)
@[simp] theorem advanceTo_pwr_wdtSeen (n : Nat) (s : State) : (advanceTo n s).pwr.wdtSeen = s.pwr.wdtSeen :=
  (congrArg (fun x => x.pwr.wdtSeen) (timeFrame_advanceTo n s) : (timeFrame (advanceTo n s)).pwr.wdtSeen = (timeFrame s).pwr.wdtSeen)
@[simp] theorem advanceTo_pwr_railBad (n : Nat) (s : State) : (advanceTo n s).pwr.railBad = s.pwr.railBad :=
  (congrArg (fun x => x.pwr.railBad) (timeFrame_advanceTo n s) : (timeFrame (advanceTo n s)).pwr.railBad = (timeFrame s).pwr.railBad)
@[simp] theorem advanceTo_pwr_latched (n : Nat) (s : State) : (advanceTo n s).pwr.latched = s.pwr.latched :=
  (congrArg (fun x => x.pwr.latched) (timeFrame_advanceTo n s) : (timeFrame (advanceTo n s)).pwr.latched = (timeFrame s).pwr.latched)
@[simp] theorem advanceTo_pwr_cliffActed (n : Nat) (s : State) : (advanceTo n s).pwr.cliffActed = s.pwr.cliffActed :=
  (congrArg (fun x => x.pwr.cliffActed) (timeFrame_advanceTo n s) : (timeFrame (advanceTo n s)).pwr.cliffActed = (timeFrame s).pwr.cliffActed)
@[simp] theorem advanceTo_pwr_cwPair (n : Nat) (s : State) : (advanceTo n s).pwr.cwPair = s.pwr.cwPair :=
  (congrArg (fun x => x.pwr.cwPair) (timeFrame_advanceTo n s) : (timeFrame (advanceTo n s)).pwr.cwPair = (timeFrame s).pwr.cwPair)
@[simp] theorem advanceTo_pwr_cwRole (n : Nat) (s : State) : (advanceTo n s).pwr.cwRole = s.pwr.cwRole :=
  (congrArg (fun x => x.pwr.cwRole) (timeFrame_advanceTo n s) : (timeFrame (advanceTo n s)).pwr.cwRole = (timeFrame s).pwr.cwRole)
@[simp] theorem advanceTo_pwr_testEn (n : Nat) (s : State) : (advanceTo n s).pwr.testEn = s.pwr.testEn :=
  (congrArg (fun x => x.pwr.testEn) (timeFrame_advanceTo n s) : (timeFrame (advanceTo n s)).pwr.testEn = (timeFrame s).pwr.testEn)
@[simp] theorem advanceTo_pwr_scanTest (n : Nat) (s : State) : (advanceTo n s).pwr.scanTest = s.pwr.scanTest :=
  (congrArg (fun x => x.pwr.scanTest) (timeFrame_advanceTo n s) : (timeFrame (advanceTo n s)).pwr.scanTest = (timeFrame s).pwr.scanTest)
@[simp] theorem advanceTo_pwr_tripSeen (n : Nat) (s : State) : (advanceTo n s).pwr.tripSeen = s.pwr.tripSeen :=
  (congrArg (fun x => x.pwr.tripSeen) (timeFrame_advanceTo n s) : (timeFrame (advanceTo n s)).pwr.tripSeen = (timeFrame s).pwr.tripSeen)
@[simp] theorem advanceTo_pwr_recovery (n : Nat) (s : State) : (advanceTo n s).pwr.recovery = s.pwr.recovery :=
  (congrArg (fun x => x.pwr.recovery) (timeFrame_advanceTo n s) : (timeFrame (advanceTo n s)).pwr.recovery = (timeFrame s).pwr.recovery)
@[simp] theorem advanceTo_pwr_fwFailed (n : Nat) (s : State) : (advanceTo n s).pwr.fwFailed = s.pwr.fwFailed :=
  (congrArg (fun x => x.pwr.fwFailed) (timeFrame_advanceTo n s) : (timeFrame (advanceTo n s)).pwr.fwFailed = (timeFrame s).pwr.fwFailed)
@[simp] theorem advanceTo_pwr_lineKinds (n : Nat) (s : State) : (advanceTo n s).pwr.lineKinds = s.pwr.lineKinds :=
  (congrArg (fun x => x.pwr.lineKinds) (timeFrame_advanceTo n s) : (timeFrame (advanceTo n s)).pwr.lineKinds = (timeFrame s).pwr.lineKinds)
@[simp] theorem advanceTo_par (n : Nat) (s : State) : (advanceTo n s).par = s.par :=
  (congrArg State.par (timeFrame_advanceTo n s) : (timeFrame (advanceTo n s)).par = (timeFrame s).par)
@[simp] theorem advanceTo_mbx (n : Nat) (s : State) : (advanceTo n s).mbx = s.mbx :=
  (congrArg State.mbx (timeFrame_advanceTo n s) : (timeFrame (advanceTo n s)).mbx = (timeFrame s).mbx)
@[simp] theorem advanceTo_mmb (n : Nat) (s : State) : (advanceTo n s).mmb = s.mmb :=
  (congrArg State.mmb (timeFrame_advanceTo n s) : (timeFrame (advanceTo n s)).mmb = (timeFrame s).mmb)
@[simp] theorem advanceTo_wasOpen (n : Nat) (s : State) : (advanceTo n s).wasOpen = s.wasOpen :=
  (congrArg State.wasOpen (timeFrame_advanceTo n s) : (timeFrame (advanceTo n s)).wasOpen = (timeFrame s).wasOpen)
@[simp] theorem advanceTo_lf (n : Nat) (s : State) : (advanceTo n s).lf = s.lf :=
  (congrArg State.lf (timeFrame_advanceTo n s) : (timeFrame (advanceTo n s)).lf = (timeFrame s).lf)
@[simp] theorem advanceTo_zon (n : Nat) (s : State) : (advanceTo n s).zon = s.zon :=
  (congrArg State.zon (timeFrame_advanceTo n s) : (timeFrame (advanceTo n s)).zon = (timeFrame s).zon)
@[simp] theorem advanceTo_paths (n : Nat) (s : State) : (advanceTo n s).paths = s.paths :=
  (congrArg State.paths (timeFrame_advanceTo n s) : (timeFrame (advanceTo n s)).paths = (timeFrame s).paths)
@[simp] theorem advanceTo_path (n : Nat) (s : State) : (advanceTo n s).path = s.path :=
  (congrArg State.path (timeFrame_advanceTo n s) : (timeFrame (advanceTo n s)).path = (timeFrame s).path)
@[simp] theorem advanceTo_lastAuth (n : Nat) (s : State) : (advanceTo n s).lastAuth = s.lastAuth :=
  (congrArg State.lastAuth (timeFrame_advanceTo n s) : (timeFrame (advanceTo n s)).lastAuth = (timeFrame s).lastAuth)
@[simp] theorem advanceTo_raised (n : Nat) (s : State) : (advanceTo n s).raised = s.raised :=
  (congrArg State.raised (timeFrame_advanceTo n s) : (timeFrame (advanceTo n s)).raised = (timeFrame s).raised)
@[simp] theorem advanceTo_awaited (n : Nat) (s : State) : (advanceTo n s).awaited = s.awaited :=
  (congrArg State.awaited (timeFrame_advanceTo n s) : (timeFrame (advanceTo n s)).awaited = (timeFrame s).awaited)
@[simp] theorem advanceTo_uwb (n : Nat) (s : State) : (advanceTo n s).uwb = s.uwb :=
  (congrArg State.uwb (timeFrame_advanceTo n s) : (timeFrame (advanceTo n s)).uwb = (timeFrame s).uwb)
@[simp] theorem advanceTo_rel_access (n : Nat) (s : State) : (advanceTo n s).rel.access = s.rel.access :=
  (congrArg (fun x => x.rel.access) (timeFrame_advanceTo n s) : (timeFrame (advanceTo n s)).rel.access = (timeFrame s).rel.access)
@[simp] theorem advanceTo_rel_start (n : Nat) (s : State) : (advanceTo n s).rel.start = s.rel.start :=
  (congrArg (fun x => x.rel.start) (timeFrame_advanceTo n s) : (timeFrame (advanceTo n s)).rel.start = (timeFrame s).rel.start)
@[simp] theorem advanceTo_rel_nextId (n : Nat) (s : State) : (advanceTo n s).rel.nextId = s.rel.nextId :=
  (congrArg (fun x => x.rel.nextId) (timeFrame_advanceTo n s) : (timeFrame (advanceTo n s)).rel.nextId = (timeFrame s).rel.nextId)
@[simp] theorem advanceTo_rel_startA (n : Nat) (s : State) : (advanceTo n s).rel.startA = s.rel.startA :=
  (congrArg (fun x => x.rel.startA) (timeFrame_advanceTo n s) : (timeFrame (advanceTo n s)).rel.startA = (timeFrame s).rel.startA)
@[simp] theorem advanceTo_rel_startB (n : Nat) (s : State) : (advanceTo n s).rel.startB = s.rel.startB :=
  (congrArg (fun x => x.rel.startB) (timeFrame_advanceTo n s) : (timeFrame (advanceTo n s)).rel.startB = (timeFrame s).rel.startB)
@[simp] theorem advanceTo_rel_diagA (n : Nat) (s : State) : (advanceTo n s).rel.diagA = s.rel.diagA :=
  (congrArg (fun x => x.rel.diagA) (timeFrame_advanceTo n s) : (timeFrame (advanceTo n s)).rel.diagA = (timeFrame s).rel.diagA)
@[simp] theorem advanceTo_rel_diagB (n : Nat) (s : State) : (advanceTo n s).rel.diagB = s.rel.diagB :=
  (congrArg (fun x => x.rel.diagB) (timeFrame_advanceTo n s) : (timeFrame (advanceTo n s)).rel.diagB = (timeFrame s).rel.diagB)
@[simp] theorem advanceTo_rel_clean (n : Nat) (s : State) : (advanceTo n s).rel.clean = s.rel.clean :=
  (congrArg (fun x => x.rel.clean) (timeFrame_advanceTo n s) : (timeFrame (advanceTo n s)).rel.clean = (timeFrame s).rel.clean)
@[simp] theorem advanceTo_rel_fresh (n : Nat) (s : State) : (advanceTo n s).rel.fresh = s.rel.fresh :=
  (congrArg (fun x => x.rel.fresh) (timeFrame_advanceTo n s) : (timeFrame (advanceTo n s)).rel.fresh = (timeFrame s).rel.fresh)
@[simp] theorem advanceTo_rel_block (n : Nat) (s : State) : (advanceTo n s).rel.block = s.rel.block :=
  (congrArg (fun x => x.rel.block) (timeFrame_advanceTo n s) : (timeFrame (advanceTo n s)).rel.block = (timeFrame s).rel.block)
@[simp] theorem advanceTo_rel_blockWait (n : Nat) (s : State) : (advanceTo n s).rel.blockWait = s.rel.blockWait :=
  (congrArg (fun x => x.rel.blockWait) (timeFrame_advanceTo n s) : (timeFrame (advanceTo n s)).rel.blockWait = (timeFrame s).rel.blockWait)
@[simp] theorem advanceTo_rel_engVer (n : Nat) (s : State) : (advanceTo n s).rel.engVer = s.rel.engVer :=
  (congrArg (fun x => x.rel.engVer) (timeFrame_advanceTo n s) : (timeFrame (advanceTo n s)).rel.engVer = (timeFrame s).rel.engVer)
@[simp] theorem advanceTo_rel_engine (n : Nat) (s : State) : (advanceTo n s).rel.engine = s.rel.engine :=
  (congrArg (fun x => x.rel.engine) (timeFrame_advanceTo n s) : (timeFrame (advanceTo n s)).rel.engine = (timeFrame s).rel.engine)
@[simp] theorem advanceTo_rel_masks (n : Nat) (s : State) : (advanceTo n s).rel.masks = s.rel.masks :=
  (congrArg (fun x => x.rel.masks) (timeFrame_advanceTo n s) : (timeFrame (advanceTo n s)).rel.masks = (timeFrame s).rel.masks)
@[simp] theorem advanceTo_rel_pulses (n : Nat) (s : State) : (advanceTo n s).rel.pulses = s.rel.pulses :=
  (congrArg (fun x => x.rel.pulses) (timeFrame_advanceTo n s) : (timeFrame (advanceTo n s)).rel.pulses = (timeFrame s).rel.pulses)
@[simp] theorem advanceTo_rel_checkAt (n : Nat) (s : State) : (advanceTo n s).rel.checkAt = s.rel.checkAt :=
  (congrArg (fun x => x.rel.checkAt) (timeFrame_advanceTo n s) : (timeFrame (advanceTo n s)).rel.checkAt = (timeFrame s).rel.checkAt)
@[simp] theorem advanceTo_rel_tpDiag (n : Nat) (s : State) : (advanceTo n s).rel.tpDiag = s.rel.tpDiag :=
  (congrArg (fun x => x.rel.tpDiag) (timeFrame_advanceTo n s) : (timeFrame (advanceTo n s)).rel.tpDiag = (timeFrame s).rel.tpDiag)
@[simp] theorem advanceTo_rel_doorKey (n : Nat) (s : State) : (advanceTo n s).rel.doorKey = s.rel.doorKey :=
  (congrArg (fun x => x.rel.doorKey) (timeFrame_advanceTo n s) : (timeFrame (advanceTo n s)).rel.doorKey = (timeFrame s).rel.doorKey)
@[simp] theorem advanceTo_rel_pathKeys (n : Nat) (s : State) : (advanceTo n s).rel.pathKeys = s.rel.pathKeys :=
  (congrArg (fun x => x.rel.pathKeys) (timeFrame_advanceTo n s) : (timeFrame (advanceTo n s)).rel.pathKeys = (timeFrame s).rel.pathKeys)
@[simp] theorem advanceTo_rel_doorFmt (n : Nat) (s : State) : (advanceTo n s).rel.doorFmt = s.rel.doorFmt :=
  (congrArg (fun x => x.rel.doorFmt) (timeFrame_advanceTo n s) : (timeFrame (advanceTo n s)).rel.doorFmt = (timeFrame s).rel.doorFmt)
@[simp] theorem advanceTo_rad (n : Nat) (s : State) : (advanceTo n s).rad = s.rad :=
  (congrArg State.rad (timeFrame_advanceTo n s) : (timeFrame (advanceTo n s)).rad = (timeFrame s).rad)
@[simp] theorem advanceTo_sen (n : Nat) (s : State) : (advanceTo n s).sen = s.sen :=
  (congrArg State.sen (timeFrame_advanceTo n s) : (timeFrame (advanceTo n s)).sen = (timeFrame s).sen)
@[simp] theorem advanceTo_sec (n : Nat) (s : State) : (advanceTo n s).sec = s.sec :=
  (congrArg State.sec (timeFrame_advanceTo n s) : (timeFrame (advanceTo n s)).sec = (timeFrame s).sec)
@[simp] theorem advanceTo_rng (n : Nat) (s : State) : (advanceTo n s).rng = s.rng :=
  (congrArg State.rng (timeFrame_advanceTo n s) : (timeFrame (advanceTo n s)).rng = (timeFrame s).rng)
@[simp] theorem advanceTo_store (n : Nat) (s : State) : (advanceTo n s).store = s.store :=
  (congrArg State.store (timeFrame_advanceTo n s) : (timeFrame (advanceTo n s)).store = (timeFrame s).store)
@[simp] theorem advanceTo_pair (n : Nat) (s : State) : (advanceTo n s).pair = s.pair :=
  (congrArg State.pair (timeFrame_advanceTo n s) : (timeFrame (advanceTo n s)).pair = (timeFrame s).pair)
@[simp] theorem advanceTo_bus_doorBits (n : Nat) (s : State) : (advanceTo n s).bus.doorBits = s.bus.doorBits :=
  (congrArg (fun x => x.bus.doorBits) (timeFrame_advanceTo n s) : (timeFrame (advanceTo n s)).bus.doorBits = (timeFrame s).bus.doorBits)
@[simp] theorem advanceTo_bus_doorAt (n : Nat) (s : State) : (advanceTo n s).bus.doorAt = s.bus.doorAt :=
  (congrArg (fun x => x.bus.doorAt) (timeFrame_advanceTo n s) : (timeFrame (advanceTo n s)).bus.doorAt = (timeFrame s).bus.doorAt)
@[simp] theorem advanceTo_bus_doorSeen (n : Nat) (s : State) : (advanceTo n s).bus.doorSeen = s.bus.doorSeen :=
  (congrArg (fun x => x.bus.doorSeen) (timeFrame_advanceTo n s) : (timeFrame (advanceTo n s)).bus.doorSeen = (timeFrame s).bus.doorSeen)
@[simp] theorem advanceTo_bus_nodes (n : Nat) (s : State) : (advanceTo n s).bus.nodes = s.bus.nodes :=
  (congrArg (fun x => x.bus.nodes) (timeFrame_advanceTo n s) : (timeFrame (advanceTo n s)).bus.nodes = (timeFrame s).bus.nodes)
@[simp] theorem advanceTo_bus_pins (n : Nat) (s : State) : (advanceTo n s).bus.pins = s.bus.pins :=
  (congrArg (fun x => x.bus.pins) (timeFrame_advanceTo n s) : (timeFrame (advanceTo n s)).bus.pins = (timeFrame s).bus.pins)
@[simp] theorem advanceTo_bus_linTx (n : Nat) (s : State) : (advanceTo n s).bus.linTx = s.bus.linTx :=
  (congrArg (fun x => x.bus.linTx) (timeFrame_advanceTo n s) : (timeFrame (advanceTo n s)).bus.linTx = (timeFrame s).bus.linTx)
@[simp] theorem advanceTo_bus_pollEnd (n : Nat) (s : State) : (advanceTo n s).bus.pollEnd = s.bus.pollEnd :=
  (congrArg (fun x => x.bus.pollEnd) (timeFrame_advanceTo n s) : (timeFrame (advanceTo n s)).bus.pollEnd = (timeFrame s).bus.pollEnd)
@[simp] theorem advanceTo_bus_rejected (n : Nat) (s : State) : (advanceTo n s).bus.rejected = s.bus.rejected :=
  (congrArg (fun x => x.bus.rejected) (timeFrame_advanceTo n s) : (timeFrame (advanceTo n s)).bus.rejected = (timeFrame s).bus.rejected)
@[simp] theorem advanceTo_ero (n : Nat) (s : State) : (advanceTo n s).ero = s.ero :=
  (congrArg State.ero (timeFrame_advanceTo n s) : (timeFrame (advanceTo n s)).ero = (timeFrame s).ero)
@[simp] theorem advanceTo_eroAt (n : Nat) (s : State) : (advanceTo n s).eroAt = s.eroAt :=
  (congrArg State.eroAt (timeFrame_advanceTo n s) : (timeFrame (advanceTo n s)).eroAt = (timeFrame s).eroAt)
@[simp] theorem advanceTo_soundRun (n : Nat) (s : State) : (advanceTo n s).soundRun = s.soundRun :=
  (congrArg State.soundRun (timeFrame_advanceTo n s) : (timeFrame (advanceTo n s)).soundRun = (timeFrame s).soundRun)
@[simp] theorem advanceTo_free (n : Nat) (s : State) : (advanceTo n s).free = s.free :=
  (congrArg State.free (timeFrame_advanceTo n s) : (timeFrame (advanceTo n s)).free = (timeFrame s).free)

@[simp] theorem passUs_pending (n : Nat) (s : State) : (passUs n s).pending = s.pending :=
  (congrArg State.pending (timeFrame_passUs n s) : (timeFrame (passUs n s)).pending = (timeFrame s).pending)
@[simp] theorem passUs_pwr_state (n : Nat) (s : State) : (passUs n s).pwr.state = s.pwr.state :=
  (congrArg (fun x => x.pwr.state) (timeFrame_passUs n s) : (timeFrame (passUs n s)).pwr.state = (timeFrame s).pwr.state)
@[simp] theorem passUs_pwr_phase (n : Nat) (s : State) : (passUs n s).pwr.phase = s.pwr.phase :=
  (congrArg (fun x => x.pwr.phase) (timeFrame_passUs n s) : (timeFrame (passUs n s)).pwr.phase = (timeFrame s).pwr.phase)
@[simp] theorem passUs_pwr_vbat (n : Nat) (s : State) : (passUs n s).pwr.vbat = s.pwr.vbat :=
  (congrArg (fun x => x.pwr.vbat) (timeFrame_passUs n s) : (timeFrame (passUs n s)).pwr.vbat = (timeFrame s).pwr.vbat)
@[simp] theorem passUs_pwr_vddio (n : Nat) (s : State) : (passUs n s).pwr.vddio = s.pwr.vddio :=
  (congrArg (fun x => x.pwr.vddio) (timeFrame_passUs n s) : (timeFrame (passUs n s)).pwr.vddio = (timeFrame s).pwr.vddio)
@[simp] theorem passUs_pwr_vlf (n : Nat) (s : State) : (passUs n s).pwr.vlf = s.pwr.vlf :=
  (congrArg (fun x => x.pwr.vlf) (timeFrame_passUs n s) : (timeFrame (passUs n s)).pwr.vlf = (timeFrame s).pwr.vlf)
@[simp] theorem passUs_pwr_vrel (n : Nat) (s : State) : (passUs n s).pwr.vrel = s.pwr.vrel :=
  (congrArg (fun x => x.pwr.vrel) (timeFrame_passUs n s) : (timeFrame (passUs n s)).pwr.vrel = (timeFrame s).pwr.vrel)
@[simp] theorem passUs_pwr_vhold (n : Nat) (s : State) : (passUs n s).pwr.vhold = s.pwr.vhold :=
  (congrArg (fun x => x.pwr.vhold) (timeFrame_passUs n s) : (timeFrame (passUs n s)).pwr.vhold = (timeFrame s).pwr.vhold)
@[simp] theorem passUs_pwr_vbatValid (n : Nat) (s : State) : (passUs n s).pwr.vbatValid = s.pwr.vbatValid :=
  (congrArg (fun x => x.pwr.vbatValid) (timeFrame_passUs n s) : (timeFrame (passUs n s)).pwr.vbatValid = (timeFrame s).pwr.vbatValid)
@[simp] theorem passUs_pwr_vbatFull (n : Nat) (s : State) : (passUs n s).pwr.vbatFull = s.pwr.vbatFull :=
  (congrArg (fun x => x.pwr.vbatFull) (timeFrame_passUs n s) : (timeFrame (passUs n s)).pwr.vbatFull = (timeFrame s).pwr.vbatFull)
@[simp] theorem passUs_pwr_vbatOv (n : Nat) (s : State) : (passUs n s).pwr.vbatOv = s.pwr.vbatOv :=
  (congrArg (fun x => x.pwr.vbatOv) (timeFrame_passUs n s) : (timeFrame (passUs n s)).pwr.vbatOv = (timeFrame s).pwr.vbatOv)
@[simp] theorem passUs_pwr_vlfValid (n : Nat) (s : State) : (passUs n s).pwr.vlfValid = s.pwr.vlfValid :=
  (congrArg (fun x => x.pwr.vlfValid) (timeFrame_passUs n s) : (timeFrame (passUs n s)).pwr.vlfValid = (timeFrame s).pwr.vlfValid)
@[simp] theorem passUs_pwr_vlfOv (n : Nat) (s : State) : (passUs n s).pwr.vlfOv = s.pwr.vlfOv :=
  (congrArg (fun x => x.pwr.vlfOv) (timeFrame_passUs n s) : (timeFrame (passUs n s)).pwr.vlfOv = (timeFrame s).pwr.vlfOv)
@[simp] theorem passUs_pwr_vrelValid (n : Nat) (s : State) : (passUs n s).pwr.vrelValid = s.pwr.vrelValid :=
  (congrArg (fun x => x.pwr.vrelValid) (timeFrame_passUs n s) : (timeFrame (passUs n s)).pwr.vrelValid = (timeFrame s).pwr.vrelValid)
@[simp] theorem passUs_pwr_vddioValid (n : Nat) (s : State) : (passUs n s).pwr.vddioValid = s.pwr.vddioValid :=
  (congrArg (fun x => x.pwr.vddioValid) (timeFrame_passUs n s) : (timeFrame (passUs n s)).pwr.vddioValid = (timeFrame s).pwr.vddioValid)
@[simp] theorem passUs_pwr_charger (n : Nat) (s : State) : (passUs n s).pwr.charger = s.pwr.charger :=
  (congrArg (fun x => x.pwr.charger) (timeFrame_passUs n s) : (timeFrame (passUs n s)).pwr.charger = (timeFrame s).pwr.charger)
@[simp] theorem passUs_pwr_chargeFrom (n : Nat) (s : State) : (passUs n s).pwr.chargeFrom = s.pwr.chargeFrom :=
  (congrArg (fun x => x.pwr.chargeFrom) (timeFrame_passUs n s) : (timeFrame (passUs n s)).pwr.chargeFrom = (timeFrame s).pwr.chargeFrom)
@[simp] theorem passUs_pwr_holdBusy (n : Nat) (s : State) : (passUs n s).pwr.holdBusy = s.pwr.holdBusy :=
  (congrArg (fun x => x.pwr.holdBusy) (timeFrame_passUs n s) : (timeFrame (passUs n s)).pwr.holdBusy = (timeFrame s).pwr.holdBusy)
@[simp] theorem passUs_pwr_hold (n : Nat) (s : State) : (passUs n s).pwr.hold = s.pwr.hold :=
  (congrArg (fun x => x.pwr.hold) (timeFrame_passUs n s) : (timeFrame (passUs n s)).pwr.hold = (timeFrame s).pwr.hold)
@[simp] theorem passUs_pwr_holdSkip (n : Nat) (s : State) : (passUs n s).pwr.holdSkip = s.pwr.holdSkip :=
  (congrArg (fun x => x.pwr.holdSkip) (timeFrame_passUs n s) : (timeFrame (passUs n s)).pwr.holdSkip = (timeFrame s).pwr.holdSkip)
@[simp] theorem passUs_pwr_ride (n : Nat) (s : State) : (passUs n s).pwr.ride = s.pwr.ride :=
  (congrArg (fun x => x.pwr.ride) (timeFrame_passUs n s) : (timeFrame (passUs n s)).pwr.ride = (timeFrame s).pwr.ride)
@[simp] theorem passUs_pwr_shutdown (n : Nat) (s : State) : (passUs n s).pwr.shutdown = s.pwr.shutdown :=
  (congrArg (fun x => x.pwr.shutdown) (timeFrame_passUs n s) : (timeFrame (passUs n s)).pwr.shutdown = (timeFrame s).pwr.shutdown)
@[simp] theorem passUs_pwr_neapEntry (n : Nat) (s : State) : (passUs n s).pwr.neapEntry = s.pwr.neapEntry :=
  (congrArg (fun x => x.pwr.neapEntry) (timeFrame_passUs n s) : (timeFrame (passUs n s)).pwr.neapEntry = (timeFrame s).pwr.neapEntry)
@[simp] theorem passUs_pwr_neapAfter (n : Nat) (s : State) : (passUs n s).pwr.neapAfter = s.pwr.neapAfter :=
  (congrArg (fun x => x.pwr.neapAfter) (timeFrame_passUs n s) : (timeFrame (passUs n s)).pwr.neapAfter = (timeFrame s).pwr.neapAfter)
@[simp] theorem passUs_pwr_hostRdy (n : Nat) (s : State) : (passUs n s).pwr.hostRdy = s.pwr.hostRdy :=
  (congrArg (fun x => x.pwr.hostRdy) (timeFrame_passUs n s) : (timeFrame (passUs n s)).pwr.hostRdy = (timeFrame s).pwr.hostRdy)
@[simp] theorem passUs_pwr_csLow (n : Nat) (s : State) : (passUs n s).pwr.csLow = s.pwr.csLow :=
  (congrArg (fun x => x.pwr.csLow) (timeFrame_passUs n s) : (timeFrame (passUs n s)).pwr.csLow = (timeFrame s).pwr.csLow)
@[simp] theorem passUs_pwr_csDiscard (n : Nat) (s : State) : (passUs n s).pwr.csDiscard = s.pwr.csDiscard :=
  (congrArg (fun x => x.pwr.csDiscard) (timeFrame_passUs n s) : (timeFrame (passUs n s)).pwr.csDiscard = (timeFrame s).pwr.csDiscard)
@[simp] theorem passUs_pwr_readyAt (n : Nat) (s : State) : (passUs n s).pwr.readyAt = s.pwr.readyAt :=
  (congrArg (fun x => x.pwr.readyAt) (timeFrame_passUs n s) : (timeFrame (passUs n s)).pwr.readyAt = (timeFrame s).pwr.readyAt)
@[simp] theorem passUs_pwr_persistWanted (n : Nat) (s : State) : (passUs n s).pwr.persistWanted = s.pwr.persistWanted :=
  (congrArg (fun x => x.pwr.persistWanted) (timeFrame_passUs n s) : (timeFrame (passUs n s)).pwr.persistWanted = (timeFrame s).pwr.persistWanted)
@[simp] theorem passUs_pwr_strandedBy (n : Nat) (s : State) : (passUs n s).pwr.strandedBy = s.pwr.strandedBy :=
  (congrArg (fun x => x.pwr.strandedBy) (timeFrame_passUs n s) : (timeFrame (passUs n s)).pwr.strandedBy = (timeFrame s).pwr.strandedBy)
@[simp] theorem passUs_pwr_cause (n : Nat) (s : State) : (passUs n s).pwr.cause = s.pwr.cause :=
  (congrArg (fun x => x.pwr.cause) (timeFrame_passUs n s) : (timeFrame (passUs n s)).pwr.cause = (timeFrame s).pwr.cause)
@[simp] theorem passUs_pwr_wdt (n : Nat) (s : State) : (passUs n s).pwr.wdt = s.pwr.wdt :=
  (congrArg (fun x => x.pwr.wdt) (timeFrame_passUs n s) : (timeFrame (passUs n s)).pwr.wdt = (timeFrame s).pwr.wdt)
@[simp] theorem passUs_pwr_resetAfter (n : Nat) (s : State) : (passUs n s).pwr.resetAfter = s.pwr.resetAfter :=
  (congrArg (fun x => x.pwr.resetAfter) (timeFrame_passUs n s) : (timeFrame (passUs n s)).pwr.resetAfter = (timeFrame s).pwr.resetAfter)
@[simp] theorem passUs_pwr_wdtSeen (n : Nat) (s : State) : (passUs n s).pwr.wdtSeen = s.pwr.wdtSeen :=
  (congrArg (fun x => x.pwr.wdtSeen) (timeFrame_passUs n s) : (timeFrame (passUs n s)).pwr.wdtSeen = (timeFrame s).pwr.wdtSeen)
@[simp] theorem passUs_pwr_railBad (n : Nat) (s : State) : (passUs n s).pwr.railBad = s.pwr.railBad :=
  (congrArg (fun x => x.pwr.railBad) (timeFrame_passUs n s) : (timeFrame (passUs n s)).pwr.railBad = (timeFrame s).pwr.railBad)
@[simp] theorem passUs_pwr_latched (n : Nat) (s : State) : (passUs n s).pwr.latched = s.pwr.latched :=
  (congrArg (fun x => x.pwr.latched) (timeFrame_passUs n s) : (timeFrame (passUs n s)).pwr.latched = (timeFrame s).pwr.latched)
@[simp] theorem passUs_pwr_cliffActed (n : Nat) (s : State) : (passUs n s).pwr.cliffActed = s.pwr.cliffActed :=
  (congrArg (fun x => x.pwr.cliffActed) (timeFrame_passUs n s) : (timeFrame (passUs n s)).pwr.cliffActed = (timeFrame s).pwr.cliffActed)
@[simp] theorem passUs_pwr_cwPair (n : Nat) (s : State) : (passUs n s).pwr.cwPair = s.pwr.cwPair :=
  (congrArg (fun x => x.pwr.cwPair) (timeFrame_passUs n s) : (timeFrame (passUs n s)).pwr.cwPair = (timeFrame s).pwr.cwPair)
@[simp] theorem passUs_pwr_cwRole (n : Nat) (s : State) : (passUs n s).pwr.cwRole = s.pwr.cwRole :=
  (congrArg (fun x => x.pwr.cwRole) (timeFrame_passUs n s) : (timeFrame (passUs n s)).pwr.cwRole = (timeFrame s).pwr.cwRole)
@[simp] theorem passUs_pwr_testEn (n : Nat) (s : State) : (passUs n s).pwr.testEn = s.pwr.testEn :=
  (congrArg (fun x => x.pwr.testEn) (timeFrame_passUs n s) : (timeFrame (passUs n s)).pwr.testEn = (timeFrame s).pwr.testEn)
@[simp] theorem passUs_pwr_scanTest (n : Nat) (s : State) : (passUs n s).pwr.scanTest = s.pwr.scanTest :=
  (congrArg (fun x => x.pwr.scanTest) (timeFrame_passUs n s) : (timeFrame (passUs n s)).pwr.scanTest = (timeFrame s).pwr.scanTest)
@[simp] theorem passUs_pwr_tripSeen (n : Nat) (s : State) : (passUs n s).pwr.tripSeen = s.pwr.tripSeen :=
  (congrArg (fun x => x.pwr.tripSeen) (timeFrame_passUs n s) : (timeFrame (passUs n s)).pwr.tripSeen = (timeFrame s).pwr.tripSeen)
@[simp] theorem passUs_pwr_recovery (n : Nat) (s : State) : (passUs n s).pwr.recovery = s.pwr.recovery :=
  (congrArg (fun x => x.pwr.recovery) (timeFrame_passUs n s) : (timeFrame (passUs n s)).pwr.recovery = (timeFrame s).pwr.recovery)
@[simp] theorem passUs_pwr_fwFailed (n : Nat) (s : State) : (passUs n s).pwr.fwFailed = s.pwr.fwFailed :=
  (congrArg (fun x => x.pwr.fwFailed) (timeFrame_passUs n s) : (timeFrame (passUs n s)).pwr.fwFailed = (timeFrame s).pwr.fwFailed)
@[simp] theorem passUs_pwr_lineKinds (n : Nat) (s : State) : (passUs n s).pwr.lineKinds = s.pwr.lineKinds :=
  (congrArg (fun x => x.pwr.lineKinds) (timeFrame_passUs n s) : (timeFrame (passUs n s)).pwr.lineKinds = (timeFrame s).pwr.lineKinds)
@[simp] theorem passUs_par (n : Nat) (s : State) : (passUs n s).par = s.par :=
  (congrArg State.par (timeFrame_passUs n s) : (timeFrame (passUs n s)).par = (timeFrame s).par)
@[simp] theorem passUs_mbx (n : Nat) (s : State) : (passUs n s).mbx = s.mbx :=
  (congrArg State.mbx (timeFrame_passUs n s) : (timeFrame (passUs n s)).mbx = (timeFrame s).mbx)
@[simp] theorem passUs_mmb (n : Nat) (s : State) : (passUs n s).mmb = s.mmb :=
  (congrArg State.mmb (timeFrame_passUs n s) : (timeFrame (passUs n s)).mmb = (timeFrame s).mmb)
@[simp] theorem passUs_wasOpen (n : Nat) (s : State) : (passUs n s).wasOpen = s.wasOpen :=
  (congrArg State.wasOpen (timeFrame_passUs n s) : (timeFrame (passUs n s)).wasOpen = (timeFrame s).wasOpen)
@[simp] theorem passUs_lf (n : Nat) (s : State) : (passUs n s).lf = s.lf :=
  (congrArg State.lf (timeFrame_passUs n s) : (timeFrame (passUs n s)).lf = (timeFrame s).lf)
@[simp] theorem passUs_zon (n : Nat) (s : State) : (passUs n s).zon = s.zon :=
  (congrArg State.zon (timeFrame_passUs n s) : (timeFrame (passUs n s)).zon = (timeFrame s).zon)
@[simp] theorem passUs_paths (n : Nat) (s : State) : (passUs n s).paths = s.paths :=
  (congrArg State.paths (timeFrame_passUs n s) : (timeFrame (passUs n s)).paths = (timeFrame s).paths)
@[simp] theorem passUs_path (n : Nat) (s : State) : (passUs n s).path = s.path :=
  (congrArg State.path (timeFrame_passUs n s) : (timeFrame (passUs n s)).path = (timeFrame s).path)
@[simp] theorem passUs_lastAuth (n : Nat) (s : State) : (passUs n s).lastAuth = s.lastAuth :=
  (congrArg State.lastAuth (timeFrame_passUs n s) : (timeFrame (passUs n s)).lastAuth = (timeFrame s).lastAuth)
@[simp] theorem passUs_raised (n : Nat) (s : State) : (passUs n s).raised = s.raised :=
  (congrArg State.raised (timeFrame_passUs n s) : (timeFrame (passUs n s)).raised = (timeFrame s).raised)
@[simp] theorem passUs_awaited (n : Nat) (s : State) : (passUs n s).awaited = s.awaited :=
  (congrArg State.awaited (timeFrame_passUs n s) : (timeFrame (passUs n s)).awaited = (timeFrame s).awaited)
@[simp] theorem passUs_uwb (n : Nat) (s : State) : (passUs n s).uwb = s.uwb :=
  (congrArg State.uwb (timeFrame_passUs n s) : (timeFrame (passUs n s)).uwb = (timeFrame s).uwb)
@[simp] theorem passUs_rel_access (n : Nat) (s : State) : (passUs n s).rel.access = s.rel.access :=
  (congrArg (fun x => x.rel.access) (timeFrame_passUs n s) : (timeFrame (passUs n s)).rel.access = (timeFrame s).rel.access)
@[simp] theorem passUs_rel_start (n : Nat) (s : State) : (passUs n s).rel.start = s.rel.start :=
  (congrArg (fun x => x.rel.start) (timeFrame_passUs n s) : (timeFrame (passUs n s)).rel.start = (timeFrame s).rel.start)
@[simp] theorem passUs_rel_nextId (n : Nat) (s : State) : (passUs n s).rel.nextId = s.rel.nextId :=
  (congrArg (fun x => x.rel.nextId) (timeFrame_passUs n s) : (timeFrame (passUs n s)).rel.nextId = (timeFrame s).rel.nextId)
@[simp] theorem passUs_rel_startA (n : Nat) (s : State) : (passUs n s).rel.startA = s.rel.startA :=
  (congrArg (fun x => x.rel.startA) (timeFrame_passUs n s) : (timeFrame (passUs n s)).rel.startA = (timeFrame s).rel.startA)
@[simp] theorem passUs_rel_startB (n : Nat) (s : State) : (passUs n s).rel.startB = s.rel.startB :=
  (congrArg (fun x => x.rel.startB) (timeFrame_passUs n s) : (timeFrame (passUs n s)).rel.startB = (timeFrame s).rel.startB)
@[simp] theorem passUs_rel_diagA (n : Nat) (s : State) : (passUs n s).rel.diagA = s.rel.diagA :=
  (congrArg (fun x => x.rel.diagA) (timeFrame_passUs n s) : (timeFrame (passUs n s)).rel.diagA = (timeFrame s).rel.diagA)
@[simp] theorem passUs_rel_diagB (n : Nat) (s : State) : (passUs n s).rel.diagB = s.rel.diagB :=
  (congrArg (fun x => x.rel.diagB) (timeFrame_passUs n s) : (timeFrame (passUs n s)).rel.diagB = (timeFrame s).rel.diagB)
@[simp] theorem passUs_rel_clean (n : Nat) (s : State) : (passUs n s).rel.clean = s.rel.clean :=
  (congrArg (fun x => x.rel.clean) (timeFrame_passUs n s) : (timeFrame (passUs n s)).rel.clean = (timeFrame s).rel.clean)
@[simp] theorem passUs_rel_fresh (n : Nat) (s : State) : (passUs n s).rel.fresh = s.rel.fresh :=
  (congrArg (fun x => x.rel.fresh) (timeFrame_passUs n s) : (timeFrame (passUs n s)).rel.fresh = (timeFrame s).rel.fresh)
@[simp] theorem passUs_rel_block (n : Nat) (s : State) : (passUs n s).rel.block = s.rel.block :=
  (congrArg (fun x => x.rel.block) (timeFrame_passUs n s) : (timeFrame (passUs n s)).rel.block = (timeFrame s).rel.block)
@[simp] theorem passUs_rel_blockWait (n : Nat) (s : State) : (passUs n s).rel.blockWait = s.rel.blockWait :=
  (congrArg (fun x => x.rel.blockWait) (timeFrame_passUs n s) : (timeFrame (passUs n s)).rel.blockWait = (timeFrame s).rel.blockWait)
@[simp] theorem passUs_rel_engVer (n : Nat) (s : State) : (passUs n s).rel.engVer = s.rel.engVer :=
  (congrArg (fun x => x.rel.engVer) (timeFrame_passUs n s) : (timeFrame (passUs n s)).rel.engVer = (timeFrame s).rel.engVer)
@[simp] theorem passUs_rel_engine (n : Nat) (s : State) : (passUs n s).rel.engine = s.rel.engine :=
  (congrArg (fun x => x.rel.engine) (timeFrame_passUs n s) : (timeFrame (passUs n s)).rel.engine = (timeFrame s).rel.engine)
@[simp] theorem passUs_rel_masks (n : Nat) (s : State) : (passUs n s).rel.masks = s.rel.masks :=
  (congrArg (fun x => x.rel.masks) (timeFrame_passUs n s) : (timeFrame (passUs n s)).rel.masks = (timeFrame s).rel.masks)
@[simp] theorem passUs_rel_pulses (n : Nat) (s : State) : (passUs n s).rel.pulses = s.rel.pulses :=
  (congrArg (fun x => x.rel.pulses) (timeFrame_passUs n s) : (timeFrame (passUs n s)).rel.pulses = (timeFrame s).rel.pulses)
@[simp] theorem passUs_rel_checkAt (n : Nat) (s : State) : (passUs n s).rel.checkAt = s.rel.checkAt :=
  (congrArg (fun x => x.rel.checkAt) (timeFrame_passUs n s) : (timeFrame (passUs n s)).rel.checkAt = (timeFrame s).rel.checkAt)
@[simp] theorem passUs_rel_tpDiag (n : Nat) (s : State) : (passUs n s).rel.tpDiag = s.rel.tpDiag :=
  (congrArg (fun x => x.rel.tpDiag) (timeFrame_passUs n s) : (timeFrame (passUs n s)).rel.tpDiag = (timeFrame s).rel.tpDiag)
@[simp] theorem passUs_rel_doorKey (n : Nat) (s : State) : (passUs n s).rel.doorKey = s.rel.doorKey :=
  (congrArg (fun x => x.rel.doorKey) (timeFrame_passUs n s) : (timeFrame (passUs n s)).rel.doorKey = (timeFrame s).rel.doorKey)
@[simp] theorem passUs_rel_pathKeys (n : Nat) (s : State) : (passUs n s).rel.pathKeys = s.rel.pathKeys :=
  (congrArg (fun x => x.rel.pathKeys) (timeFrame_passUs n s) : (timeFrame (passUs n s)).rel.pathKeys = (timeFrame s).rel.pathKeys)
@[simp] theorem passUs_rel_doorFmt (n : Nat) (s : State) : (passUs n s).rel.doorFmt = s.rel.doorFmt :=
  (congrArg (fun x => x.rel.doorFmt) (timeFrame_passUs n s) : (timeFrame (passUs n s)).rel.doorFmt = (timeFrame s).rel.doorFmt)
@[simp] theorem passUs_rad (n : Nat) (s : State) : (passUs n s).rad = s.rad :=
  (congrArg State.rad (timeFrame_passUs n s) : (timeFrame (passUs n s)).rad = (timeFrame s).rad)
@[simp] theorem passUs_sen (n : Nat) (s : State) : (passUs n s).sen = s.sen :=
  (congrArg State.sen (timeFrame_passUs n s) : (timeFrame (passUs n s)).sen = (timeFrame s).sen)
@[simp] theorem passUs_sec (n : Nat) (s : State) : (passUs n s).sec = s.sec :=
  (congrArg State.sec (timeFrame_passUs n s) : (timeFrame (passUs n s)).sec = (timeFrame s).sec)
@[simp] theorem passUs_rng (n : Nat) (s : State) : (passUs n s).rng = s.rng :=
  (congrArg State.rng (timeFrame_passUs n s) : (timeFrame (passUs n s)).rng = (timeFrame s).rng)
@[simp] theorem passUs_store (n : Nat) (s : State) : (passUs n s).store = s.store :=
  (congrArg State.store (timeFrame_passUs n s) : (timeFrame (passUs n s)).store = (timeFrame s).store)
@[simp] theorem passUs_pair (n : Nat) (s : State) : (passUs n s).pair = s.pair :=
  (congrArg State.pair (timeFrame_passUs n s) : (timeFrame (passUs n s)).pair = (timeFrame s).pair)
@[simp] theorem passUs_bus_doorBits (n : Nat) (s : State) : (passUs n s).bus.doorBits = s.bus.doorBits :=
  (congrArg (fun x => x.bus.doorBits) (timeFrame_passUs n s) : (timeFrame (passUs n s)).bus.doorBits = (timeFrame s).bus.doorBits)
@[simp] theorem passUs_bus_doorAt (n : Nat) (s : State) : (passUs n s).bus.doorAt = s.bus.doorAt :=
  (congrArg (fun x => x.bus.doorAt) (timeFrame_passUs n s) : (timeFrame (passUs n s)).bus.doorAt = (timeFrame s).bus.doorAt)
@[simp] theorem passUs_bus_doorSeen (n : Nat) (s : State) : (passUs n s).bus.doorSeen = s.bus.doorSeen :=
  (congrArg (fun x => x.bus.doorSeen) (timeFrame_passUs n s) : (timeFrame (passUs n s)).bus.doorSeen = (timeFrame s).bus.doorSeen)
@[simp] theorem passUs_bus_nodes (n : Nat) (s : State) : (passUs n s).bus.nodes = s.bus.nodes :=
  (congrArg (fun x => x.bus.nodes) (timeFrame_passUs n s) : (timeFrame (passUs n s)).bus.nodes = (timeFrame s).bus.nodes)
@[simp] theorem passUs_bus_pins (n : Nat) (s : State) : (passUs n s).bus.pins = s.bus.pins :=
  (congrArg (fun x => x.bus.pins) (timeFrame_passUs n s) : (timeFrame (passUs n s)).bus.pins = (timeFrame s).bus.pins)
@[simp] theorem passUs_bus_linTx (n : Nat) (s : State) : (passUs n s).bus.linTx = s.bus.linTx :=
  (congrArg (fun x => x.bus.linTx) (timeFrame_passUs n s) : (timeFrame (passUs n s)).bus.linTx = (timeFrame s).bus.linTx)
@[simp] theorem passUs_bus_pollEnd (n : Nat) (s : State) : (passUs n s).bus.pollEnd = s.bus.pollEnd :=
  (congrArg (fun x => x.bus.pollEnd) (timeFrame_passUs n s) : (timeFrame (passUs n s)).bus.pollEnd = (timeFrame s).bus.pollEnd)
@[simp] theorem passUs_bus_rejected (n : Nat) (s : State) : (passUs n s).bus.rejected = s.bus.rejected :=
  (congrArg (fun x => x.bus.rejected) (timeFrame_passUs n s) : (timeFrame (passUs n s)).bus.rejected = (timeFrame s).bus.rejected)
@[simp] theorem passUs_ero (n : Nat) (s : State) : (passUs n s).ero = s.ero :=
  (congrArg State.ero (timeFrame_passUs n s) : (timeFrame (passUs n s)).ero = (timeFrame s).ero)
@[simp] theorem passUs_eroAt (n : Nat) (s : State) : (passUs n s).eroAt = s.eroAt :=
  (congrArg State.eroAt (timeFrame_passUs n s) : (timeFrame (passUs n s)).eroAt = (timeFrame s).eroAt)
@[simp] theorem passUs_soundRun (n : Nat) (s : State) : (passUs n s).soundRun = s.soundRun :=
  (congrArg State.soundRun (timeFrame_passUs n s) : (timeFrame (passUs n s)).soundRun = (timeFrame s).soundRun)
@[simp] theorem passUs_free (n : Nat) (s : State) : (passUs n s).free = s.free :=
  (congrArg State.free (timeFrame_passUs n s) : (timeFrame (passUs n s)).free = (timeFrame s).free)

@[simp] theorem monoAt_pending (n : Nat) (s : State) : (monoAt n s).pending = s.pending :=
  (congrArg State.pending (timeFrame_monoAt n s) : (timeFrame (monoAt n s)).pending = (timeFrame s).pending)
@[simp] theorem monoAt_pwr_state (n : Nat) (s : State) : (monoAt n s).pwr.state = s.pwr.state :=
  (congrArg (fun x => x.pwr.state) (timeFrame_monoAt n s) : (timeFrame (monoAt n s)).pwr.state = (timeFrame s).pwr.state)
@[simp] theorem monoAt_pwr_phase (n : Nat) (s : State) : (monoAt n s).pwr.phase = s.pwr.phase :=
  (congrArg (fun x => x.pwr.phase) (timeFrame_monoAt n s) : (timeFrame (monoAt n s)).pwr.phase = (timeFrame s).pwr.phase)
@[simp] theorem monoAt_pwr_vbat (n : Nat) (s : State) : (monoAt n s).pwr.vbat = s.pwr.vbat :=
  (congrArg (fun x => x.pwr.vbat) (timeFrame_monoAt n s) : (timeFrame (monoAt n s)).pwr.vbat = (timeFrame s).pwr.vbat)
@[simp] theorem monoAt_pwr_vddio (n : Nat) (s : State) : (monoAt n s).pwr.vddio = s.pwr.vddio :=
  (congrArg (fun x => x.pwr.vddio) (timeFrame_monoAt n s) : (timeFrame (monoAt n s)).pwr.vddio = (timeFrame s).pwr.vddio)
@[simp] theorem monoAt_pwr_vlf (n : Nat) (s : State) : (monoAt n s).pwr.vlf = s.pwr.vlf :=
  (congrArg (fun x => x.pwr.vlf) (timeFrame_monoAt n s) : (timeFrame (monoAt n s)).pwr.vlf = (timeFrame s).pwr.vlf)
@[simp] theorem monoAt_pwr_vrel (n : Nat) (s : State) : (monoAt n s).pwr.vrel = s.pwr.vrel :=
  (congrArg (fun x => x.pwr.vrel) (timeFrame_monoAt n s) : (timeFrame (monoAt n s)).pwr.vrel = (timeFrame s).pwr.vrel)
@[simp] theorem monoAt_pwr_vhold (n : Nat) (s : State) : (monoAt n s).pwr.vhold = s.pwr.vhold :=
  (congrArg (fun x => x.pwr.vhold) (timeFrame_monoAt n s) : (timeFrame (monoAt n s)).pwr.vhold = (timeFrame s).pwr.vhold)
@[simp] theorem monoAt_pwr_vbatValid (n : Nat) (s : State) : (monoAt n s).pwr.vbatValid = s.pwr.vbatValid :=
  (congrArg (fun x => x.pwr.vbatValid) (timeFrame_monoAt n s) : (timeFrame (monoAt n s)).pwr.vbatValid = (timeFrame s).pwr.vbatValid)
@[simp] theorem monoAt_pwr_vbatFull (n : Nat) (s : State) : (monoAt n s).pwr.vbatFull = s.pwr.vbatFull :=
  (congrArg (fun x => x.pwr.vbatFull) (timeFrame_monoAt n s) : (timeFrame (monoAt n s)).pwr.vbatFull = (timeFrame s).pwr.vbatFull)
@[simp] theorem monoAt_pwr_vbatOv (n : Nat) (s : State) : (monoAt n s).pwr.vbatOv = s.pwr.vbatOv :=
  (congrArg (fun x => x.pwr.vbatOv) (timeFrame_monoAt n s) : (timeFrame (monoAt n s)).pwr.vbatOv = (timeFrame s).pwr.vbatOv)
@[simp] theorem monoAt_pwr_vlfValid (n : Nat) (s : State) : (monoAt n s).pwr.vlfValid = s.pwr.vlfValid :=
  (congrArg (fun x => x.pwr.vlfValid) (timeFrame_monoAt n s) : (timeFrame (monoAt n s)).pwr.vlfValid = (timeFrame s).pwr.vlfValid)
@[simp] theorem monoAt_pwr_vlfOv (n : Nat) (s : State) : (monoAt n s).pwr.vlfOv = s.pwr.vlfOv :=
  (congrArg (fun x => x.pwr.vlfOv) (timeFrame_monoAt n s) : (timeFrame (monoAt n s)).pwr.vlfOv = (timeFrame s).pwr.vlfOv)
@[simp] theorem monoAt_pwr_vrelValid (n : Nat) (s : State) : (monoAt n s).pwr.vrelValid = s.pwr.vrelValid :=
  (congrArg (fun x => x.pwr.vrelValid) (timeFrame_monoAt n s) : (timeFrame (monoAt n s)).pwr.vrelValid = (timeFrame s).pwr.vrelValid)
@[simp] theorem monoAt_pwr_vddioValid (n : Nat) (s : State) : (monoAt n s).pwr.vddioValid = s.pwr.vddioValid :=
  (congrArg (fun x => x.pwr.vddioValid) (timeFrame_monoAt n s) : (timeFrame (monoAt n s)).pwr.vddioValid = (timeFrame s).pwr.vddioValid)
@[simp] theorem monoAt_pwr_charger (n : Nat) (s : State) : (monoAt n s).pwr.charger = s.pwr.charger :=
  (congrArg (fun x => x.pwr.charger) (timeFrame_monoAt n s) : (timeFrame (monoAt n s)).pwr.charger = (timeFrame s).pwr.charger)
@[simp] theorem monoAt_pwr_chargeFrom (n : Nat) (s : State) : (monoAt n s).pwr.chargeFrom = s.pwr.chargeFrom :=
  (congrArg (fun x => x.pwr.chargeFrom) (timeFrame_monoAt n s) : (timeFrame (monoAt n s)).pwr.chargeFrom = (timeFrame s).pwr.chargeFrom)
@[simp] theorem monoAt_pwr_holdBusy (n : Nat) (s : State) : (monoAt n s).pwr.holdBusy = s.pwr.holdBusy :=
  (congrArg (fun x => x.pwr.holdBusy) (timeFrame_monoAt n s) : (timeFrame (monoAt n s)).pwr.holdBusy = (timeFrame s).pwr.holdBusy)
@[simp] theorem monoAt_pwr_hold (n : Nat) (s : State) : (monoAt n s).pwr.hold = s.pwr.hold :=
  (congrArg (fun x => x.pwr.hold) (timeFrame_monoAt n s) : (timeFrame (monoAt n s)).pwr.hold = (timeFrame s).pwr.hold)
@[simp] theorem monoAt_pwr_holdSkip (n : Nat) (s : State) : (monoAt n s).pwr.holdSkip = s.pwr.holdSkip :=
  (congrArg (fun x => x.pwr.holdSkip) (timeFrame_monoAt n s) : (timeFrame (monoAt n s)).pwr.holdSkip = (timeFrame s).pwr.holdSkip)
@[simp] theorem monoAt_pwr_ride (n : Nat) (s : State) : (monoAt n s).pwr.ride = s.pwr.ride :=
  (congrArg (fun x => x.pwr.ride) (timeFrame_monoAt n s) : (timeFrame (monoAt n s)).pwr.ride = (timeFrame s).pwr.ride)
@[simp] theorem monoAt_pwr_shutdown (n : Nat) (s : State) : (monoAt n s).pwr.shutdown = s.pwr.shutdown :=
  (congrArg (fun x => x.pwr.shutdown) (timeFrame_monoAt n s) : (timeFrame (monoAt n s)).pwr.shutdown = (timeFrame s).pwr.shutdown)
@[simp] theorem monoAt_pwr_neapEntry (n : Nat) (s : State) : (monoAt n s).pwr.neapEntry = s.pwr.neapEntry :=
  (congrArg (fun x => x.pwr.neapEntry) (timeFrame_monoAt n s) : (timeFrame (monoAt n s)).pwr.neapEntry = (timeFrame s).pwr.neapEntry)
@[simp] theorem monoAt_pwr_neapAfter (n : Nat) (s : State) : (monoAt n s).pwr.neapAfter = s.pwr.neapAfter :=
  (congrArg (fun x => x.pwr.neapAfter) (timeFrame_monoAt n s) : (timeFrame (monoAt n s)).pwr.neapAfter = (timeFrame s).pwr.neapAfter)
@[simp] theorem monoAt_pwr_hostRdy (n : Nat) (s : State) : (monoAt n s).pwr.hostRdy = s.pwr.hostRdy :=
  (congrArg (fun x => x.pwr.hostRdy) (timeFrame_monoAt n s) : (timeFrame (monoAt n s)).pwr.hostRdy = (timeFrame s).pwr.hostRdy)
@[simp] theorem monoAt_pwr_csLow (n : Nat) (s : State) : (monoAt n s).pwr.csLow = s.pwr.csLow :=
  (congrArg (fun x => x.pwr.csLow) (timeFrame_monoAt n s) : (timeFrame (monoAt n s)).pwr.csLow = (timeFrame s).pwr.csLow)
@[simp] theorem monoAt_pwr_csDiscard (n : Nat) (s : State) : (monoAt n s).pwr.csDiscard = s.pwr.csDiscard :=
  (congrArg (fun x => x.pwr.csDiscard) (timeFrame_monoAt n s) : (timeFrame (monoAt n s)).pwr.csDiscard = (timeFrame s).pwr.csDiscard)
@[simp] theorem monoAt_pwr_readyAt (n : Nat) (s : State) : (monoAt n s).pwr.readyAt = s.pwr.readyAt :=
  (congrArg (fun x => x.pwr.readyAt) (timeFrame_monoAt n s) : (timeFrame (monoAt n s)).pwr.readyAt = (timeFrame s).pwr.readyAt)
@[simp] theorem monoAt_pwr_persistWanted (n : Nat) (s : State) : (monoAt n s).pwr.persistWanted = s.pwr.persistWanted :=
  (congrArg (fun x => x.pwr.persistWanted) (timeFrame_monoAt n s) : (timeFrame (monoAt n s)).pwr.persistWanted = (timeFrame s).pwr.persistWanted)
@[simp] theorem monoAt_pwr_strandedBy (n : Nat) (s : State) : (monoAt n s).pwr.strandedBy = s.pwr.strandedBy :=
  (congrArg (fun x => x.pwr.strandedBy) (timeFrame_monoAt n s) : (timeFrame (monoAt n s)).pwr.strandedBy = (timeFrame s).pwr.strandedBy)
@[simp] theorem monoAt_pwr_cause (n : Nat) (s : State) : (monoAt n s).pwr.cause = s.pwr.cause :=
  (congrArg (fun x => x.pwr.cause) (timeFrame_monoAt n s) : (timeFrame (monoAt n s)).pwr.cause = (timeFrame s).pwr.cause)
@[simp] theorem monoAt_pwr_wdt (n : Nat) (s : State) : (monoAt n s).pwr.wdt = s.pwr.wdt :=
  (congrArg (fun x => x.pwr.wdt) (timeFrame_monoAt n s) : (timeFrame (monoAt n s)).pwr.wdt = (timeFrame s).pwr.wdt)
@[simp] theorem monoAt_pwr_resetAfter (n : Nat) (s : State) : (monoAt n s).pwr.resetAfter = s.pwr.resetAfter :=
  (congrArg (fun x => x.pwr.resetAfter) (timeFrame_monoAt n s) : (timeFrame (monoAt n s)).pwr.resetAfter = (timeFrame s).pwr.resetAfter)
@[simp] theorem monoAt_pwr_wdtSeen (n : Nat) (s : State) : (monoAt n s).pwr.wdtSeen = s.pwr.wdtSeen :=
  (congrArg (fun x => x.pwr.wdtSeen) (timeFrame_monoAt n s) : (timeFrame (monoAt n s)).pwr.wdtSeen = (timeFrame s).pwr.wdtSeen)
@[simp] theorem monoAt_pwr_railBad (n : Nat) (s : State) : (monoAt n s).pwr.railBad = s.pwr.railBad :=
  (congrArg (fun x => x.pwr.railBad) (timeFrame_monoAt n s) : (timeFrame (monoAt n s)).pwr.railBad = (timeFrame s).pwr.railBad)
@[simp] theorem monoAt_pwr_latched (n : Nat) (s : State) : (monoAt n s).pwr.latched = s.pwr.latched :=
  (congrArg (fun x => x.pwr.latched) (timeFrame_monoAt n s) : (timeFrame (monoAt n s)).pwr.latched = (timeFrame s).pwr.latched)
@[simp] theorem monoAt_pwr_cliffActed (n : Nat) (s : State) : (monoAt n s).pwr.cliffActed = s.pwr.cliffActed :=
  (congrArg (fun x => x.pwr.cliffActed) (timeFrame_monoAt n s) : (timeFrame (monoAt n s)).pwr.cliffActed = (timeFrame s).pwr.cliffActed)
@[simp] theorem monoAt_pwr_cwPair (n : Nat) (s : State) : (monoAt n s).pwr.cwPair = s.pwr.cwPair :=
  (congrArg (fun x => x.pwr.cwPair) (timeFrame_monoAt n s) : (timeFrame (monoAt n s)).pwr.cwPair = (timeFrame s).pwr.cwPair)
@[simp] theorem monoAt_pwr_cwRole (n : Nat) (s : State) : (monoAt n s).pwr.cwRole = s.pwr.cwRole :=
  (congrArg (fun x => x.pwr.cwRole) (timeFrame_monoAt n s) : (timeFrame (monoAt n s)).pwr.cwRole = (timeFrame s).pwr.cwRole)
@[simp] theorem monoAt_pwr_testEn (n : Nat) (s : State) : (monoAt n s).pwr.testEn = s.pwr.testEn :=
  (congrArg (fun x => x.pwr.testEn) (timeFrame_monoAt n s) : (timeFrame (monoAt n s)).pwr.testEn = (timeFrame s).pwr.testEn)
@[simp] theorem monoAt_pwr_scanTest (n : Nat) (s : State) : (monoAt n s).pwr.scanTest = s.pwr.scanTest :=
  (congrArg (fun x => x.pwr.scanTest) (timeFrame_monoAt n s) : (timeFrame (monoAt n s)).pwr.scanTest = (timeFrame s).pwr.scanTest)
@[simp] theorem monoAt_pwr_tripSeen (n : Nat) (s : State) : (monoAt n s).pwr.tripSeen = s.pwr.tripSeen :=
  (congrArg (fun x => x.pwr.tripSeen) (timeFrame_monoAt n s) : (timeFrame (monoAt n s)).pwr.tripSeen = (timeFrame s).pwr.tripSeen)
@[simp] theorem monoAt_pwr_recovery (n : Nat) (s : State) : (monoAt n s).pwr.recovery = s.pwr.recovery :=
  (congrArg (fun x => x.pwr.recovery) (timeFrame_monoAt n s) : (timeFrame (monoAt n s)).pwr.recovery = (timeFrame s).pwr.recovery)
@[simp] theorem monoAt_pwr_fwFailed (n : Nat) (s : State) : (monoAt n s).pwr.fwFailed = s.pwr.fwFailed :=
  (congrArg (fun x => x.pwr.fwFailed) (timeFrame_monoAt n s) : (timeFrame (monoAt n s)).pwr.fwFailed = (timeFrame s).pwr.fwFailed)
@[simp] theorem monoAt_pwr_lineKinds (n : Nat) (s : State) : (monoAt n s).pwr.lineKinds = s.pwr.lineKinds :=
  (congrArg (fun x => x.pwr.lineKinds) (timeFrame_monoAt n s) : (timeFrame (monoAt n s)).pwr.lineKinds = (timeFrame s).pwr.lineKinds)
@[simp] theorem monoAt_par (n : Nat) (s : State) : (monoAt n s).par = s.par :=
  (congrArg State.par (timeFrame_monoAt n s) : (timeFrame (monoAt n s)).par = (timeFrame s).par)
@[simp] theorem monoAt_mbx (n : Nat) (s : State) : (monoAt n s).mbx = s.mbx :=
  (congrArg State.mbx (timeFrame_monoAt n s) : (timeFrame (monoAt n s)).mbx = (timeFrame s).mbx)
@[simp] theorem monoAt_mmb (n : Nat) (s : State) : (monoAt n s).mmb = s.mmb :=
  (congrArg State.mmb (timeFrame_monoAt n s) : (timeFrame (monoAt n s)).mmb = (timeFrame s).mmb)
@[simp] theorem monoAt_wasOpen (n : Nat) (s : State) : (monoAt n s).wasOpen = s.wasOpen :=
  (congrArg State.wasOpen (timeFrame_monoAt n s) : (timeFrame (monoAt n s)).wasOpen = (timeFrame s).wasOpen)
@[simp] theorem monoAt_lf (n : Nat) (s : State) : (monoAt n s).lf = s.lf :=
  (congrArg State.lf (timeFrame_monoAt n s) : (timeFrame (monoAt n s)).lf = (timeFrame s).lf)
@[simp] theorem monoAt_zon (n : Nat) (s : State) : (monoAt n s).zon = s.zon :=
  (congrArg State.zon (timeFrame_monoAt n s) : (timeFrame (monoAt n s)).zon = (timeFrame s).zon)
@[simp] theorem monoAt_paths (n : Nat) (s : State) : (monoAt n s).paths = s.paths :=
  (congrArg State.paths (timeFrame_monoAt n s) : (timeFrame (monoAt n s)).paths = (timeFrame s).paths)
@[simp] theorem monoAt_path (n : Nat) (s : State) : (monoAt n s).path = s.path :=
  (congrArg State.path (timeFrame_monoAt n s) : (timeFrame (monoAt n s)).path = (timeFrame s).path)
@[simp] theorem monoAt_lastAuth (n : Nat) (s : State) : (monoAt n s).lastAuth = s.lastAuth :=
  (congrArg State.lastAuth (timeFrame_monoAt n s) : (timeFrame (monoAt n s)).lastAuth = (timeFrame s).lastAuth)
@[simp] theorem monoAt_raised (n : Nat) (s : State) : (monoAt n s).raised = s.raised :=
  (congrArg State.raised (timeFrame_monoAt n s) : (timeFrame (monoAt n s)).raised = (timeFrame s).raised)
@[simp] theorem monoAt_awaited (n : Nat) (s : State) : (monoAt n s).awaited = s.awaited :=
  (congrArg State.awaited (timeFrame_monoAt n s) : (timeFrame (monoAt n s)).awaited = (timeFrame s).awaited)
@[simp] theorem monoAt_uwb (n : Nat) (s : State) : (monoAt n s).uwb = s.uwb :=
  (congrArg State.uwb (timeFrame_monoAt n s) : (timeFrame (monoAt n s)).uwb = (timeFrame s).uwb)
@[simp] theorem monoAt_rel_access (n : Nat) (s : State) : (monoAt n s).rel.access = s.rel.access :=
  (congrArg (fun x => x.rel.access) (timeFrame_monoAt n s) : (timeFrame (monoAt n s)).rel.access = (timeFrame s).rel.access)
@[simp] theorem monoAt_rel_start (n : Nat) (s : State) : (monoAt n s).rel.start = s.rel.start :=
  (congrArg (fun x => x.rel.start) (timeFrame_monoAt n s) : (timeFrame (monoAt n s)).rel.start = (timeFrame s).rel.start)
@[simp] theorem monoAt_rel_nextId (n : Nat) (s : State) : (monoAt n s).rel.nextId = s.rel.nextId :=
  (congrArg (fun x => x.rel.nextId) (timeFrame_monoAt n s) : (timeFrame (monoAt n s)).rel.nextId = (timeFrame s).rel.nextId)
@[simp] theorem monoAt_rel_startA (n : Nat) (s : State) : (monoAt n s).rel.startA = s.rel.startA :=
  (congrArg (fun x => x.rel.startA) (timeFrame_monoAt n s) : (timeFrame (monoAt n s)).rel.startA = (timeFrame s).rel.startA)
@[simp] theorem monoAt_rel_startB (n : Nat) (s : State) : (monoAt n s).rel.startB = s.rel.startB :=
  (congrArg (fun x => x.rel.startB) (timeFrame_monoAt n s) : (timeFrame (monoAt n s)).rel.startB = (timeFrame s).rel.startB)
@[simp] theorem monoAt_rel_diagA (n : Nat) (s : State) : (monoAt n s).rel.diagA = s.rel.diagA :=
  (congrArg (fun x => x.rel.diagA) (timeFrame_monoAt n s) : (timeFrame (monoAt n s)).rel.diagA = (timeFrame s).rel.diagA)
@[simp] theorem monoAt_rel_diagB (n : Nat) (s : State) : (monoAt n s).rel.diagB = s.rel.diagB :=
  (congrArg (fun x => x.rel.diagB) (timeFrame_monoAt n s) : (timeFrame (monoAt n s)).rel.diagB = (timeFrame s).rel.diagB)
@[simp] theorem monoAt_rel_clean (n : Nat) (s : State) : (monoAt n s).rel.clean = s.rel.clean :=
  (congrArg (fun x => x.rel.clean) (timeFrame_monoAt n s) : (timeFrame (monoAt n s)).rel.clean = (timeFrame s).rel.clean)
@[simp] theorem monoAt_rel_fresh (n : Nat) (s : State) : (monoAt n s).rel.fresh = s.rel.fresh :=
  (congrArg (fun x => x.rel.fresh) (timeFrame_monoAt n s) : (timeFrame (monoAt n s)).rel.fresh = (timeFrame s).rel.fresh)
@[simp] theorem monoAt_rel_block (n : Nat) (s : State) : (monoAt n s).rel.block = s.rel.block :=
  (congrArg (fun x => x.rel.block) (timeFrame_monoAt n s) : (timeFrame (monoAt n s)).rel.block = (timeFrame s).rel.block)
@[simp] theorem monoAt_rel_blockWait (n : Nat) (s : State) : (monoAt n s).rel.blockWait = s.rel.blockWait :=
  (congrArg (fun x => x.rel.blockWait) (timeFrame_monoAt n s) : (timeFrame (monoAt n s)).rel.blockWait = (timeFrame s).rel.blockWait)
@[simp] theorem monoAt_rel_engVer (n : Nat) (s : State) : (monoAt n s).rel.engVer = s.rel.engVer :=
  (congrArg (fun x => x.rel.engVer) (timeFrame_monoAt n s) : (timeFrame (monoAt n s)).rel.engVer = (timeFrame s).rel.engVer)
@[simp] theorem monoAt_rel_engine (n : Nat) (s : State) : (monoAt n s).rel.engine = s.rel.engine :=
  (congrArg (fun x => x.rel.engine) (timeFrame_monoAt n s) : (timeFrame (monoAt n s)).rel.engine = (timeFrame s).rel.engine)
@[simp] theorem monoAt_rel_masks (n : Nat) (s : State) : (monoAt n s).rel.masks = s.rel.masks :=
  (congrArg (fun x => x.rel.masks) (timeFrame_monoAt n s) : (timeFrame (monoAt n s)).rel.masks = (timeFrame s).rel.masks)
@[simp] theorem monoAt_rel_pulses (n : Nat) (s : State) : (monoAt n s).rel.pulses = s.rel.pulses :=
  (congrArg (fun x => x.rel.pulses) (timeFrame_monoAt n s) : (timeFrame (monoAt n s)).rel.pulses = (timeFrame s).rel.pulses)
@[simp] theorem monoAt_rel_checkAt (n : Nat) (s : State) : (monoAt n s).rel.checkAt = s.rel.checkAt :=
  (congrArg (fun x => x.rel.checkAt) (timeFrame_monoAt n s) : (timeFrame (monoAt n s)).rel.checkAt = (timeFrame s).rel.checkAt)
@[simp] theorem monoAt_rel_tpDiag (n : Nat) (s : State) : (monoAt n s).rel.tpDiag = s.rel.tpDiag :=
  (congrArg (fun x => x.rel.tpDiag) (timeFrame_monoAt n s) : (timeFrame (monoAt n s)).rel.tpDiag = (timeFrame s).rel.tpDiag)
@[simp] theorem monoAt_rel_doorKey (n : Nat) (s : State) : (monoAt n s).rel.doorKey = s.rel.doorKey :=
  (congrArg (fun x => x.rel.doorKey) (timeFrame_monoAt n s) : (timeFrame (monoAt n s)).rel.doorKey = (timeFrame s).rel.doorKey)
@[simp] theorem monoAt_rel_pathKeys (n : Nat) (s : State) : (monoAt n s).rel.pathKeys = s.rel.pathKeys :=
  (congrArg (fun x => x.rel.pathKeys) (timeFrame_monoAt n s) : (timeFrame (monoAt n s)).rel.pathKeys = (timeFrame s).rel.pathKeys)
@[simp] theorem monoAt_rel_doorFmt (n : Nat) (s : State) : (monoAt n s).rel.doorFmt = s.rel.doorFmt :=
  (congrArg (fun x => x.rel.doorFmt) (timeFrame_monoAt n s) : (timeFrame (monoAt n s)).rel.doorFmt = (timeFrame s).rel.doorFmt)
@[simp] theorem monoAt_rad (n : Nat) (s : State) : (monoAt n s).rad = s.rad :=
  (congrArg State.rad (timeFrame_monoAt n s) : (timeFrame (monoAt n s)).rad = (timeFrame s).rad)
@[simp] theorem monoAt_sen (n : Nat) (s : State) : (monoAt n s).sen = s.sen :=
  (congrArg State.sen (timeFrame_monoAt n s) : (timeFrame (monoAt n s)).sen = (timeFrame s).sen)
@[simp] theorem monoAt_sec (n : Nat) (s : State) : (monoAt n s).sec = s.sec :=
  (congrArg State.sec (timeFrame_monoAt n s) : (timeFrame (monoAt n s)).sec = (timeFrame s).sec)
@[simp] theorem monoAt_rng (n : Nat) (s : State) : (monoAt n s).rng = s.rng :=
  (congrArg State.rng (timeFrame_monoAt n s) : (timeFrame (monoAt n s)).rng = (timeFrame s).rng)
@[simp] theorem monoAt_store (n : Nat) (s : State) : (monoAt n s).store = s.store :=
  (congrArg State.store (timeFrame_monoAt n s) : (timeFrame (monoAt n s)).store = (timeFrame s).store)
@[simp] theorem monoAt_pair (n : Nat) (s : State) : (monoAt n s).pair = s.pair :=
  (congrArg State.pair (timeFrame_monoAt n s) : (timeFrame (monoAt n s)).pair = (timeFrame s).pair)
@[simp] theorem monoAt_bus_doorBits (n : Nat) (s : State) : (monoAt n s).bus.doorBits = s.bus.doorBits :=
  (congrArg (fun x => x.bus.doorBits) (timeFrame_monoAt n s) : (timeFrame (monoAt n s)).bus.doorBits = (timeFrame s).bus.doorBits)
@[simp] theorem monoAt_bus_doorAt (n : Nat) (s : State) : (monoAt n s).bus.doorAt = s.bus.doorAt :=
  (congrArg (fun x => x.bus.doorAt) (timeFrame_monoAt n s) : (timeFrame (monoAt n s)).bus.doorAt = (timeFrame s).bus.doorAt)
@[simp] theorem monoAt_bus_doorSeen (n : Nat) (s : State) : (monoAt n s).bus.doorSeen = s.bus.doorSeen :=
  (congrArg (fun x => x.bus.doorSeen) (timeFrame_monoAt n s) : (timeFrame (monoAt n s)).bus.doorSeen = (timeFrame s).bus.doorSeen)
@[simp] theorem monoAt_bus_nodes (n : Nat) (s : State) : (monoAt n s).bus.nodes = s.bus.nodes :=
  (congrArg (fun x => x.bus.nodes) (timeFrame_monoAt n s) : (timeFrame (monoAt n s)).bus.nodes = (timeFrame s).bus.nodes)
@[simp] theorem monoAt_bus_pins (n : Nat) (s : State) : (monoAt n s).bus.pins = s.bus.pins :=
  (congrArg (fun x => x.bus.pins) (timeFrame_monoAt n s) : (timeFrame (monoAt n s)).bus.pins = (timeFrame s).bus.pins)
@[simp] theorem monoAt_bus_linTx (n : Nat) (s : State) : (monoAt n s).bus.linTx = s.bus.linTx :=
  (congrArg (fun x => x.bus.linTx) (timeFrame_monoAt n s) : (timeFrame (monoAt n s)).bus.linTx = (timeFrame s).bus.linTx)
@[simp] theorem monoAt_bus_pollEnd (n : Nat) (s : State) : (monoAt n s).bus.pollEnd = s.bus.pollEnd :=
  (congrArg (fun x => x.bus.pollEnd) (timeFrame_monoAt n s) : (timeFrame (monoAt n s)).bus.pollEnd = (timeFrame s).bus.pollEnd)
@[simp] theorem monoAt_bus_rejected (n : Nat) (s : State) : (monoAt n s).bus.rejected = s.bus.rejected :=
  (congrArg (fun x => x.bus.rejected) (timeFrame_monoAt n s) : (timeFrame (monoAt n s)).bus.rejected = (timeFrame s).bus.rejected)
@[simp] theorem monoAt_ero (n : Nat) (s : State) : (monoAt n s).ero = s.ero :=
  (congrArg State.ero (timeFrame_monoAt n s) : (timeFrame (monoAt n s)).ero = (timeFrame s).ero)
@[simp] theorem monoAt_eroAt (n : Nat) (s : State) : (monoAt n s).eroAt = s.eroAt :=
  (congrArg State.eroAt (timeFrame_monoAt n s) : (timeFrame (monoAt n s)).eroAt = (timeFrame s).eroAt)
@[simp] theorem monoAt_soundRun (n : Nat) (s : State) : (monoAt n s).soundRun = s.soundRun :=
  (congrArg State.soundRun (timeFrame_monoAt n s) : (timeFrame (monoAt n s)).soundRun = (timeFrame s).soundRun)
@[simp] theorem monoAt_free (n : Nat) (s : State) : (monoAt n s).free = s.free :=
  (congrArg State.free (timeFrame_monoAt n s) : (timeFrame (monoAt n s)).free = (timeFrame s).free)

@[simp] theorem mirror_pending (l : List MirrorItem) (s : State) : (mirror l s).pending = s.pending :=
  (congrArg State.pending (talkFrame_mirror l s) : (talkFrame (mirror l s)).pending = (talkFrame s).pending)
@[simp] theorem mirror_clk (l : List MirrorItem) (s : State) : (mirror l s).clk = s.clk :=
  (congrArg State.clk (talkFrame_mirror l s) : (talkFrame (mirror l s)).clk = (talkFrame s).clk)
@[simp] theorem mirror_pwr_state (l : List MirrorItem) (s : State) : (mirror l s).pwr.state = s.pwr.state :=
  (congrArg (fun x => x.pwr.state) (talkFrame_mirror l s) : (talkFrame (mirror l s)).pwr.state = (talkFrame s).pwr.state)
@[simp] theorem mirror_pwr_phase (l : List MirrorItem) (s : State) : (mirror l s).pwr.phase = s.pwr.phase :=
  (congrArg (fun x => x.pwr.phase) (talkFrame_mirror l s) : (talkFrame (mirror l s)).pwr.phase = (talkFrame s).pwr.phase)
@[simp] theorem mirror_pwr_vbat (l : List MirrorItem) (s : State) : (mirror l s).pwr.vbat = s.pwr.vbat :=
  (congrArg (fun x => x.pwr.vbat) (talkFrame_mirror l s) : (talkFrame (mirror l s)).pwr.vbat = (talkFrame s).pwr.vbat)
@[simp] theorem mirror_pwr_vddio (l : List MirrorItem) (s : State) : (mirror l s).pwr.vddio = s.pwr.vddio :=
  (congrArg (fun x => x.pwr.vddio) (talkFrame_mirror l s) : (talkFrame (mirror l s)).pwr.vddio = (talkFrame s).pwr.vddio)
@[simp] theorem mirror_pwr_vlf (l : List MirrorItem) (s : State) : (mirror l s).pwr.vlf = s.pwr.vlf :=
  (congrArg (fun x => x.pwr.vlf) (talkFrame_mirror l s) : (talkFrame (mirror l s)).pwr.vlf = (talkFrame s).pwr.vlf)
@[simp] theorem mirror_pwr_vrel (l : List MirrorItem) (s : State) : (mirror l s).pwr.vrel = s.pwr.vrel :=
  (congrArg (fun x => x.pwr.vrel) (talkFrame_mirror l s) : (talkFrame (mirror l s)).pwr.vrel = (talkFrame s).pwr.vrel)
@[simp] theorem mirror_pwr_vhold (l : List MirrorItem) (s : State) : (mirror l s).pwr.vhold = s.pwr.vhold :=
  (congrArg (fun x => x.pwr.vhold) (talkFrame_mirror l s) : (talkFrame (mirror l s)).pwr.vhold = (talkFrame s).pwr.vhold)
@[simp] theorem mirror_pwr_vbatValid (l : List MirrorItem) (s : State) : (mirror l s).pwr.vbatValid = s.pwr.vbatValid :=
  (congrArg (fun x => x.pwr.vbatValid) (talkFrame_mirror l s) : (talkFrame (mirror l s)).pwr.vbatValid = (talkFrame s).pwr.vbatValid)
@[simp] theorem mirror_pwr_vbatFull (l : List MirrorItem) (s : State) : (mirror l s).pwr.vbatFull = s.pwr.vbatFull :=
  (congrArg (fun x => x.pwr.vbatFull) (talkFrame_mirror l s) : (talkFrame (mirror l s)).pwr.vbatFull = (talkFrame s).pwr.vbatFull)
@[simp] theorem mirror_pwr_vbatOv (l : List MirrorItem) (s : State) : (mirror l s).pwr.vbatOv = s.pwr.vbatOv :=
  (congrArg (fun x => x.pwr.vbatOv) (talkFrame_mirror l s) : (talkFrame (mirror l s)).pwr.vbatOv = (talkFrame s).pwr.vbatOv)
@[simp] theorem mirror_pwr_vlfValid (l : List MirrorItem) (s : State) : (mirror l s).pwr.vlfValid = s.pwr.vlfValid :=
  (congrArg (fun x => x.pwr.vlfValid) (talkFrame_mirror l s) : (talkFrame (mirror l s)).pwr.vlfValid = (talkFrame s).pwr.vlfValid)
@[simp] theorem mirror_pwr_vlfOv (l : List MirrorItem) (s : State) : (mirror l s).pwr.vlfOv = s.pwr.vlfOv :=
  (congrArg (fun x => x.pwr.vlfOv) (talkFrame_mirror l s) : (talkFrame (mirror l s)).pwr.vlfOv = (talkFrame s).pwr.vlfOv)
@[simp] theorem mirror_pwr_vrelValid (l : List MirrorItem) (s : State) : (mirror l s).pwr.vrelValid = s.pwr.vrelValid :=
  (congrArg (fun x => x.pwr.vrelValid) (talkFrame_mirror l s) : (talkFrame (mirror l s)).pwr.vrelValid = (talkFrame s).pwr.vrelValid)
@[simp] theorem mirror_pwr_vddioValid (l : List MirrorItem) (s : State) : (mirror l s).pwr.vddioValid = s.pwr.vddioValid :=
  (congrArg (fun x => x.pwr.vddioValid) (talkFrame_mirror l s) : (talkFrame (mirror l s)).pwr.vddioValid = (talkFrame s).pwr.vddioValid)
@[simp] theorem mirror_pwr_charger (l : List MirrorItem) (s : State) : (mirror l s).pwr.charger = s.pwr.charger :=
  (congrArg (fun x => x.pwr.charger) (talkFrame_mirror l s) : (talkFrame (mirror l s)).pwr.charger = (talkFrame s).pwr.charger)
@[simp] theorem mirror_pwr_chargeFrom (l : List MirrorItem) (s : State) : (mirror l s).pwr.chargeFrom = s.pwr.chargeFrom :=
  (congrArg (fun x => x.pwr.chargeFrom) (talkFrame_mirror l s) : (talkFrame (mirror l s)).pwr.chargeFrom = (talkFrame s).pwr.chargeFrom)
@[simp] theorem mirror_pwr_holdBusy (l : List MirrorItem) (s : State) : (mirror l s).pwr.holdBusy = s.pwr.holdBusy :=
  (congrArg (fun x => x.pwr.holdBusy) (talkFrame_mirror l s) : (talkFrame (mirror l s)).pwr.holdBusy = (talkFrame s).pwr.holdBusy)
@[simp] theorem mirror_pwr_hold (l : List MirrorItem) (s : State) : (mirror l s).pwr.hold = s.pwr.hold :=
  (congrArg (fun x => x.pwr.hold) (talkFrame_mirror l s) : (talkFrame (mirror l s)).pwr.hold = (talkFrame s).pwr.hold)
@[simp] theorem mirror_pwr_holdSkip (l : List MirrorItem) (s : State) : (mirror l s).pwr.holdSkip = s.pwr.holdSkip :=
  (congrArg (fun x => x.pwr.holdSkip) (talkFrame_mirror l s) : (talkFrame (mirror l s)).pwr.holdSkip = (talkFrame s).pwr.holdSkip)
@[simp] theorem mirror_pwr_ride (l : List MirrorItem) (s : State) : (mirror l s).pwr.ride = s.pwr.ride :=
  (congrArg (fun x => x.pwr.ride) (talkFrame_mirror l s) : (talkFrame (mirror l s)).pwr.ride = (talkFrame s).pwr.ride)
@[simp] theorem mirror_pwr_shutdown (l : List MirrorItem) (s : State) : (mirror l s).pwr.shutdown = s.pwr.shutdown :=
  (congrArg (fun x => x.pwr.shutdown) (talkFrame_mirror l s) : (talkFrame (mirror l s)).pwr.shutdown = (talkFrame s).pwr.shutdown)
@[simp] theorem mirror_pwr_neapEntry (l : List MirrorItem) (s : State) : (mirror l s).pwr.neapEntry = s.pwr.neapEntry :=
  (congrArg (fun x => x.pwr.neapEntry) (talkFrame_mirror l s) : (talkFrame (mirror l s)).pwr.neapEntry = (talkFrame s).pwr.neapEntry)
@[simp] theorem mirror_pwr_neapAfter (l : List MirrorItem) (s : State) : (mirror l s).pwr.neapAfter = s.pwr.neapAfter :=
  (congrArg (fun x => x.pwr.neapAfter) (talkFrame_mirror l s) : (talkFrame (mirror l s)).pwr.neapAfter = (talkFrame s).pwr.neapAfter)
@[simp] theorem mirror_pwr_hostRdy (l : List MirrorItem) (s : State) : (mirror l s).pwr.hostRdy = s.pwr.hostRdy :=
  (congrArg (fun x => x.pwr.hostRdy) (talkFrame_mirror l s) : (talkFrame (mirror l s)).pwr.hostRdy = (talkFrame s).pwr.hostRdy)
@[simp] theorem mirror_pwr_csLow (l : List MirrorItem) (s : State) : (mirror l s).pwr.csLow = s.pwr.csLow :=
  (congrArg (fun x => x.pwr.csLow) (talkFrame_mirror l s) : (talkFrame (mirror l s)).pwr.csLow = (talkFrame s).pwr.csLow)
@[simp] theorem mirror_pwr_csDiscard (l : List MirrorItem) (s : State) : (mirror l s).pwr.csDiscard = s.pwr.csDiscard :=
  (congrArg (fun x => x.pwr.csDiscard) (talkFrame_mirror l s) : (talkFrame (mirror l s)).pwr.csDiscard = (talkFrame s).pwr.csDiscard)
@[simp] theorem mirror_pwr_readyAt (l : List MirrorItem) (s : State) : (mirror l s).pwr.readyAt = s.pwr.readyAt :=
  (congrArg (fun x => x.pwr.readyAt) (talkFrame_mirror l s) : (talkFrame (mirror l s)).pwr.readyAt = (talkFrame s).pwr.readyAt)
@[simp] theorem mirror_pwr_persistWanted (l : List MirrorItem) (s : State) : (mirror l s).pwr.persistWanted = s.pwr.persistWanted :=
  (congrArg (fun x => x.pwr.persistWanted) (talkFrame_mirror l s) : (talkFrame (mirror l s)).pwr.persistWanted = (talkFrame s).pwr.persistWanted)
@[simp] theorem mirror_pwr_strandedBy (l : List MirrorItem) (s : State) : (mirror l s).pwr.strandedBy = s.pwr.strandedBy :=
  (congrArg (fun x => x.pwr.strandedBy) (talkFrame_mirror l s) : (talkFrame (mirror l s)).pwr.strandedBy = (talkFrame s).pwr.strandedBy)
@[simp] theorem mirror_pwr_cause (l : List MirrorItem) (s : State) : (mirror l s).pwr.cause = s.pwr.cause :=
  (congrArg (fun x => x.pwr.cause) (talkFrame_mirror l s) : (talkFrame (mirror l s)).pwr.cause = (talkFrame s).pwr.cause)
@[simp] theorem mirror_pwr_wdt (l : List MirrorItem) (s : State) : (mirror l s).pwr.wdt = s.pwr.wdt :=
  (congrArg (fun x => x.pwr.wdt) (talkFrame_mirror l s) : (talkFrame (mirror l s)).pwr.wdt = (talkFrame s).pwr.wdt)
@[simp] theorem mirror_pwr_resetAfter (l : List MirrorItem) (s : State) : (mirror l s).pwr.resetAfter = s.pwr.resetAfter :=
  (congrArg (fun x => x.pwr.resetAfter) (talkFrame_mirror l s) : (talkFrame (mirror l s)).pwr.resetAfter = (talkFrame s).pwr.resetAfter)
@[simp] theorem mirror_pwr_wdtSeen (l : List MirrorItem) (s : State) : (mirror l s).pwr.wdtSeen = s.pwr.wdtSeen :=
  (congrArg (fun x => x.pwr.wdtSeen) (talkFrame_mirror l s) : (talkFrame (mirror l s)).pwr.wdtSeen = (talkFrame s).pwr.wdtSeen)
@[simp] theorem mirror_pwr_railBad (l : List MirrorItem) (s : State) : (mirror l s).pwr.railBad = s.pwr.railBad :=
  (congrArg (fun x => x.pwr.railBad) (talkFrame_mirror l s) : (talkFrame (mirror l s)).pwr.railBad = (talkFrame s).pwr.railBad)
@[simp] theorem mirror_pwr_latched (l : List MirrorItem) (s : State) : (mirror l s).pwr.latched = s.pwr.latched :=
  (congrArg (fun x => x.pwr.latched) (talkFrame_mirror l s) : (talkFrame (mirror l s)).pwr.latched = (talkFrame s).pwr.latched)
@[simp] theorem mirror_pwr_cliffActed (l : List MirrorItem) (s : State) : (mirror l s).pwr.cliffActed = s.pwr.cliffActed :=
  (congrArg (fun x => x.pwr.cliffActed) (talkFrame_mirror l s) : (talkFrame (mirror l s)).pwr.cliffActed = (talkFrame s).pwr.cliffActed)
@[simp] theorem mirror_pwr_cwPair (l : List MirrorItem) (s : State) : (mirror l s).pwr.cwPair = s.pwr.cwPair :=
  (congrArg (fun x => x.pwr.cwPair) (talkFrame_mirror l s) : (talkFrame (mirror l s)).pwr.cwPair = (talkFrame s).pwr.cwPair)
@[simp] theorem mirror_pwr_cwRole (l : List MirrorItem) (s : State) : (mirror l s).pwr.cwRole = s.pwr.cwRole :=
  (congrArg (fun x => x.pwr.cwRole) (talkFrame_mirror l s) : (talkFrame (mirror l s)).pwr.cwRole = (talkFrame s).pwr.cwRole)
@[simp] theorem mirror_pwr_testEn (l : List MirrorItem) (s : State) : (mirror l s).pwr.testEn = s.pwr.testEn :=
  (congrArg (fun x => x.pwr.testEn) (talkFrame_mirror l s) : (talkFrame (mirror l s)).pwr.testEn = (talkFrame s).pwr.testEn)
@[simp] theorem mirror_pwr_scanTest (l : List MirrorItem) (s : State) : (mirror l s).pwr.scanTest = s.pwr.scanTest :=
  (congrArg (fun x => x.pwr.scanTest) (talkFrame_mirror l s) : (talkFrame (mirror l s)).pwr.scanTest = (talkFrame s).pwr.scanTest)
@[simp] theorem mirror_pwr_tripSeen (l : List MirrorItem) (s : State) : (mirror l s).pwr.tripSeen = s.pwr.tripSeen :=
  (congrArg (fun x => x.pwr.tripSeen) (talkFrame_mirror l s) : (talkFrame (mirror l s)).pwr.tripSeen = (talkFrame s).pwr.tripSeen)
@[simp] theorem mirror_pwr_recovery (l : List MirrorItem) (s : State) : (mirror l s).pwr.recovery = s.pwr.recovery :=
  (congrArg (fun x => x.pwr.recovery) (talkFrame_mirror l s) : (talkFrame (mirror l s)).pwr.recovery = (talkFrame s).pwr.recovery)
@[simp] theorem mirror_pwr_fwFailed (l : List MirrorItem) (s : State) : (mirror l s).pwr.fwFailed = s.pwr.fwFailed :=
  (congrArg (fun x => x.pwr.fwFailed) (talkFrame_mirror l s) : (talkFrame (mirror l s)).pwr.fwFailed = (talkFrame s).pwr.fwFailed)
@[simp] theorem mirror_pwr_lineKinds (l : List MirrorItem) (s : State) : (mirror l s).pwr.lineKinds = s.pwr.lineKinds :=
  (congrArg (fun x => x.pwr.lineKinds) (talkFrame_mirror l s) : (talkFrame (mirror l s)).pwr.lineKinds = (talkFrame s).pwr.lineKinds)
@[simp] theorem mirror_par (l : List MirrorItem) (s : State) : (mirror l s).par = s.par :=
  (congrArg State.par (talkFrame_mirror l s) : (talkFrame (mirror l s)).par = (talkFrame s).par)
@[simp] theorem mirror_lf (l : List MirrorItem) (s : State) : (mirror l s).lf = s.lf :=
  (congrArg State.lf (talkFrame_mirror l s) : (talkFrame (mirror l s)).lf = (talkFrame s).lf)
@[simp] theorem mirror_zon (l : List MirrorItem) (s : State) : (mirror l s).zon = s.zon :=
  (congrArg State.zon (talkFrame_mirror l s) : (talkFrame (mirror l s)).zon = (talkFrame s).zon)
@[simp] theorem mirror_paths (l : List MirrorItem) (s : State) : (mirror l s).paths = s.paths :=
  (congrArg State.paths (talkFrame_mirror l s) : (talkFrame (mirror l s)).paths = (talkFrame s).paths)
@[simp] theorem mirror_path (l : List MirrorItem) (s : State) : (mirror l s).path = s.path :=
  (congrArg State.path (talkFrame_mirror l s) : (talkFrame (mirror l s)).path = (talkFrame s).path)
@[simp] theorem mirror_lastAuth (l : List MirrorItem) (s : State) : (mirror l s).lastAuth = s.lastAuth :=
  (congrArg State.lastAuth (talkFrame_mirror l s) : (talkFrame (mirror l s)).lastAuth = (talkFrame s).lastAuth)
@[simp] theorem mirror_raised (l : List MirrorItem) (s : State) : (mirror l s).raised = s.raised :=
  (congrArg State.raised (talkFrame_mirror l s) : (talkFrame (mirror l s)).raised = (talkFrame s).raised)
@[simp] theorem mirror_awaited (l : List MirrorItem) (s : State) : (mirror l s).awaited = s.awaited :=
  (congrArg State.awaited (talkFrame_mirror l s) : (talkFrame (mirror l s)).awaited = (talkFrame s).awaited)
@[simp] theorem mirror_uwb (l : List MirrorItem) (s : State) : (mirror l s).uwb = s.uwb :=
  (congrArg State.uwb (talkFrame_mirror l s) : (talkFrame (mirror l s)).uwb = (talkFrame s).uwb)
@[simp] theorem mirror_rel (l : List MirrorItem) (s : State) : (mirror l s).rel = s.rel :=
  (congrArg State.rel (talkFrame_mirror l s) : (talkFrame (mirror l s)).rel = (talkFrame s).rel)
@[simp] theorem mirror_rad (l : List MirrorItem) (s : State) : (mirror l s).rad = s.rad :=
  (congrArg State.rad (talkFrame_mirror l s) : (talkFrame (mirror l s)).rad = (talkFrame s).rad)
@[simp] theorem mirror_sen (l : List MirrorItem) (s : State) : (mirror l s).sen = s.sen :=
  (congrArg State.sen (talkFrame_mirror l s) : (talkFrame (mirror l s)).sen = (talkFrame s).sen)
@[simp] theorem mirror_sec (l : List MirrorItem) (s : State) : (mirror l s).sec = s.sec :=
  (congrArg State.sec (talkFrame_mirror l s) : (talkFrame (mirror l s)).sec = (talkFrame s).sec)
@[simp] theorem mirror_rng (l : List MirrorItem) (s : State) : (mirror l s).rng = s.rng :=
  (congrArg State.rng (talkFrame_mirror l s) : (talkFrame (mirror l s)).rng = (talkFrame s).rng)
@[simp] theorem mirror_store (l : List MirrorItem) (s : State) : (mirror l s).store = s.store :=
  (congrArg State.store (talkFrame_mirror l s) : (talkFrame (mirror l s)).store = (talkFrame s).store)
@[simp] theorem mirror_timers (l : List MirrorItem) (s : State) : (mirror l s).timers = s.timers :=
  (congrArg State.timers (talkFrame_mirror l s) : (talkFrame (mirror l s)).timers = (talkFrame s).timers)
@[simp] theorem mirror_cc (l : List MirrorItem) (s : State) : (mirror l s).cc = s.cc :=
  (congrArg State.cc (talkFrame_mirror l s) : (talkFrame (mirror l s)).cc = (talkFrame s).cc)
@[simp] theorem mirror_xc (l : List MirrorItem) (s : State) : (mirror l s).xc = s.xc :=
  (congrArg State.xc (talkFrame_mirror l s) : (talkFrame (mirror l s)).xc = (talkFrame s).xc)
@[simp] theorem mirror_ext (l : List MirrorItem) (s : State) : (mirror l s).ext = s.ext :=
  (congrArg State.ext (talkFrame_mirror l s) : (talkFrame (mirror l s)).ext = (talkFrame s).ext)
@[simp] theorem mirror_bus (l : List MirrorItem) (s : State) : (mirror l s).bus = s.bus :=
  (congrArg State.bus (talkFrame_mirror l s) : (talkFrame (mirror l s)).bus = (talkFrame s).bus)
@[simp] theorem mirror_ero (l : List MirrorItem) (s : State) : (mirror l s).ero = s.ero :=
  (congrArg State.ero (talkFrame_mirror l s) : (talkFrame (mirror l s)).ero = (talkFrame s).ero)
@[simp] theorem mirror_eroAt (l : List MirrorItem) (s : State) : (mirror l s).eroAt = s.eroAt :=
  (congrArg State.eroAt (talkFrame_mirror l s) : (talkFrame (mirror l s)).eroAt = (talkFrame s).eroAt)
@[simp] theorem mirror_soundRun (l : List MirrorItem) (s : State) : (mirror l s).soundRun = s.soundRun :=
  (congrArg State.soundRun (talkFrame_mirror l s) : (talkFrame (mirror l s)).soundRun = (talkFrame s).soundRun)
@[simp] theorem mirror_free (l : List MirrorItem) (s : State) : (mirror l s).free = s.free :=
  (congrArg State.free (talkFrame_mirror l s) : (talkFrame (mirror l s)).free = (talkFrame s).free)

@[simp] theorem respondWith_pending (f : Nat) (r : CmdRef) (n : Nat) (b : Bytes) (s : State) : (respondWith f r n b s).pending = s.pending :=
  (congrArg State.pending (talkFrame_respondWith f r n b s) : (talkFrame (respondWith f r n b s)).pending = (talkFrame s).pending)
@[simp] theorem respondWith_clk (f : Nat) (r : CmdRef) (n : Nat) (b : Bytes) (s : State) : (respondWith f r n b s).clk = s.clk :=
  (congrArg State.clk (talkFrame_respondWith f r n b s) : (talkFrame (respondWith f r n b s)).clk = (talkFrame s).clk)
@[simp] theorem respondWith_pwr_state (f : Nat) (r : CmdRef) (n : Nat) (b : Bytes) (s : State) : (respondWith f r n b s).pwr.state = s.pwr.state :=
  (congrArg (fun x => x.pwr.state) (talkFrame_respondWith f r n b s) : (talkFrame (respondWith f r n b s)).pwr.state = (talkFrame s).pwr.state)
@[simp] theorem respondWith_pwr_phase (f : Nat) (r : CmdRef) (n : Nat) (b : Bytes) (s : State) : (respondWith f r n b s).pwr.phase = s.pwr.phase :=
  (congrArg (fun x => x.pwr.phase) (talkFrame_respondWith f r n b s) : (talkFrame (respondWith f r n b s)).pwr.phase = (talkFrame s).pwr.phase)
@[simp] theorem respondWith_pwr_vbat (f : Nat) (r : CmdRef) (n : Nat) (b : Bytes) (s : State) : (respondWith f r n b s).pwr.vbat = s.pwr.vbat :=
  (congrArg (fun x => x.pwr.vbat) (talkFrame_respondWith f r n b s) : (talkFrame (respondWith f r n b s)).pwr.vbat = (talkFrame s).pwr.vbat)
@[simp] theorem respondWith_pwr_vddio (f : Nat) (r : CmdRef) (n : Nat) (b : Bytes) (s : State) : (respondWith f r n b s).pwr.vddio = s.pwr.vddio :=
  (congrArg (fun x => x.pwr.vddio) (talkFrame_respondWith f r n b s) : (talkFrame (respondWith f r n b s)).pwr.vddio = (talkFrame s).pwr.vddio)
@[simp] theorem respondWith_pwr_vlf (f : Nat) (r : CmdRef) (n : Nat) (b : Bytes) (s : State) : (respondWith f r n b s).pwr.vlf = s.pwr.vlf :=
  (congrArg (fun x => x.pwr.vlf) (talkFrame_respondWith f r n b s) : (talkFrame (respondWith f r n b s)).pwr.vlf = (talkFrame s).pwr.vlf)
@[simp] theorem respondWith_pwr_vrel (f : Nat) (r : CmdRef) (n : Nat) (b : Bytes) (s : State) : (respondWith f r n b s).pwr.vrel = s.pwr.vrel :=
  (congrArg (fun x => x.pwr.vrel) (talkFrame_respondWith f r n b s) : (talkFrame (respondWith f r n b s)).pwr.vrel = (talkFrame s).pwr.vrel)
@[simp] theorem respondWith_pwr_vhold (f : Nat) (r : CmdRef) (n : Nat) (b : Bytes) (s : State) : (respondWith f r n b s).pwr.vhold = s.pwr.vhold :=
  (congrArg (fun x => x.pwr.vhold) (talkFrame_respondWith f r n b s) : (talkFrame (respondWith f r n b s)).pwr.vhold = (talkFrame s).pwr.vhold)
@[simp] theorem respondWith_pwr_vbatValid (f : Nat) (r : CmdRef) (n : Nat) (b : Bytes) (s : State) : (respondWith f r n b s).pwr.vbatValid = s.pwr.vbatValid :=
  (congrArg (fun x => x.pwr.vbatValid) (talkFrame_respondWith f r n b s) : (talkFrame (respondWith f r n b s)).pwr.vbatValid = (talkFrame s).pwr.vbatValid)
@[simp] theorem respondWith_pwr_vbatFull (f : Nat) (r : CmdRef) (n : Nat) (b : Bytes) (s : State) : (respondWith f r n b s).pwr.vbatFull = s.pwr.vbatFull :=
  (congrArg (fun x => x.pwr.vbatFull) (talkFrame_respondWith f r n b s) : (talkFrame (respondWith f r n b s)).pwr.vbatFull = (talkFrame s).pwr.vbatFull)
@[simp] theorem respondWith_pwr_vbatOv (f : Nat) (r : CmdRef) (n : Nat) (b : Bytes) (s : State) : (respondWith f r n b s).pwr.vbatOv = s.pwr.vbatOv :=
  (congrArg (fun x => x.pwr.vbatOv) (talkFrame_respondWith f r n b s) : (talkFrame (respondWith f r n b s)).pwr.vbatOv = (talkFrame s).pwr.vbatOv)
@[simp] theorem respondWith_pwr_vlfValid (f : Nat) (r : CmdRef) (n : Nat) (b : Bytes) (s : State) : (respondWith f r n b s).pwr.vlfValid = s.pwr.vlfValid :=
  (congrArg (fun x => x.pwr.vlfValid) (talkFrame_respondWith f r n b s) : (talkFrame (respondWith f r n b s)).pwr.vlfValid = (talkFrame s).pwr.vlfValid)
@[simp] theorem respondWith_pwr_vlfOv (f : Nat) (r : CmdRef) (n : Nat) (b : Bytes) (s : State) : (respondWith f r n b s).pwr.vlfOv = s.pwr.vlfOv :=
  (congrArg (fun x => x.pwr.vlfOv) (talkFrame_respondWith f r n b s) : (talkFrame (respondWith f r n b s)).pwr.vlfOv = (talkFrame s).pwr.vlfOv)
@[simp] theorem respondWith_pwr_vrelValid (f : Nat) (r : CmdRef) (n : Nat) (b : Bytes) (s : State) : (respondWith f r n b s).pwr.vrelValid = s.pwr.vrelValid :=
  (congrArg (fun x => x.pwr.vrelValid) (talkFrame_respondWith f r n b s) : (talkFrame (respondWith f r n b s)).pwr.vrelValid = (talkFrame s).pwr.vrelValid)
@[simp] theorem respondWith_pwr_vddioValid (f : Nat) (r : CmdRef) (n : Nat) (b : Bytes) (s : State) : (respondWith f r n b s).pwr.vddioValid = s.pwr.vddioValid :=
  (congrArg (fun x => x.pwr.vddioValid) (talkFrame_respondWith f r n b s) : (talkFrame (respondWith f r n b s)).pwr.vddioValid = (talkFrame s).pwr.vddioValid)
@[simp] theorem respondWith_pwr_charger (f : Nat) (r : CmdRef) (n : Nat) (b : Bytes) (s : State) : (respondWith f r n b s).pwr.charger = s.pwr.charger :=
  (congrArg (fun x => x.pwr.charger) (talkFrame_respondWith f r n b s) : (talkFrame (respondWith f r n b s)).pwr.charger = (talkFrame s).pwr.charger)
@[simp] theorem respondWith_pwr_chargeFrom (f : Nat) (r : CmdRef) (n : Nat) (b : Bytes) (s : State) : (respondWith f r n b s).pwr.chargeFrom = s.pwr.chargeFrom :=
  (congrArg (fun x => x.pwr.chargeFrom) (talkFrame_respondWith f r n b s) : (talkFrame (respondWith f r n b s)).pwr.chargeFrom = (talkFrame s).pwr.chargeFrom)
@[simp] theorem respondWith_pwr_holdBusy (f : Nat) (r : CmdRef) (n : Nat) (b : Bytes) (s : State) : (respondWith f r n b s).pwr.holdBusy = s.pwr.holdBusy :=
  (congrArg (fun x => x.pwr.holdBusy) (talkFrame_respondWith f r n b s) : (talkFrame (respondWith f r n b s)).pwr.holdBusy = (talkFrame s).pwr.holdBusy)
@[simp] theorem respondWith_pwr_hold (f : Nat) (r : CmdRef) (n : Nat) (b : Bytes) (s : State) : (respondWith f r n b s).pwr.hold = s.pwr.hold :=
  (congrArg (fun x => x.pwr.hold) (talkFrame_respondWith f r n b s) : (talkFrame (respondWith f r n b s)).pwr.hold = (talkFrame s).pwr.hold)
@[simp] theorem respondWith_pwr_holdSkip (f : Nat) (r : CmdRef) (n : Nat) (b : Bytes) (s : State) : (respondWith f r n b s).pwr.holdSkip = s.pwr.holdSkip :=
  (congrArg (fun x => x.pwr.holdSkip) (talkFrame_respondWith f r n b s) : (talkFrame (respondWith f r n b s)).pwr.holdSkip = (talkFrame s).pwr.holdSkip)
@[simp] theorem respondWith_pwr_ride (f : Nat) (r : CmdRef) (n : Nat) (b : Bytes) (s : State) : (respondWith f r n b s).pwr.ride = s.pwr.ride :=
  (congrArg (fun x => x.pwr.ride) (talkFrame_respondWith f r n b s) : (talkFrame (respondWith f r n b s)).pwr.ride = (talkFrame s).pwr.ride)
@[simp] theorem respondWith_pwr_shutdown (f : Nat) (r : CmdRef) (n : Nat) (b : Bytes) (s : State) : (respondWith f r n b s).pwr.shutdown = s.pwr.shutdown :=
  (congrArg (fun x => x.pwr.shutdown) (talkFrame_respondWith f r n b s) : (talkFrame (respondWith f r n b s)).pwr.shutdown = (talkFrame s).pwr.shutdown)
@[simp] theorem respondWith_pwr_neapEntry (f : Nat) (r : CmdRef) (n : Nat) (b : Bytes) (s : State) : (respondWith f r n b s).pwr.neapEntry = s.pwr.neapEntry :=
  (congrArg (fun x => x.pwr.neapEntry) (talkFrame_respondWith f r n b s) : (talkFrame (respondWith f r n b s)).pwr.neapEntry = (talkFrame s).pwr.neapEntry)
@[simp] theorem respondWith_pwr_neapAfter (f : Nat) (r : CmdRef) (n : Nat) (b : Bytes) (s : State) : (respondWith f r n b s).pwr.neapAfter = s.pwr.neapAfter :=
  (congrArg (fun x => x.pwr.neapAfter) (talkFrame_respondWith f r n b s) : (talkFrame (respondWith f r n b s)).pwr.neapAfter = (talkFrame s).pwr.neapAfter)
@[simp] theorem respondWith_pwr_hostRdy (f : Nat) (r : CmdRef) (n : Nat) (b : Bytes) (s : State) : (respondWith f r n b s).pwr.hostRdy = s.pwr.hostRdy :=
  (congrArg (fun x => x.pwr.hostRdy) (talkFrame_respondWith f r n b s) : (talkFrame (respondWith f r n b s)).pwr.hostRdy = (talkFrame s).pwr.hostRdy)
@[simp] theorem respondWith_pwr_csLow (f : Nat) (r : CmdRef) (n : Nat) (b : Bytes) (s : State) : (respondWith f r n b s).pwr.csLow = s.pwr.csLow :=
  (congrArg (fun x => x.pwr.csLow) (talkFrame_respondWith f r n b s) : (talkFrame (respondWith f r n b s)).pwr.csLow = (talkFrame s).pwr.csLow)
@[simp] theorem respondWith_pwr_csDiscard (f : Nat) (r : CmdRef) (n : Nat) (b : Bytes) (s : State) : (respondWith f r n b s).pwr.csDiscard = s.pwr.csDiscard :=
  (congrArg (fun x => x.pwr.csDiscard) (talkFrame_respondWith f r n b s) : (talkFrame (respondWith f r n b s)).pwr.csDiscard = (talkFrame s).pwr.csDiscard)
@[simp] theorem respondWith_pwr_readyAt (f : Nat) (r : CmdRef) (n : Nat) (b : Bytes) (s : State) : (respondWith f r n b s).pwr.readyAt = s.pwr.readyAt :=
  (congrArg (fun x => x.pwr.readyAt) (talkFrame_respondWith f r n b s) : (talkFrame (respondWith f r n b s)).pwr.readyAt = (talkFrame s).pwr.readyAt)
@[simp] theorem respondWith_pwr_persistWanted (f : Nat) (r : CmdRef) (n : Nat) (b : Bytes) (s : State) : (respondWith f r n b s).pwr.persistWanted = s.pwr.persistWanted :=
  (congrArg (fun x => x.pwr.persistWanted) (talkFrame_respondWith f r n b s) : (talkFrame (respondWith f r n b s)).pwr.persistWanted = (talkFrame s).pwr.persistWanted)
@[simp] theorem respondWith_pwr_strandedBy (f : Nat) (r : CmdRef) (n : Nat) (b : Bytes) (s : State) : (respondWith f r n b s).pwr.strandedBy = s.pwr.strandedBy :=
  (congrArg (fun x => x.pwr.strandedBy) (talkFrame_respondWith f r n b s) : (talkFrame (respondWith f r n b s)).pwr.strandedBy = (talkFrame s).pwr.strandedBy)
@[simp] theorem respondWith_pwr_cause (f : Nat) (r : CmdRef) (n : Nat) (b : Bytes) (s : State) : (respondWith f r n b s).pwr.cause = s.pwr.cause :=
  (congrArg (fun x => x.pwr.cause) (talkFrame_respondWith f r n b s) : (talkFrame (respondWith f r n b s)).pwr.cause = (talkFrame s).pwr.cause)
@[simp] theorem respondWith_pwr_wdt (f : Nat) (r : CmdRef) (n : Nat) (b : Bytes) (s : State) : (respondWith f r n b s).pwr.wdt = s.pwr.wdt :=
  (congrArg (fun x => x.pwr.wdt) (talkFrame_respondWith f r n b s) : (talkFrame (respondWith f r n b s)).pwr.wdt = (talkFrame s).pwr.wdt)
@[simp] theorem respondWith_pwr_resetAfter (f : Nat) (r : CmdRef) (n : Nat) (b : Bytes) (s : State) : (respondWith f r n b s).pwr.resetAfter = s.pwr.resetAfter :=
  (congrArg (fun x => x.pwr.resetAfter) (talkFrame_respondWith f r n b s) : (talkFrame (respondWith f r n b s)).pwr.resetAfter = (talkFrame s).pwr.resetAfter)
@[simp] theorem respondWith_pwr_wdtSeen (f : Nat) (r : CmdRef) (n : Nat) (b : Bytes) (s : State) : (respondWith f r n b s).pwr.wdtSeen = s.pwr.wdtSeen :=
  (congrArg (fun x => x.pwr.wdtSeen) (talkFrame_respondWith f r n b s) : (talkFrame (respondWith f r n b s)).pwr.wdtSeen = (talkFrame s).pwr.wdtSeen)
@[simp] theorem respondWith_pwr_railBad (f : Nat) (r : CmdRef) (n : Nat) (b : Bytes) (s : State) : (respondWith f r n b s).pwr.railBad = s.pwr.railBad :=
  (congrArg (fun x => x.pwr.railBad) (talkFrame_respondWith f r n b s) : (talkFrame (respondWith f r n b s)).pwr.railBad = (talkFrame s).pwr.railBad)
@[simp] theorem respondWith_pwr_latched (f : Nat) (r : CmdRef) (n : Nat) (b : Bytes) (s : State) : (respondWith f r n b s).pwr.latched = s.pwr.latched :=
  (congrArg (fun x => x.pwr.latched) (talkFrame_respondWith f r n b s) : (talkFrame (respondWith f r n b s)).pwr.latched = (talkFrame s).pwr.latched)
@[simp] theorem respondWith_pwr_cliffActed (f : Nat) (r : CmdRef) (n : Nat) (b : Bytes) (s : State) : (respondWith f r n b s).pwr.cliffActed = s.pwr.cliffActed :=
  (congrArg (fun x => x.pwr.cliffActed) (talkFrame_respondWith f r n b s) : (talkFrame (respondWith f r n b s)).pwr.cliffActed = (talkFrame s).pwr.cliffActed)
@[simp] theorem respondWith_pwr_cwPair (f : Nat) (r : CmdRef) (n : Nat) (b : Bytes) (s : State) : (respondWith f r n b s).pwr.cwPair = s.pwr.cwPair :=
  (congrArg (fun x => x.pwr.cwPair) (talkFrame_respondWith f r n b s) : (talkFrame (respondWith f r n b s)).pwr.cwPair = (talkFrame s).pwr.cwPair)
@[simp] theorem respondWith_pwr_cwRole (f : Nat) (r : CmdRef) (n : Nat) (b : Bytes) (s : State) : (respondWith f r n b s).pwr.cwRole = s.pwr.cwRole :=
  (congrArg (fun x => x.pwr.cwRole) (talkFrame_respondWith f r n b s) : (talkFrame (respondWith f r n b s)).pwr.cwRole = (talkFrame s).pwr.cwRole)
@[simp] theorem respondWith_pwr_testEn (f : Nat) (r : CmdRef) (n : Nat) (b : Bytes) (s : State) : (respondWith f r n b s).pwr.testEn = s.pwr.testEn :=
  (congrArg (fun x => x.pwr.testEn) (talkFrame_respondWith f r n b s) : (talkFrame (respondWith f r n b s)).pwr.testEn = (talkFrame s).pwr.testEn)
@[simp] theorem respondWith_pwr_scanTest (f : Nat) (r : CmdRef) (n : Nat) (b : Bytes) (s : State) : (respondWith f r n b s).pwr.scanTest = s.pwr.scanTest :=
  (congrArg (fun x => x.pwr.scanTest) (talkFrame_respondWith f r n b s) : (talkFrame (respondWith f r n b s)).pwr.scanTest = (talkFrame s).pwr.scanTest)
@[simp] theorem respondWith_pwr_tripSeen (f : Nat) (r : CmdRef) (n : Nat) (b : Bytes) (s : State) : (respondWith f r n b s).pwr.tripSeen = s.pwr.tripSeen :=
  (congrArg (fun x => x.pwr.tripSeen) (talkFrame_respondWith f r n b s) : (talkFrame (respondWith f r n b s)).pwr.tripSeen = (talkFrame s).pwr.tripSeen)
@[simp] theorem respondWith_pwr_recovery (f : Nat) (r : CmdRef) (n : Nat) (b : Bytes) (s : State) : (respondWith f r n b s).pwr.recovery = s.pwr.recovery :=
  (congrArg (fun x => x.pwr.recovery) (talkFrame_respondWith f r n b s) : (talkFrame (respondWith f r n b s)).pwr.recovery = (talkFrame s).pwr.recovery)
@[simp] theorem respondWith_pwr_fwFailed (f : Nat) (r : CmdRef) (n : Nat) (b : Bytes) (s : State) : (respondWith f r n b s).pwr.fwFailed = s.pwr.fwFailed :=
  (congrArg (fun x => x.pwr.fwFailed) (talkFrame_respondWith f r n b s) : (talkFrame (respondWith f r n b s)).pwr.fwFailed = (talkFrame s).pwr.fwFailed)
@[simp] theorem respondWith_pwr_lineKinds (f : Nat) (r : CmdRef) (n : Nat) (b : Bytes) (s : State) : (respondWith f r n b s).pwr.lineKinds = s.pwr.lineKinds :=
  (congrArg (fun x => x.pwr.lineKinds) (talkFrame_respondWith f r n b s) : (talkFrame (respondWith f r n b s)).pwr.lineKinds = (talkFrame s).pwr.lineKinds)
@[simp] theorem respondWith_par (f : Nat) (r : CmdRef) (n : Nat) (b : Bytes) (s : State) : (respondWith f r n b s).par = s.par :=
  (congrArg State.par (talkFrame_respondWith f r n b s) : (talkFrame (respondWith f r n b s)).par = (talkFrame s).par)
@[simp] theorem respondWith_lf (f : Nat) (r : CmdRef) (n : Nat) (b : Bytes) (s : State) : (respondWith f r n b s).lf = s.lf :=
  (congrArg State.lf (talkFrame_respondWith f r n b s) : (talkFrame (respondWith f r n b s)).lf = (talkFrame s).lf)
@[simp] theorem respondWith_zon (f : Nat) (r : CmdRef) (n : Nat) (b : Bytes) (s : State) : (respondWith f r n b s).zon = s.zon :=
  (congrArg State.zon (talkFrame_respondWith f r n b s) : (talkFrame (respondWith f r n b s)).zon = (talkFrame s).zon)
@[simp] theorem respondWith_paths (f : Nat) (r : CmdRef) (n : Nat) (b : Bytes) (s : State) : (respondWith f r n b s).paths = s.paths :=
  (congrArg State.paths (talkFrame_respondWith f r n b s) : (talkFrame (respondWith f r n b s)).paths = (talkFrame s).paths)
@[simp] theorem respondWith_path (f : Nat) (r : CmdRef) (n : Nat) (b : Bytes) (s : State) : (respondWith f r n b s).path = s.path :=
  (congrArg State.path (talkFrame_respondWith f r n b s) : (talkFrame (respondWith f r n b s)).path = (talkFrame s).path)
@[simp] theorem respondWith_lastAuth (f : Nat) (r : CmdRef) (n : Nat) (b : Bytes) (s : State) : (respondWith f r n b s).lastAuth = s.lastAuth :=
  (congrArg State.lastAuth (talkFrame_respondWith f r n b s) : (talkFrame (respondWith f r n b s)).lastAuth = (talkFrame s).lastAuth)
@[simp] theorem respondWith_raised (f : Nat) (r : CmdRef) (n : Nat) (b : Bytes) (s : State) : (respondWith f r n b s).raised = s.raised :=
  (congrArg State.raised (talkFrame_respondWith f r n b s) : (talkFrame (respondWith f r n b s)).raised = (talkFrame s).raised)
@[simp] theorem respondWith_awaited (f : Nat) (r : CmdRef) (n : Nat) (b : Bytes) (s : State) : (respondWith f r n b s).awaited = s.awaited :=
  (congrArg State.awaited (talkFrame_respondWith f r n b s) : (talkFrame (respondWith f r n b s)).awaited = (talkFrame s).awaited)
@[simp] theorem respondWith_uwb (f : Nat) (r : CmdRef) (n : Nat) (b : Bytes) (s : State) : (respondWith f r n b s).uwb = s.uwb :=
  (congrArg State.uwb (talkFrame_respondWith f r n b s) : (talkFrame (respondWith f r n b s)).uwb = (talkFrame s).uwb)
@[simp] theorem respondWith_rel (f : Nat) (r : CmdRef) (n : Nat) (b : Bytes) (s : State) : (respondWith f r n b s).rel = s.rel :=
  (congrArg State.rel (talkFrame_respondWith f r n b s) : (talkFrame (respondWith f r n b s)).rel = (talkFrame s).rel)
@[simp] theorem respondWith_rad (f : Nat) (r : CmdRef) (n : Nat) (b : Bytes) (s : State) : (respondWith f r n b s).rad = s.rad :=
  (congrArg State.rad (talkFrame_respondWith f r n b s) : (talkFrame (respondWith f r n b s)).rad = (talkFrame s).rad)
@[simp] theorem respondWith_sen (f : Nat) (r : CmdRef) (n : Nat) (b : Bytes) (s : State) : (respondWith f r n b s).sen = s.sen :=
  (congrArg State.sen (talkFrame_respondWith f r n b s) : (talkFrame (respondWith f r n b s)).sen = (talkFrame s).sen)
@[simp] theorem respondWith_sec (f : Nat) (r : CmdRef) (n : Nat) (b : Bytes) (s : State) : (respondWith f r n b s).sec = s.sec :=
  (congrArg State.sec (talkFrame_respondWith f r n b s) : (talkFrame (respondWith f r n b s)).sec = (talkFrame s).sec)
@[simp] theorem respondWith_rng (f : Nat) (r : CmdRef) (n : Nat) (b : Bytes) (s : State) : (respondWith f r n b s).rng = s.rng :=
  (congrArg State.rng (talkFrame_respondWith f r n b s) : (talkFrame (respondWith f r n b s)).rng = (talkFrame s).rng)
@[simp] theorem respondWith_store (f : Nat) (r : CmdRef) (n : Nat) (b : Bytes) (s : State) : (respondWith f r n b s).store = s.store :=
  (congrArg State.store (talkFrame_respondWith f r n b s) : (talkFrame (respondWith f r n b s)).store = (talkFrame s).store)
@[simp] theorem respondWith_timers (f : Nat) (r : CmdRef) (n : Nat) (b : Bytes) (s : State) : (respondWith f r n b s).timers = s.timers :=
  (congrArg State.timers (talkFrame_respondWith f r n b s) : (talkFrame (respondWith f r n b s)).timers = (talkFrame s).timers)
@[simp] theorem respondWith_cc (f : Nat) (r : CmdRef) (n : Nat) (b : Bytes) (s : State) : (respondWith f r n b s).cc = s.cc :=
  (congrArg State.cc (talkFrame_respondWith f r n b s) : (talkFrame (respondWith f r n b s)).cc = (talkFrame s).cc)
@[simp] theorem respondWith_xc (f : Nat) (r : CmdRef) (n : Nat) (b : Bytes) (s : State) : (respondWith f r n b s).xc = s.xc :=
  (congrArg State.xc (talkFrame_respondWith f r n b s) : (talkFrame (respondWith f r n b s)).xc = (talkFrame s).xc)
@[simp] theorem respondWith_ext (f : Nat) (r : CmdRef) (n : Nat) (b : Bytes) (s : State) : (respondWith f r n b s).ext = s.ext :=
  (congrArg State.ext (talkFrame_respondWith f r n b s) : (talkFrame (respondWith f r n b s)).ext = (talkFrame s).ext)
@[simp] theorem respondWith_bus (f : Nat) (r : CmdRef) (n : Nat) (b : Bytes) (s : State) : (respondWith f r n b s).bus = s.bus :=
  (congrArg State.bus (talkFrame_respondWith f r n b s) : (talkFrame (respondWith f r n b s)).bus = (talkFrame s).bus)
@[simp] theorem respondWith_ero (f : Nat) (r : CmdRef) (n : Nat) (b : Bytes) (s : State) : (respondWith f r n b s).ero = s.ero :=
  (congrArg State.ero (talkFrame_respondWith f r n b s) : (talkFrame (respondWith f r n b s)).ero = (talkFrame s).ero)
@[simp] theorem respondWith_eroAt (f : Nat) (r : CmdRef) (n : Nat) (b : Bytes) (s : State) : (respondWith f r n b s).eroAt = s.eroAt :=
  (congrArg State.eroAt (talkFrame_respondWith f r n b s) : (talkFrame (respondWith f r n b s)).eroAt = (talkFrame s).eroAt)
@[simp] theorem respondWith_soundRun (f : Nat) (r : CmdRef) (n : Nat) (b : Bytes) (s : State) : (respondWith f r n b s).soundRun = s.soundRun :=
  (congrArg State.soundRun (talkFrame_respondWith f r n b s) : (talkFrame (respondWith f r n b s)).soundRun = (talkFrame s).soundRun)
@[simp] theorem respondWith_free (f : Nat) (r : CmdRef) (n : Nat) (b : Bytes) (s : State) : (respondWith f r n b s).free = s.free :=
  (congrArg State.free (talkFrame_respondWith f r n b s) : (talkFrame (respondWith f r n b s)).free = (talkFrame s).free)

end Sys2Proof.Machine
end

