-- ==== Sys2Proof/Laws/Memory.lean ====
section
/-! SUPPORT. The laws of a core's byte memory: a store and a clearing keep the canonical form, and what a byte reads after them. -/

namespace Sys2Proof.Machine
open Sys2Proof

/-- The canonical form said by membership: addresses rise strictly, none lies below `lo`, no listed byte is 0. -/
theorem memSorted_iff (m : List Host.Cell) (lo : Nat) :
    memSorted lo m = true ↔ m.Pairwise (fun c d => c.1 < d.1) ∧ ∀ c ∈ m, lo ≤ c.1 ∧ c.2 ≠ 0 := by
  induction m generalizing lo with
  | nil => simp [memSorted]
  | cons c r ih =>
    simp only [memSorted, Bool.and_eq_true, decide_eq_true_eq, bne_iff_ne, ih, List.pairwise_cons, List.mem_cons, forall_eq_or_imp]
    constructor
    · rintro ⟨⟨h1, h2⟩, h3, h4⟩
      exact ⟨⟨fun d hd => by have := (h4 d hd).1; omega, h3⟩, ⟨h1, h2⟩, fun d hd => ⟨by have := (h4 d hd).1; omega, (h4 d hd).2⟩⟩
    · rintro ⟨⟨h1, h2⟩, ⟨h3, h4⟩, h5⟩
      exact ⟨⟨h3, h4⟩, h2, fun d hd => ⟨by have := h1 d hd; omega, (h5 d hd).2⟩⟩
theorem wf_iff (m : List Host.Cell) : Memory.wf m = true ↔ m.Pairwise (fun c d => c.1 < d.1) ∧ ∀ c ∈ m, c.2 ≠ 0 := by
  simp [Memory.wf, memSorted_iff]

/-- The cells of some bytes rise within their range and hold no 0. -/
theorem cellsOf_sorted (bs : Bytes) (a : Nat) :
    (cellsOf a bs).Pairwise (fun c d => c.1 < d.1) ∧ ∀ c ∈ cellsOf a bs, a ≤ c.1 ∧ c.1 < a + bs.length ∧ c.2 ≠ 0 := by
  induction bs generalizing a with
  | nil => simp [cellsOf]
  | cons b r ih =>
    obtain ⟨h1, h2⟩ := ih (a + 1)
    have h3 : ∀ c ∈ cellsOf (a + 1) r, a < c.1 ∧ a ≤ c.1 ∧ c.1 < a + (r.length + 1) ∧ c.2 ≠ 0 := fun c hc => by
      obtain ⟨x, y, z⟩ := h2 c hc; exact ⟨by omega, by omega, by omega, z⟩
    unfold cellsOf; split
    · exact ⟨h1, fun c hc => (h3 c hc).2⟩
    · rename_i hb
      simp only [List.pairwise_cons, List.mem_cons, forall_eq_or_imp, List.length_cons]
      exact ⟨⟨fun c hc => (h3 c hc).1, h1⟩, ⟨Nat.le_refl _, by omega, hb⟩, fun c hc => (h3 c hc).2⟩

/-- A store keeps the canonical form. -/
theorem wf_memPut {m : List Host.Cell} (h : Memory.wf m = true) (a : Nat) (bs : Bytes) : Memory.wf (memPut m a bs) = true := by
  rw [wf_iff] at h ⊢
  obtain ⟨c1, c2⟩ := cellsOf_sorted bs a
  simp only [memPut, List.pairwise_append, List.mem_append, List.mem_filter, decide_eq_true_eq]
  refine ⟨⟨⟨h.1.filter _, c1, fun c hc d hd => ?_⟩, h.1.filter _, ?_⟩, ?_⟩
  · have := (c2 d hd).1; omega
  · rintro c (hc | hc) d hd
    · omega
    · have := (c2 c hc).2.1; omega
  · rintro c ((hc | hc) | hc)
    · exact h.2 c hc.1
    · exact (c2 c hc).2.2
    · exact h.2 c hc.1
/-- A clearing keeps the canonical form. -/
theorem wf_memClear {m : List Host.Cell} (h : Memory.wf m = true) (a n : Nat) : Memory.wf (memClear m a n) = true := by
  rw [wf_iff] at h ⊢
  simp only [memClear, List.pairwise_append, List.mem_append, List.mem_filter, decide_eq_true_eq]
  refine ⟨⟨h.1.filter _, h.1.filter _, fun c hc d hd => ?_⟩, ?_⟩
  · omega
  · rintro c (hc | hc) <;> exact h.2 c hc.1

theorem find_none {m : List Host.Cell} {b : Nat} (h : ∀ c ∈ m, c.1 ≠ b) : m.find? (fun c => c.1 == b) = none := by
  rw [List.find?_eq_none]; intro c hc; simpa using h c hc
theorem find_filter {m : List Host.Cell} {b : Nat} {p : Host.Cell → Bool} (h : ∀ c : Host.Cell, c.1 = b → p c = true) :
    (m.filter p).find? (fun c => c.1 == b) = m.find? (fun c => c.1 == b) := by
  rw [List.find?_filter]; congr 1; funext c
  by_cases hc : c.1 = b
  · simp [hc, h c hc]
  · simp [hc]
theorem find_cellsOf (bs : Bytes) (a b : Nat) (h : a ≤ b) (h' : b < a + bs.length) :
    (((cellsOf a bs).find? (fun c => c.1 == b)).map (·.2)).getD 0 = bs.getD (b - a) 0 := by
  induction bs generalizing a with
  | nil => simp at h'; omega
  | cons x r ih =>
    by_cases e : b = a
    · subst e
      have hn : (cellsOf (b + 1) r).find? (fun c => c.1 == b) = none :=
        find_none fun c hc => by have := ((cellsOf_sorted r (b + 1)).2 c hc).1; omega
      unfold cellsOf; split
      · rw [hn]; simp_all
      · simp
    · have i := ih (a + 1) (by omega) (by simp at h'; omega)
      have e2 : b - a = b - (a + 1) + 1 := by omega
      unfold cellsOf; split
      · rw [i, e2]; simp
      · rw [List.find?_cons_of_neg (by simpa using fun q : a = b => e q.symm), i, e2]; simp

/-- What a byte reads after a store. -/
theorem memRead_memPut (m : List Host.Cell) (a b : Nat) (bs : Bytes) :
    memRead (memPut m a bs) b = if a ≤ b ∧ b < a + bs.length then bs.getD (b - a) 0 else memRead m b := by
  have cs := (cellsOf_sorted bs a).2
  unfold memRead memPut
  simp only [List.find?_append]
  split
  · rename_i h
    rw [find_none (m := m.filter _) fun c hc => by simp at hc; omega, Option.none_or]
    rw [find_none (m := m.filter _) fun c hc => by simp at hc; omega, Option.or_none, find_cellsOf bs a b h.1 h.2]
  · rename_i h
    rw [find_none (m := cellsOf a bs) fun c hc => by have := cs c hc; omega, Option.or_none]
    rcases Nat.lt_or_ge b a with hb | hb
    · rw [find_filter fun c hc => by simp; omega]
      cases hm : m.find? (fun c => c.1 == b) with
      | some c => simp
      | none => rw [Option.none_or, find_none fun c hc => by simp at hc; omega]
    · rw [find_none (m := m.filter _) fun c hc => by simp at hc; omega, Option.none_or, find_filter fun c hc => by simp; omega]
/-- What a byte reads after a clearing. -/
theorem memRead_memClear (m : List Host.Cell) (a n b : Nat) :
    memRead (memClear m a n) b = if a ≤ b ∧ b < a + n then 0 else memRead m b := by
  have e : memClear m a n = memPut m a (List.replicate n 0) := by
    have : ∀ n a, cellsOf a (List.replicate n (0 : Byte)) = [] := by
      intro n; induction n with
      | zero => intro a; rfl
      | succ n ih => intro a; rw [List.replicate_succ]; unfold cellsOf; rw [if_pos rfl]; exact ih _
    unfold memClear memPut
    rw [this, List.length_replicate, List.append_nil]
  rw [e, memRead_memPut]; simp only [List.length_replicate]; split
  · rename_i h; simp [List.getD_eq_getElem?_getD, show b - a < n by omega]
  · rfl
/-- What is stored reads back. -/
theorem memReadN_memPut (m : List Host.Cell) (a : Nat) (bs : Bytes) : memReadN (memPut m a bs) a bs.length = bs := by
  unfold memReadN
  apply List.ext_getElem
  · simp
  · intro i h1 h2
    simp [memRead_memPut, h2, List.getD_eq_getElem?_getD]

end Sys2Proof.Machine
end

