-- ==== Sys2Proof/Tests/Slice0.lean ====
section
/-! SUPPORT. Tests: ill-formed commands that the check refuses, words written out from the encodings, single commands with results
from the manual, and for each statement concrete states and operands that meet its hypotheses. -/

namespace Sys2Proof.Tests
open Sys2Proof Sys2Proof.Machine

set_option maxRecDepth 20000
set_option Elab.async false

/-! ### Well-formedness -/

theorem test_ill_formed_ranges : ([.supplyMonitorCrossing (.vlfValid 4) 0, .supplyMonitorCrossing (.vlfOv 4) 0, .overvoltageTrip 5 0,
    .railFault 5 0, .seqGapHoldoffEnd false 8, .ctlResend false 0 256 0, .isotpConsecutiveFrame false 16 [], .lfDriveFault 0 0, .lfDriveFault 49 0,
    .lfDriveFault 1 8, .soundingChannelDone 49 ⟨0, 0, 0⟩ false false false, .autoSounding 0, .keepFreshRefresh 16 250, .locatePoll 32 250,
    .rangingRoundStart 0 5, .reflectometryAuto 0, .reflectometryPortDone 5 0 0, .doorTimeout 16 false, .gpioPulseEnd 8, .releaseFrameTimeout 3,
    .confirmConversion 16 0, .baselineDrift 16, .maxTouchExpiry 16, .contactChange 0 false, .stuckTimeout 10, .canWake 3 none, .linWake 5,
    .linStatusPoll 0 1, .linStatus 5 1 [], .tamperTrip 12, .tamperHoldEnd 12, .tamperSensorClear 12] : List Instr).all (fun i => !i.wf) = true := by
  decide
theorem test_ill_formed_units : ([.rngStartupTestPass 0, .rngHealthFail 3 1, .rngHealthFail 1 4, .rngBlockReady 1 [], .reclaim 4 false, .pageEraseDone 64 true,
    .timerArm 24, .timerStop 24, .timerCompareWrite 24 0, .timerCaptureRead 24, .timerMatch 24 0 none, .timerEnd 24 0, .timerCapture 24 false 0,
    .registerWrite (.timer 24 0) 0, .registerWrite (.timer 0 2) 0, .registerWrite (.timer 0 0x20) 0, .registerWrite (.rng .cc 0x100) 0,
    .registerWrite (.fx 0x0C) 0, .registerWrite (.coreCtl 0x0C) 0, .registerWrite (.aes 0x18) 0, .slli .cc 1 1 32, .srli .ext 1 1 32,
    .srai .cc 1 1 (-1), .tret .ext, .idle .ext, .rdcause .ext 1, .rdtval .ext 1, .rdtpc .ext 1, .wrtpc .ext 1, .interrupt 256,
    .transmitRequest 16 1 0, .transmitRequest 0 0 0, .transmitRequest 0 9 0, .aesCmacDkey 4, .recordToHostRing 20, .signalLineFault 4 1 false,
    .busOff 0, .busRecovered 3, .busFault 6 1 false, .busFault 0 6 false] : List Instr).all (fun i => !i.wf) = true := by decide
/-- A command on lane 7 and one with a `TAG` beyond a byte (Table 5-5). -/
theorem test_ill_formed_mailbox : ([.hello, .caps, .ping, .secureOpen, .secureConfirm, .sysStatus, .powerRequest, .resetCause, .sysReset,
    .paramGet, .paramSet, .strandedExit, .faultList, fun m => .lfBurst m 250, .lfChannelStatus, fun m => .lfChannelEnable m 0, .lfSounding, .zoneWrite, .zoneRead,
    .synthGroupWrite, .couplingRead, .zoneState, .tokenLearn, .tokenRevoke, .tokenRead, .uwbPortStatus, .uwbReflectometry, .rangingStatus,
    .pathStart, .sessionEnd, .sessionStatus, .transponderStart, .startWithdraw, .doorMapWrite, .radioStatus, .powerTableWrite,
    .regRecordWrite, .regRecordRead, .radioCalRun, fun m => .radioTestTx m 250, .senseStatus, .wakeMapWrite, .contactStatus, .senseRebase, .evtFetch,
    .logRead, .logCheckpoint, .storeStatus, .stageWrite, .fwActivate, .grantApply, .attest, .objectRead, .tamperStatus, .tamperMapWrite,
    .pairStatus, .pairSwitchover, .pairAdmit, .pluginLoad, .pluginUnload, .extStatus, .soundingRun, .erosionRead, .busStatus, .gpioConfig,
    .gpioWrite, .gpioRead] : List (MbxCmd → Instr)).all (fun f => !(f ⟨false, 7, 0, []⟩).wf && !(f ⟨false, 0, 256, []⟩).wf &&
      (f ⟨true, 6, 255, []⟩).wf) = true := by decide
theorem test_well_formed : ([.supplyMonitorCrossing (.vlfValid 3) 0, .lfDriveFault 48 7, .locatePoll 31 250, .timerArm 23, .slli .ext 1 1 31,
    .tret .cc, .interrupt 255, .transmitRequest 15 8 0, .registerWrite (.aes 0x14) 0, .busFault 5 5 true] : List Instr).all Instr.wf = true := by
  decide

/-! ### Words of the cores (Tables 18-2 to 18-5) -/

theorem test_words : auhamWord (.addi .cc 1 2 3) = some 0b00001_00010_0000000000000011_000100#32 ∧
    auhamWord (.srai .ext 31 30 31) = some 0b11111_11110_0000000000011111_001100#32 ∧
    auhamWord (.movu .cc 4 0x10000) = some 0b00100_000010000000000000000_010000#32 ∧
    auhamWord (.lb .ext 5 6 0xFFFF) = some 0b00101_00110_1111111111111111_010100#32 ∧
    auhamWord (.sw .cc 7 8 4 0) = some 0b00111_01000_0000000000000100_011110#32 ∧
    auhamWord (.bgeu .ext 9 10 0x8000) = some 0b01001_01010_1000000000000000_100101#32 ∧
    auhamWord (.jlnkr .cc 0 1 0) = some 0b00000_00001_0000000000000000_101001#32 ∧
    auhamWord (.subsat .ext 3 4 5) = some 0b00011_00100_00101_00000010001_000001#32 ∧
    auhamWord (.remu .cc 3 4 5) = some 0b00011_00100_00101_00000101011_000001#32 ∧
    auhamWord (.rdcycleh .ext 2) = some 0b00010_00000_00000_00000010111_110000#32 := by decide
theorem test_no_word_of_the_table : decodeTableWord 32 0 = none ∧ auhamWord .firmwareStart = none ∧ auhamCore .firmwareStart = none := by decide
/-- Two different well-formed instructions with words, as the statement about words asks. -/
theorem witness_words : auhamWord (.neg .cc 1 2) ≠ none ∧ auhamWord (.tret .cc) ≠ none ∧ (Instr.neg .cc 1 2).wf = true ∧ (Instr.tret .cc).wf = true ∧
    auhamCore (.tret .cc) = some .cc := by decide

/-! ### States -/

/-- A single part in Flood with its mailbox open. -/
def ready : State :=
  (State.reset.onPwr (fun p => { p with state := .flood, phase := .ready, vbatValid := true, vbatFull := true })
    |>.onPwr (fun p => { p with vrelValid := true, vddioValid := true, vlfValid := [true, true, true, true] })
    |>.onClk (fun c => { c with xtal26 := true })
    |>.onBox false (fun b => { b with linked := true, ifv := 0x21, chan := some {} }))
/-- A command on lane 0 of the pair mailbox. -/
def cmd (p : Bytes) : MbxCmd := ⟨false, 0, 1, p⟩
/-- The command begins, on lane 6 where Table 5-10 asks for it, and what it runs in meets `q`. -/
def begins (op : Nat) (p : Bytes) (s : State) (q : CmdRef → State → Bool) : Bool :=
  match begun op { cmd p with lane := if op / 256 = 6 then 6 else 0 } s with | some (r, u) => q r u | none => false
/-- The outcome is a next state that meets `q`. -/
def gives (o : Host.Outcome State Fault Refusal) (q : State → Bool) : Bool := match o with | .next t => q t | _ => false

/-- `ready` with the plug-in in slot 0 running: code at 0x1000, data at 0x8000. -/
def invoked : State :=
  { ready with xc := { ready.xc with stopped := false, pc := 0x1000, mem := [(0x18001, 0x80)] } }
    |> onCore .ext (fun k => (((k.put 5 7).put 6 0xFFFFFFFF).put 7 0x80000000).put 8 0x18000)
    |>.onExt (fun e => { e with cur := some { slot := 0 } })
    |>.onExt (fun e => { e with slots := e.slots.set 0 { state := 1, codeBase := 0x1000, codeSize := 64, dataBase := 0x8000, dataSize := 64 } })
/-- A running control complex. -/
def running_cc : State := { ready with cc := { ready.cc with regs := ready.cc.regs.set 8 0x101, pc := 0x1000 } }

/-! ### Machine -/

theorem witness_step : ({ ready with pending := [Instr.timerArm 0] } : State).pending = [Instr.timerArm 0] ∧ ready.pending = [] := by decide
theorem witness_off : State.reset.pwr.state = .off ∧ State.reset.pwr.phase = .none ∧ State.reset.pwr.ride = none ∧ State.reset.pwr.neapEntry = false ∧
    State.reset.pwr.neapAfter = false ∧ State.reset.pending = [] := by decide
theorem witness_off_step : (match step { State.reset with pending := [Instr.spiCsAssert true] } with | .next _ => true | _ => false) = true := by decide
theorem witness_core_form : (auhamWord (.lw .ext 1 2 0 0)).isSome = true ∧ Memory.wf invoked.cc.mem = true ∧ Memory.wf invoked.xc.mem = true ∧
    invoked.xc.pc.toNat % 4 = 0 := by decide
theorem witness_core_form_step : gives (step { invoked with pending := [Instr.lw .ext 1 8 0 0] }) (fun t => t.xc.get 1 == 0x8000) = true := by decide

/-! ### The cores -/

theorem witness_boundary : atBoundary .ext invoked = true := by decide
/-- The control complex stands at a boundary where its MPU, which the manual leaves open, admits the fetch. -/
theorem witness_boundary_cc (h : ∀ k a, Config.ccAdmits k a = true) : atBoundary .cc running_cc = true ∧ running_cc.cc.trap = false := by
  refine ⟨?_, by decide⟩
  have e : (coreRuns running_cc .cc && (!running_cc.cc.ie || running_cc.cc.irq.isEmpty)) = true := by decide
  simp only [Bool.and_eq_true] at e
  simp [atBoundary, e.1, e.2, admits, h]
theorem test_add : gives (exec (.add .ext 1 5 6 0) invoked) (fun t => t.xc.get 1 == 6 && t.xc.pc == 0x1004 && t.xc.cycle == 1) = true := by decide
theorem test_g0 : gives (exec (.add .ext 0 5 5 0) invoked) (fun t => t.xc.get 0 == 0 && t.xc.pc == 0x1004) = true := by decide
theorem test_srai : gives (exec (.srai .ext 1 7 31) invoked) (fun t => t.xc.get 1 == 0xFFFFFFFF) = true := by decide
theorem test_mulhs : gives (exec (.mulhs .ext 1 6 6) invoked) (fun t => t.xc.get 1 == 0) = true := by decide
theorem test_mulhu : gives (exec (.mulhu .ext 1 6 6) invoked) (fun t => t.xc.get 1 == 0xFFFFFFFE) = true := by decide
/-- R406: a saturated sum sets SAT. -/
theorem test_addsat : gives (exec (.addsat .ext 1 7 7) invoked) (fun t => t.xc.get 1 == 0x80000000 && t.xc.sat) = true := by decide
/-- R406: division by 0, and the most negative dividend by -1. -/
theorem test_divs : gives (exec (.divs .ext 1 5 0) invoked) (fun t => t.xc.get 1 == 0xFFFFFFFF && t.xc.dz) = true ∧
    gives (exec (.divs .ext 1 7 6) invoked) (fun t => t.xc.get 1 == 0x80000000 && t.xc.ov) = true := by decide
theorem test_rems : gives (exec (.rems .ext 1 6 5) invoked) (fun t => t.xc.get 1 == 0xFFFFFFFF) = true := by decide
theorem witness_saturate_divide : invoked.xc.get 0 = 0 ∧ invoked.xc.get 5 ≠ 0 ∧ invoked.xc.get 7 = 0x80000000 ∧ invoked.xc.get 6 = -1 := by decide
theorem test_blt : gives (exec (.blt .ext 6 5 (-1)) invoked) (fun t => t.xc.pc == 0xFFC) = true := by decide
theorem test_bltu : gives (exec (.bltu .ext 6 5 (-1)) invoked) (fun t => t.xc.pc == 0x1004) = true := by decide
theorem test_jlnkr : gives (exec (.jlnkr .ext 1 8 4) invoked) (fun t => t.xc.pc == 0x18004 && t.xc.get 1 == 0x1004) = true := by decide
theorem witness_jlnkr : (invoked.xc.get 8 + 4).toNat % 4 = 0 := by decide
/-- R408: the low byte lies at the lower address; LB extends its sign. -/
theorem test_loads : gives (exec (.lb .ext 1 8 1) invoked) (fun t => t.xc.get 1 == 0xFFFFFF80) = true ∧
    gives (exec (.lhu .ext 1 8 0) invoked) (fun t => t.xc.get 1 == 0x8000) = true := by decide
theorem test_store : gives (exec (.sh .ext 6 8 2) invoked) (fun t => t.xc.mem == [(0x18001, 0x80), (0x18002, 0xFF), (0x18003, 0xFF)]) = true := by decide
/-- The first and the last word of the working memory take a load and a store. -/
theorem witness_memory : [0x18000, 0x1FFFC].all (fun a => a % 4 = 0 && admits invoked .ext 1 a 4 && admits invoked .ext 2 a 4 && extMemOk invoked 1 a 4 &&
    extMemOk invoked 2 a 4) = true := by decide
theorem test_srvc : gives (exec (.srvc .ext) invoked) (fun t => t.ext.cur == none && t.xc.tcause == 5 && t.xc.tpc == 0x1004) = true := by decide
theorem witness_brkpt : (match ({ invoked with sec := { invoked.sec with service := some (1, 1) } } : State).sec.service with
    | some g => bitSet g.2 0 | none => false) = true ∧
    atBoundary .ext { invoked with sec := { invoked.sec with service := some (1, 1) } } = true := by decide
theorem test_wrstatus : gives (exec (.wrstatus .ext 6) invoked) (fun t => astatus .ext t.xc == 0x47) = true := by decide
theorem witness_tret : running_cc.cc.tpc.toNat % 4 = 0 := by decide
theorem witness_misaligned : (running_cc.cc.get 8 + (BitVec.signExtend 32 (0 : BitVec 16))).toNat % 2 ≠ 0 ∧
    (running_cc.cc.get 8 + (BitVec.signExtend 32 (1 : BitVec 16))).toNat % 4 ≠ 0 := by decide
theorem witness_illegal : auhamLegal .cc 0 = false ∧ auhamLegal .ext 0xB0 = false := by decide
theorem witness_interrupts : coreRuns { running_cc with cc := { running_cc.cc with idle := false } } .cc = true ∧
    coreRuns { running_cc with cc := { running_cc.cc with idle := false, ie := true } } .cc = true ∧ running_cc.cc.ie = false ∧ running_cc.cc.irq = [] := by
  decide
theorem test_interrupt : gives (exec (.interrupt 5) { running_cc with cc := { running_cc.cc with ie := true } }) (fun t =>
    t.cc.tcause == 0x80000005 && t.cc.tpc == 0x1000 && !t.cc.ie) = true := by decide
theorem witness_register_write : started ready = true ∧ ready.pwr.state ≠ .neap := by decide

/-! ### Classes, lengths, reads -/

/-- An LF_BURST that drives channel 1 for 10 ms. -/
def oneBurst : Bytes := [1, 0, 0, 10, 0, 0, 0, 0] ++ zeroBytes 12 ++ [1, 9, 0, 0]
/-- In Slack a command of class T begins in Flood, with bad fields in Slack; one of class X is refused there in PROVISIONED. -/
theorem witness_classes : (let s := { ready with pwr := { ready.pwr with state := .slack } }
     (takeCmd 0x0200 (cmd oneBurst) s).1.isSome = true ∧ begins 0x0200 oneBurst s (fun _ u => u.pwr.state == .flood) = true ∧
     begins 0x0200 [] s (fun _ u => u.pwr.state == .slack) = true) ∧
    (takeCmd 0x0705 (cmd []) ready).1.isSome = true ∧ classAdmits false 0x0705 (takeCmd 0x0705 (cmd []) ready).2 = false ∧
    opClass 0x0200 = some .T ∧ formOk 0x0200 oneBurst ready = true ∧ formOk 0x0200 [] ready = false := by decide
theorem test_not_in_state : gives (exec (.radioTestTx (cmd []) 250) ready) (fun t => t.mbx.out.map (·.payload) == [[byte stNotInState, 0]]) = true := by decide
theorem test_bad_length : gives (exec (.sysStatus (cmd [0])) ready) (fun t => t.mbx.out.map (·.payload) == [[byte stBadLength, 0]]) = true := by decide
theorem witness_fixed_lengths : begins 0x0100 [0] ready (fun _ _ => true) = true := by decide
/-- The LF carrier is frozen while a burst is sent (R26, Table 6-3). -/
theorem witness_frozen : begins 0x0105 [1, 0, 0, 0, 0x01, 0x02, 0, 0, 0, 0, 0x81, 0] { ready with lf := { ready.lf with cur := some {} } } (fun _ u =>
      paramEntries [1, 0, 0, 0, 0x01, 0x02, 0, 0, 0, 0, 0x81, 0] 1 == [(0x0201, 0x810000)] && valueOk 0x0201 0x810000 && decide (pBound 0x0201 ≠ .reset) &&
      isFrozen 0x0201 && waitingParams u == [] && boundRuns u (pBound 0x0201) && standOk u (pSet u.par.written 0x0201 0x810000) && lifecycle u != .field) = true := by decide

/-! ### Timers -/

/-- T3 counts from 5 to 9. -/
def counting : State := onTimer 3 (fun t => { t with run := true, count := 5, compare := 9 }) ready
theorem witness_timer_match : (timer counting 3).run = true ∧ timerFrozen counting 3 (timer counting 3) = false ∧ coreClock counting = true ∧
    (timer counting 3).count.toNat ≤ (timer counting 3).compare.toNat ∧ 3 < counting.timers.length ∧ linkAction (timer counting 3) = 0 ∧
    (timer counting 3).ctrl.toNat / 256 % 16 ≠ 13 := by decide
theorem witness_timer_end : let s := onTimer 3 (fun t => { t with compare := 4 }) counting
    (timer s 3).run = true ∧ (timer s 3).compare.toNat < (timer s 3).count.toNat ∧ timerFrozen s 3 (timer s 3) = false := by decide
theorem witness_timer_both : let s := onTimer 23 (fun t => { t with run := true, compare := 0xFFFFFFFF }) ready
    (timer s 23).run = true ∧ (timer s 23).compare = 0xFFFFFFFF ∧ timerFrozen s 23 (timer s 23) = false ∧ 23 < s.timers.length := by decide
/-- Capture sources 1 and 13, and 11 on the extension core's first timer. -/
theorem witness_timer_capture : [(0, 1), (0, 13), (16, 11)].all (fun x =>
    let s := onTimer x.1 (fun t => { t with ctrl := BitVec.ofNat 32 (256 * x.2) }) ready
    decide (1 ≤ (timer s x.1).ctrl.toNat / 256 % 16 ∧ (timer s x.1).ctrl.toNat / 256 % 16 ≤ 13 ∧
      ¬((timer s x.1).ctrl.toNat / 256 % 16 = 11 ∧ x.1 < 16))) = true := by decide
theorem test_timer_match : gives (exec (.timerMatch 3 0 none) counting) (fun t => (timer t 3).matched && !(timer t 3).run && (timer t 3).count == 9) = true := by decide
theorem test_timer_end : gives (exec (.timerEnd 3 0) (onTimer 3 (fun t => { t with compare := 4 }) counting)) (fun t =>
    (timer t 3).ended && (timer t 3).count == 0xFFFFFFFF && !(timer t 3).matched) = true := by decide

/-! ### Power and clocks -/

/-- A part at a step of its start-up. -/
def starting (p : Phase) : State := State.reset.onPwr (fun x => { x with state := .startup, phase := p })
/-- The supplies' edges: 5.000 V and 1.620 V start the part. -/
theorem witness_power_on : State.reset.pwr.state = .off ∧ 5000 ≤ 5000 ∧ 1620 ≤ 1620 := by decide
theorem test_power_on : gives (exec (.powerOn 5000 1620) State.reset) (fun t => t.pwr.state == .startup && t.pwr.faultN) = true ∧
    gives (exec (.powerOn 4999 1620) State.reset) (fun t => t.pwr.state == .off) = true := by decide
theorem witness_start_up : (let s := fun p => (starting p).onPwr (fun p => { p with vbatValid := true, vddioValid := true })
     (s .supplied).pwr.phase = .supplied ∧ (s .rails).pwr.phase = .rails ∧ (s .rails).pwr.vbatValid = true ∧ (s .rails).pwr.vddioValid = true) ∧
    (starting .rails).pwr.vbatValid = false ∧ lifecycle (starting .rails) ≠ .factory ∧
    (starting .rom).pwr.phase = .rom ∧ (starting .rom).pwr.recovery = false ∧
    ((starting .rom).onPwr (fun p => { p with recovery := true })).pwr.recovery = true ∧ (starting .firmware).pwr.phase = .firmware ∧
    lifecycle { starting .rails with store := { pages := [], recs := [{ type := 1, key := 0, a := some ⟨1, 32, [1, 0, 0, 0]⟩, b := some ⟨1, 46, [1, 0, 0, 0]⟩ }] } } =
      .factory := by decide
/-- R42: in FACTORY scan test leaves the part released and running. -/
theorem test_scan_test : gives (exec (.resetRelease true false false true 0)
    { (starting .rails).onPwr (fun p => { p with vbatValid := true, vddioValid := true }) with
        store := { pages := [], recs := [{ type := 1, key := 0, a := some ⟨1, 32, [1, 0, 0, 0]⟩, b := some ⟨1, 46, [1, 0, 0, 0]⟩ }] } }) (fun t =>
    t.pwr.phase == .rom && t.pwr.scanTest) = true := by decide
theorem witness_holdup : let s := (starting .firmware).onPwr (fun p => { p with charger := true })
    s.pwr.phase ≠ .none ∧ s.pwr.charger = true ∧ s.pwr.hold = none ∧ s.pwr.holdBusy = false ∧ s.pwr.holdSkip = false ∧
    (s.onPwr (fun p => { p with holdBusy := true })).pwr.holdBusy = true := by decide
theorem witness_monitors : ready.pwr.vbatFull = true ∧ (starting .rom).pwr.vbatFull = false ∧ 3 < ready.pwr.vlfValid.length ∧
    ready.pwr.vlfValid.getD 3 false = true ∧ ready.pwr.vrelValid = true ∧ ready.pwr.vddioValid = true ∧
    (ready.onPwr (fun p => { p with vbatOv := true })).pwr.vbatOv = true ∧ ready.pwr.vbatOv = false ∧ ready.lf.cur = none ∧
    (starting .rom).pwr.state ≠ .neap ∧ (starting .rom).pwr.phase ≠ .supplied ∧ bitSet (starting .rom).pwr.railBad 4 = false := by decide
/-- 0 mV lies outside every rail's limits. -/
theorem witness_rails : [0, 1, 2, 3, 4].all (fun r => match railLimits[r]? with | some (lo, hi) => decide (¬(lo ≤ 0 ∧ 0 ≤ hi) ∧ lo ≤ hi) | none => false) = true := by
  decide
theorem test_monitor : gives (exec (.supplyMonitorCrossing .vbatFull 5899) ready) (fun t => !t.pwr.vbatFull) = true ∧
    gives (exec (.supplyMonitorCrossing .vbatFull 5900) ready) (fun t => t.pwr.vbatFull) = true := by decide
/-- A part in Slack with nothing to do and a charged holdup capacitor. -/
def quiet : State := ready.onPwr (fun p => { p with state := .slack, vhold := 15000, hostRdy := true })
theorem witness_loss : ((starting .supplied).onPwr (fun p => { p with vbatValid := true })).pwr.vbatValid = true ∧ (starting .rails).pwr.vbatValid = false ∧
    (starting .rails).pwr.ride = none ∧ ((starting .rails).onPwr (fun p => { p with shutdown := true })).pwr.shutdown = true ∧
    (ready.onPwr (fun p => { p with ride := some 0 })).pwr.ride ≠ none ∧
    (let s := fun v => quiet.onPwr (fun p => { p with vbatValid := false, ride := some 0, vhold := v })
     (s 15000).pwr.ride = some 0 ∧ (s 15000).clk.mono < 0 + 1000 * param (s 15000) 0x0104 ∧ 8000 < eUsable (s 15000) ∧ eUsable (s 5000) ≤ 8000) := by decide
theorem witness_resets : ready.pwr.state ≠ .off ∧ ready.pwr.shutdown = false ∧ ready.pwr.phase ≠ .supplied ∧ ready.pwr.phase ≠ .none ∧
    (ready.onPwr (fun p => { p with resetAfter := true })).pwr.resetAfter = true ∧ ready.mbx.out = [] ∧ ready.mbx.outPri = [] ∧ ready.mmb.out = [] ∧
    ready.mmb.outPri = [] ∧ started ready = true ∧ ({ ready with lf := { ready.lf with cur := some {} } } : State).lf.cur ≠ none := by decide
/-- RESET_N must be low for 2 microseconds. -/
theorem test_reset_n : gives (exec (.resetNAssert 2) ready) (fun t => t.pwr.phase == .rails && t.pwr.cause == 1) = true ∧
    gives (exec (.resetNAssert 1) ready) (fun t => t.pwr.phase == .ready) = true := by decide
theorem witness_idle : awake ready = true ∧ ready.pwr.state = .flood ∧ floodIdle ready = true ∧ riding ready = false ∧ awake quiet = true ∧
    quiet.pwr.state = .slack ∧ quiet.pwr.neapEntry = false ∧ neapReady none quiet = true ∧
    (quiet.onPwr (fun p => { p with neapEntry := true })).pwr.neapEntry = true ∧ started quiet = true ∧ ready.pwr.hostRdy = false ∧
    transport ready = 0 ∧ started ready = true ∧ neapReady none ready = false := by decide
theorem witness_wake : let s := (quiet.onPwr (fun p => { p with state := .neap })).onClk (fun c => { c with wakeEdge := some 100 })
    s.clk.wakeEdge = some 100 ∧ s.pwr.state = .neap := by decide
theorem witness_crystals : ready.clk.xtal26 = true ∧ started ready = true ∧ ready.pwr.state ≠ .neap ∧ coreClock ready = true ∧ State.reset.clk.xtal26 = false ∧
    (ready.onClk (fun c => { c with xtal26 := false })).clk.xtal26 = false ∧
    (ready.onClk (fun c => { c with xtal32 := .qualifying })).clk.xtal32 = .qualifying ∧ (ready.onClk (fun c => { c with xtal32 := .qualified })).clk.xtal32 = .qualified ∧
    awake ready = true := by decide
theorem witness_tide : let s := ready.onClk (fun c => { c with corrDue := true, slew := 1 })
    s.clk.corrDue = true ∧ running s = true ∧ s.clk.slew ≠ 0 ∧ ready.clk.slew = 0 ∧ ready.bus.canTx = [] ∧ 0 < tide (ready.onClk (fun c => { c with base := 1 })) ∧
    2 < ready.evt.queues.length ∧ (ready.evt.queues.getD 2 []).length < 15 := by decide
/-- R81: 131072 edges whose period rose by one unit of 2^-16 us over the stay are one microsecond more; a fall slews. -/
theorem test_tide : let s := ready.onClk (fun c => { c with corrDue := true, edges := 131072, pBefore := 2000000 })
    gives (exec (.tideCorrection 2000001) s) (fun t => t.clk.offset == 1 && t.clk.slew == 0) = true ∧
    gives (exec (.tideCorrection 1999999) s) (fun t => t.clk.offset == 0 && t.clk.slew == 1) = true := by decide

/-- Every phase, and a burst, a transmission and a transponder path at work on the balls. -/
theorem witness_balls : State.reset.pwr.phase = .none ∧ [Phase.supplied, .rails, .rom, .firmware].all (fun p => (starting p).pwr.phase == p) = true ∧ ready.pwr.phase = .ready ∧
    ball (.lf 1) { ready with lf := { ready.lf with soundMask := 1 } } = .working ∧
    ball (.tp 2) { ready with path := some { req := { kind := .transponder, port := 2 }, step := .tpCharge } } = .working ∧
    ball .startA (ready.onRel (fun r => { r with startA := true })) = .high := by decide

/-! ### Mailbox -/

theorem witness_link : begins 0x0001 [] ready (fun _ _ => true) = true ∧ begins 0x0002 [] ready (fun _ _ => true) = true ∧
    begins 0x0003 [1, 2] ready (fun _ _ => true) = true := by decide
theorem witness_hello_first : begins 0x0001 [] (ready.onBox false (fun b => { b with linked := false, chan := none })) (fun _ _ => true) = true := by decide
/-- `ready` with an instantiated DRBG. -/
def random : State := ready.onRng (fun r => { r with drbg := some { key := List.replicate 32 1, v := 0, counter := 1 } })
theorem witness_secure_open : begins 0x0010 (List.replicate 32 0) random (fun r u => (u.box r.member).storm.all (fun t => decide (t + 1000000 ≤ now u)) && (vaultKey u 1).isSome && !pinnedBusy u &&
    u.rng.fatal.isNone && !u.rng.latchedFatal && (draw .nonce 32 u).1.isSome) = true := by decide
theorem witness_secure_confirm : begins 0x0011 (List.replicate 16 0) (ready.onBox false (fun b => { b with pending := some {} })) (fun r u =>
    match (u.box r.member).pending with | some o => !o.confirmed | none => false) = true := by decide
theorem witness_system_commands : begins 0x0101 [1, 0, 0, 0] quiet (fun r u => awake u && neapReady (some r) u) = true ∧
    begins 0x0102 [] ready (fun _ _ => true) = true ∧ begins 0x0103 [0x3C, 0x5A, 0xC3, 0xA5] ready (fun _ _ => true) = true ∧
    begins 0x0107 [] ready (fun _ u => u.flt.lost == 0) = true ∧
    begins 0x0106 [] (ready.onPwr (fun p => { p with state := .stranded })) (fun _ u => u.pwr.state == .stranded && !f3Active u && u.flt.handling.isNone &&
      (u.sec.reads &&& u.pwr.strandedBy) == 0 && u.pwr.vbatValid && !u.pwr.persistWanted) = true := by decide
/-- One parameter and 31, the most that version 2.1 reads at once. -/
theorem witness_param_get : begins 0x0104 [1, 0, 0x02, 0x02] ready (fun _ _ => (pRow 0x0202).isSome) = true ∧
    begins 0x0104 ([31, 0] ++ (List.replicate 31 [0x02, 0x02]).flatten) ready (fun _ _ => true) = true := by decide
theorem witness_param_set : begins 0x0105 [1, 0, 0, 0, 0x02, 0x02, 0, 0, 9, 0, 0, 0] ready (fun r u =>
      (paramCheck [1, 0, 0, 0, 0x02, 0x02, 0, 0, 9, 0, 0, 0] r u).isNone) = true ∧
    begins 0x0105 [1, 1, 0, 0, 0x02, 0x02, 0, 0, 9, 0, 0, 0] ready (fun r u =>
      (paramCheck [1, 1, 0, 0, 0x02, 0x02, 0, 0, 9, 0, 0, 0] r u).isNone && bitSet 1 0) = true := by decide
theorem test_param_set : gives (exec (.paramSet (cmd [1, 0, 0, 0, 0x02, 0x02, 0, 0, 9, 0, 0, 0])) ready) (fun t => param t 0x0202 == 9 && paramW t 0x0202 == 9) = true := by
  decide
/-- Before version 2.0 the pair mailbox fetches up to seven records; any other mailbox none. -/
theorem witness_evt_fetch : let s := ready.onBox false (fun b => { b with ifv := 0x12 })
    begins 0x0900 [7, 0, 0, 0] s (fun r u => r.member == eventBox u) = true ∧ begins 0x0900 [1, 0, 0, 0] s (fun r u => r.member == eventBox u) = true ∧
    begins 0x0900 [1, 0, 0, 0] (s.onPair (fun p => { p with role := .lee })) (fun r u => r.member != eventBox u) = true := by decide
theorem witness_trial : ({ ready with par := { ready.par with trial := some [] } } : State).par.trial = some [] ∧ started ready = true ∧ ready.pwr.state ≠ .neap ∧
    ready.store.queue = [] ∧ ready.store.cur = none ∧ ready.store.paused = [] := by decide

/-- `ready` with HOST_RDY_N asserted and a response to send. -/
def talking : State := (ready.onPwr (fun p => { p with hostRdy := true })).onBox false (fun b => { b with chan := none, out := [{ payload := [0, 0] }] })
/-- An empty command frame: version 2.1 of PING on lane 0. -/
def frame : Bytes := [1, 0, 7, 0x21, 3, 0, 0, 0, 0, 0, 0, 0] ++ le32 (crc32c [1, 0, 7, 0x21, 3, 0, 0, 0, 0, 0, 0, 0])
theorem witness_spi : spiServed false talking = true ∧ rxSpace false talking = true ∧ lengthOk (talking.box false) frame = true ∧ 16 ≤ frame.length ∧
    rxSpace false (talking.onBox false (fun b => { b with rxBusy := [5, 6] })) = false ∧
    nextOut (talking.box false) = some { payload := [0, 0] } ∧ (frameBytes (talking.box false) { payload := [0, 0] }).length = 18 := by decide
/-- 21 bytes clocked take the frame, 20 leave it. -/
theorem test_spi_read : gives (exec (.spiReadFrame false 21) talking) (fun t => (nextOut (t.box false)).isNone) = true ∧
    gives (exec (.spiReadFrame false 20) talking) (fun t => (nextOut (t.box false)).isSome) = true := by decide
theorem witness_control : running ready = true ∧ (ready.box false).linked = true ∧ 0x20 ≤ (ready.box false).ifv ∧ (ready.box false).rx.getD 8 0 ≤ 0 ∧
    (ready.box false).rx.getD 8 0 ≤ 0xFFFFFFFE ∧ 0 < (ready.onBox false (fun b => { b with rx := b.rx.set 8 1 })).mbx.rx.getD 8 0 ∧
    ((ready.onBox false (fun b => { b with pending := some {} })).box false).pending = some {} ∧ ({} : PendingOpen).confirmed = false ∧
    ((ready.onBox false (fun b => { b with gapHold := b.gapHold.set 7 (some 0), storm := some 0 })).box false).gapHold.getD 7 none = some 0 ∧
    ((ready.onBox false (fun b => { b with storm := some 0 })).box false).storm = some 0 ∧ (ready.box false).gapHold.getD 7 none = none ∧
    (ready.box false).storm = none ∧ true ≠ eventBox ready ∧ false = eventBox ready := by decide
theorem witness_held : let s := ready.onBox false (fun b => { b with held := b.held.set 5 [{ lane := 5, seq := 3 }, { lane := 5, seq := 4 }] })
    (∀ f ∈ (s.box false).held.getD 5 [], f.lane = 5) ∧ (((s.box false).held.getD 5 []).head?.map (·.seq)) = some 3 ∧ (s.box false).held.getD 5 [] ≠ [] := by
  decide
theorem witness_inbound : let b := talking.box false
    16 ≤ frame.length ∧ lengthOk b frame = true ∧ crc32c (frame.take 12 ++ slice frame 16 (u16 frame 6)) = u32 frame 12 ∧ b.chan = none ∧ b.linked = true ∧
    u8 frame 0 = 1 ∧ u8 frame 1 < 7 ∧ ¬(u8 frame 1 = 0 ∧ u16 frame 4 = 1) ∧ u32 frame 8 = b.rx.getD (u8 frame 1) 0 ∧ u8 frame 3 = b.ifv ∧
    acceptCheck false 0 (u8 frame 1) (u8 frame 2) (u16 frame 4) talking = none := by decide
/-- Table 5-7's first checks: a short frame, a false length, a false CRC. -/
theorem witness_inbound_errors : (frame.take 15).length < 16 ∧ lengthOk (talking.box false) (frame ++ [0]) = false ∧
    lengthOk (talking.box false) (frame.take 12 ++ [0, 0, 0, 0]) = true ∧
    crc32c ((frame.take 12 ++ [0, 0, 0, 0]).take 12) ≠ u32 (frame.take 12 ++ [0, 0, 0, 0]) 12 := by decide
/-- The check value of CRC-32C for 123456789. -/
theorem test_crc32c : crc32c [0x31, 0x32, 0x33, 0x34, 0x35, 0x36, 0x37, 0x38, 0x39] = 0xE3069283 := by decide
/-- `ready` on the CAN transport. -/
def onCanBus : State := { ready with par := { written := [(1, 1)], active := [(1, 1)] } }.onBus (fun b => { b with bus := modAt b.bus 0 (fun x => { x with state := 1 }) })
theorem witness_iso_tp : canServed false onCanBus = true ∧ rxSpace false onCanBus = true ∧
    rxSpace false (onCanBus.onBox false (fun b => { b with rxBusy := [5, 6] })) = false ∧
    ((onCanBus.onBox false (fun b => { b with isoRx := some { len := 100, got := [1] } })).box false).isoRx = some { len := 100, got := [1] } ∧
    ((onCanBus.onBox false (fun b => { b with isoTx := some {} })).box false).isoTx = some {} ∧ ({} : IsoTx).left = none ∧ ({} : IsoTx).rest.length ≤ 63 ∧
    ({ len := 100, got := [1], cts := true } : IsoRx).cts = true := by decide
/-- The wait timer with a free buffer, with none, and after eight waits. -/
theorem witness_iso_wait : let r : IsoRx := { len := 100, cts := false }
    r.cts = false ∧ r.waits < 8 ∧ 8 ≤ ({ r with waits := 8 } : IsoRx).waits ∧ (0 : Nat) % 16 ≠ r.nextSn ∧ 1 % 16 = r.nextSn ∧
    (r.got ++ [1, 2]).length < r.len ∧ ({ r with len := 2 } : IsoRx).len ≤ (r.got ++ [1, 2]).length := by decide

/-! ### Field, zones and tokens -/

/-- A stored record with both copies. -/
def stored (type key : Nat) (b : Bytes) (s : State) : State :=
  s.onStore (fun t => { t with recs := t.recs ++ [{ type := type, key := key, a := some ⟨1, 32, b⟩, b := some ⟨1, 46, b⟩ }] })
/-- A stored counter with both copies. -/
def counted (key n : Nat) (s : State) : State :=
  s.onStore (fun t => { t with ctrs := t.ctrs ++ [{ type := 0x8000, key := key, a := some ⟨1, 16, le32 n⟩, b := some ⟨1, 24, le32 n⟩ }] })
/-- A regulatory record with one channel at 868.3 MHz and full field amplitudes. -/
def regulatory : Bytes := [1, 1] ++ zeroBytes 6 ++ le32 360000 ++ le32 868300 ++ le16 100 ++ le16 1 ++ zeroBytes 56 ++ [1] ++ zeroBytes 287 ++ List.replicate 48 0xFF
/-- An all-zero token key wrapped under an all-zero TKEK. -/
def wrappedKey : Bytes := [0xb5, 0x95, 0xa1, 0xc0, 0xaf, 0xbe, 0x7a, 0x89, 0xce, 0x43, 0x80, 0x7c, 0xb3, 0xb2, 0xba, 0x57, 0x37, 0xff, 0x5d, 0x71, 0xd0, 0xa3, 0x5c, 0xd7]
/-- `random` with that record in effect, vehicle group 5, tone 1 in plan 0, an all-zero TKEK and token 3, whose ID is 7 and whose counter
is 10. -/
def outfit : State :=
  ({ random with par := { written := [(0x0402, 5), (0x0410, 1)], active := [(0x0402, 5), (0x0410, 1)] } } |>.onRad (fun r => { r with reg := some regulatory }) |>.onLf (fun l => { l with reg := some regulatory })
    |>.onSec (fun x => { x with vault := x.vault.set 5 { key := some (zeroBytes 32) } })
    |> stored 0x0030 3 ([3, 2, 3, 0] ++ le32 7 ++ wrappedKey) |> counted 3 10)
theorem witness_token : tokenOf outfit 7 = some 3 ∧ tokVersion outfit 3 = 3 ∧ tokCounter outfit 3 = 10 ∧ haveTokens outfit = true := by decide
theorem witness_lf_burst : begins 0x0200 oneBurst outfit (fun r u =>
    let v := cliffReads 250 u
    let brake := perUs (incOf v 0) (brakePer (incOf v 0))
    let b : Burst := { kind := .carrier, ref := some r, windows := [{ drives := burstDrives oneBurst }], durUs := 10000 + brake, brakeUs := brake,
                       energyUj := driveUj v (incOf v 0) (10000 + brake) (burstDrives oneBurst) }
    burstFieldsOk oneBurst && !hostLfBusy u && (lfCheck false (burstGroups b) b.energyUj b.durUs v).isNone && thermalOk v false b.energyUj) = true := by decide
/-- Channels 1 and 48. -/
theorem witness_lf_channel : begins 0x0201 [1, 0, 0, 0] outfit (fun _ _ => true) = true ∧ begins 0x0201 [48, 0, 0, 0] outfit (fun _ _ => true) = true ∧
    begins 0x0202 [48, 0, 0, 0] outfit (fun _ u => u.lf.cur.isNone) = true ∧
    begins 0x0202 [1, 1, 0, 0] { outfit with lf := { outfit.lf with cur := some {} } } (fun _ u => u.lf.cur.isSome) = true ∧
    [0, 2].all (fun mask => begins 0x0203 [1, 0, 0, 0, 0, 0, 0, 0] { outfit with lf := { outfit.lf with soundMask := mask, soundAuto := true } } (fun _ u =>
      !hostLfBusy u && (soundCheck ((bitsOf 48 1).map (· + 1)) u).isNone)) = true ∧
    begins 0x0203 [1, 0, 0, 0, 0, 0, 0, 1] outfit (fun _ _ => true) = true ∧ zeros [1, 0, 0, 0, 0, 0, 0, 1] 6 2 = false ∧
    begins 0x0202 [1, 1, 0, 0] { outfit with lf := { outfit.lf with soundMask := 2 } } (fun _ u => u.lf.soundMask != 0) = true ∧
    begins 0x0303 [48, 0, 0, 0] outfit (fun _ _ => true) = true := by decide
theorem test_lf_enable : gives (exec (.lfChannelEnable (cmd [48, 0, 0, 0]) 0) outfit) (fun t => (lfChan t 48).disabled && !(lfChan t 47).disabled) = true := by decide
theorem witness_burst_begin : let s := { outfit with lf := { outfit.lf with queued := some {} } }
    s.lf.cur = none ∧ s.pwr.state = .flood ∧ running s = true ∧ riding s = false ∧ s.clk.xtal26 = true ∧ s.pair.role ≠ .lee ∧ s.path = none ∧
    s.lf.soundMask = 0 ∧ s.lf.queued = some {} ∧ s.lf.commitDue = false ∧ s.paths = [] ∧
    lfCheck false (burstGroups {}) 0 0 (cliffReads 250 s) = none ∧ thermalOk (cliffReads 250 s) false 0 = true := by decide
/-- A burst that drives channel 48, asked for by a command. -/
def driving : State := { outfit with lf := { outfit.lf with cur := some { ref := some {}, durUs := 10000, carrier := carrierInc outfit, windows := [{ drives := [{ chan := 48, amp := 9 }] }] } } }
theorem witness_burst_end : (driving.lf.cur.bind (·.ref)).isSome = true ∧ 48 ≤ driving.lf.chans.length ∧
    bitSet (burstMask { ref := some {}, windows := [{ drives := [{ chan := 48, amp := 9 }] }] }) 47 = true ∧ driving.lf.cur.any (fun b => measures b 2000) = true := by decide
theorem test_drive_fault : gives (exec (.lfDriveFault 48 6) (driving.onClk (fun c => { c with base := 2000 }))) (fun t => (lfChan t 48).diag == 64) = true := by decide
/-- An automatic sounding of channel 2 runs, and one that a path has stopped. -/
def sounds (held : Bool) : State := { outfit with lf := { outfit.lf with soundMask := 2, soundHeld := held, valid := some ({}, []) } }
theorem witness_validation : (sounds true).lf.cur = none ∧ (sounds true).lf.soundHeld = true ∧ (sounds false).lf.soundMask ≠ 0 ∧ (sounds false).lf.soundHeld = false ∧ ({ outfit with lf := { outfit.lf with valid := some ({}, []) } } : State).lf.valid = some ({}, []) ∧ outfit.lf.cur = none ∧
    driving.lf.cur ≠ none := by decide
theorem witness_scan : awake outfit = true ∧ outfit.pair.role ≠ .lee ∧ lfIdle outfit = true ∧ awake driving = true ∧ driving.pair.role ≠ .lee ∧ lfIdle driving = false := by decide
/-- Table 7-8: a scan that fell due during the burst waits for the next interval. -/
theorem test_scan_waits : gives (exec (.offStateScan 0 0 0) (driving.onClk (fun c => { c with base := 1500000 }))) (fun t => t.lf.lastScan == 1000000) = true := by decide
theorem witness_sounding : let s := { outfit with lf := { outfit.lf with soundMask := 3 } }
    bitSet s.lf.soundMask 0 = true ∧ s.lf.cur = none ∧ s.pwr.state = .flood ∧ running s = true ∧ riding s = false ∧ s.clk.xtal26 = true ∧
    groupValid s (vlfGroup 1) = true ∧ s.path = none ∧ clrBit s.lf.soundMask 0 ≠ 0 := by decide
theorem witness_auto_sounding : let s := (onChan 48 (fun c => { c with diag := 1 }) outfit).onClk (fun c => { c with base := 50000 })
    s.pwr.state = .flood ∧ running s = true ∧ riding s = false ∧ s.clk.xtal26 = true ∧ lfIdle s = true ∧ s.path = none ∧ s.paths = [] ∧ s.soundRun = none ∧
    ((lfChan s 48).diag &&& 0xE9) ≠ 0 ∧
    bitSet (lfChan s 48).diag 5 = false ∧ (lfChan s 48).lastAuto = none ∧ s.lf.lastEnd + 50000 ≤ s.clk.base ∧ soundCheck [48] s = none := by decide
/-- Group 15: member 1, target 2 with a strength of 100. -/
def group15 : Bytes := [15, 1, 0, 0, 1] ++ zeroBytes 15 ++ [1, 0, 0, 0, 2, 1, 0, 0, 100, 0, 0, 0]
theorem witness_refresh : let s := stored 0x0021 15 group15 { outfit with par := { written := [(0x0205, 0x8000)], active := [(0x0205, 0x8000)] } }
    let v := cliffReads 250 s
    let mem := (remap v group15).filterMap (·.2)
    s.pwr.state = .flood ∧ running s = true ∧ riding s = false ∧ bitSet (param s 0x0205) 15 = true ∧ hostLfBusy s = false ∧ s.paths = [] ∧ s.lf.queued = none ∧
    s.lf.held = none ∧ groupDef s 15 = some group15 ∧ mem ≠ [] ∧ columnDue v group15 mem = true ∧
    lfCheck false (burstGroups (refreshBurst v mem)) (refreshBurst v mem).energyUj (refreshBurst v mem).durUs v = none ∧
    thermalOk v false (refreshBurst v mem).energyUj = true := by decide
/-- Zone 31 as an inside zone with one window. -/
def zone31 : Bytes := [31, 1, 0, 0, 1, 0, 1] ++ zeroBytes 21 ++ [1, 0, 0, 255]
theorem witness_zone_write : begins 0x0300 zone31 outfit (fun _ _ => zoneOk (zone31.drop 4) && zone31.length == 28 + 4 * u8 zone31 6) = true ∧
    begins 0x0300 [31, 0, 0, 0] outfit (fun _ _ => true) = true ∧ begins 0x0301 [31, 0, 0, 0] outfit (fun _ _ => true) = true ∧
    begins 0x0302 group15 outfit (fun _ _ => groupOk group15 && group15.length == 24 + 8 * u8 group15 20) = true ∧
    begins 0x0304 [] outfit (fun _ _ => true) = true := by decide
/-- Token 511 is learnt, with ID 8. -/
theorem witness_token_commands :
    begins 0x0400 ([0xFF, 1, 3, 0, 8, 0, 0, 0] ++ zeroBytes 24) outfit (fun _ u => (vaultKey u 5).isSome && (tokenOf u 8).isNone && (learning u).isEmpty &&
      (tokenRec u 511).isNone) = true ∧
    begins 0x0401 [3, 0, 0, 0] outfit (fun _ u => (tokenRec u 3).isSome) = true ∧
    begins 0x0402 [0xFF, 1, 0, 0] outfit (fun _ u => (tokenRec u 511).isNone) = true := by decide

/-- Token 3 is located and has a start session. -/
def session : State :=
  outfit.onZon (fun z => { z with located := [{ idx := 3, kS := zeroBytes 16 }] }) |>.onRel (fun r => { r with start := some { id := 1, driver := 3 } })
theorem witness_decision : running session = true ∧ sessionOpen session = true ∧ halted session = false := by decide
theorem witness_drop_age : let s := outfit.onZon (fun z => { z with located := [{ idx := 3 }] })
    locatedOf s 3 = some { idx := 3 } ∧ holdsSession s 3 = false ∧ running s = true := by decide
/-- The slot in which token 3 reports. -/
def answerSlot0 : Nat := slotFor session 7 [1, 2, 3, 4]
theorem witness_locate_poll :
    let t := { session with par := { written := (0x0401, 3) :: session.par.written, active := (0x0401, 3) :: (0x0604, 1) :: session.par.active } } |>
      stored 0x0020 0 [2, 0, 0, 0]
    let s1 := advanceTo (pollDue t 0) t
    let s2 := s1.onZon (fun z => { z with polled := z.polled.filter (fun q => q.1 ≠ 0) ++ [(0, now s1)] })
    let s0 := cliffReads 250 (enterFlood s2)
    let ver := param s0 0x0401
    let sent := sentTones s0 0 ver
    let endAt := lfFree s0 + frameUs (carrierInc s0) ver + 500 * sent.length
    let (pre, v) := locatePre 0 endAt s0
    let (tones, w) := toneWindows endAt (carrierInc s0) sent v
    let b := wakeBurst w .locate none 0 ver (pre.getD {}) tones [] 0
    (sessionPlans t).contains 0 && decide (1 < param t 0x0401) && awake t && !hostBurstBusy t && !pathAhead t && t.lf.queued.isNone && t.lf.held.isNone &&
    t.zon.poll.isNone && !riding t && pre.isSome && (lfCheck false (burstGroups b) b.energyUj b.durUs w).isNone && thermalOk w false b.energyUj &&
    (draw .challenge 4 w).1.isSome = true := by decide
/-- A located token's report to an open poll. -/
theorem witness_locate_report : let s := session.onZon (fun z => { z with poll := some { opened := true, nDev := [1, 2, 3, 4], slot := answerSlot0 } })
    let p : Bytes := beBytes 4 7 ++ zeroBytes 9
    let body := [0x13, byte answerSlot0] ++ p ++ (cmac (zeroBytes 16) (3 :: [1, 2, 3, 4] ++ p)).take 8
    body.length = 23 ∧ u8 body 0 = 0x13 ∧ u8 body 1 = answerSlot0 ∧ s.zon.poll.any (fun q => q.opened && q.slot == answerSlot0) = true ∧
    ((tokenOf (rxFrame s) (beNat (slice body 2 4))).bind (locatedOf (rxFrame s))).any (fun l => l.kS == zeroBytes 16) = true ∧
    slotFor (rxFrame s) 7 [1, 2, 3, 4] = answerSlot0 ∧ (cmac (zeroBytes 16) (3 :: [1, 2, 3, 4] ++ slice body 2 13)).take 8 = body.drop 15 ∧
    (let f := [0x13, byte answerSlot0] ++ p ++ zeroBytes 8
     f.length = 23 ∧ (cmac (zeroBytes 16) (3 :: [1, 2, 3, 4] ++ slice f 2 13)).take 8 ≠ f.drop 15) ∧
    (let u := s.onZon (fun z => { z with located := [] })
     tokenOf (rxFrame u) (beNat (slice body 2 4)) = some 3 ∧ (locatedOf (rxFrame u) 3).isNone = true) := by decide +kernel


/-! ### Ranging -/

theorem witness_uwb_commands : begins 0x0500 [] outfit (fun _ _ => true) = true ∧
    begins 0x0501 [15, 0, 0, 0] outfit (fun _ u => u.uwb.sessions.isEmpty && u.uwb.reflRef.isNone && u.soundRun.isNone) = true ∧
    begins 0x0501 [0, 0, 0, 0] outfit (fun _ u => u.uwb.sessions.isEmpty && u.uwb.reflRef.isNone && u.soundRun.isNone) = true ∧ begins 0x0502 [] outfit (fun _ _ => true) = true := by decide +kernel
/-- All four ports enabled. -/
def ports4 : State := { outfit with par := { written := [(0x0504, 15)], active := [(0x0504, 15)] } }
theorem witness_reflectometry : portEnabled ports4 1 = true ∧ portEnabled ports4 4 = true ∧ ports4.pwr.state = .flood ∧ running ports4 = true ∧ ports4.path = none ∧
    ports4.paths = [] ∧ ports4.uwb.sessions = [] ∧ ports4.uwb.due = [] ∧ ports4.uwb.reflRef = none ∧ ports4.soundRun = none ∧ storedDelay ports4 4 = none ∧ riding ports4 = false ∧ ports4.clk.xtal26 = true ∧
    4 ≤ ports4.uwb.ports.length ∧ bitSet (ports4.onUwb (fun u => { u with refl := 8 })).uwb.refl 3 = true := by decide +kernel
/-- The bounds of Table 10-2: 0.049, 0.6 and -0.6. -/
theorem test_reflectometry : [49, 50, 599, 600, -599, -600].map reflState = [4, 1, 1, 2, 1, 3] := by decide +kernel
/-- Token 3 has a session and its port 1 has a stored delay. -/
def ranging : State := stored 0x0052 1 [0, 0, 0, 0] session
theorem witness_renewal : locatedOf ranging 3 = some { idx := 3, kS := zeroBytes 16 } ∧ awake ranging = true ∧ holdsSession ranging 3 = true ∧
    uwbGoneAll ranging = false ∧ ranging.uwb.due = [] ∧ ranging.uwb.sessions = [] ∧ zeroBytes 16 ≠ [] := by decide +kernel
theorem witness_burst : let s := ranging.onUwb (fun u => { u with due := [(3, true)] })
    nextDue s = some (3, true) ∧ s.uwb.sessions.length < 4 ∧ s.pwr.state = .flood ∧ running s = true ∧ riding s = false ∧ s.uwb.refl = 0 ∧
    (burstKey s 3 true).1 ≠ [] ∧ (burstKey s 3 true).2 ≠ [] ∧ burstGone s true = false ∧ (tokenRec s 3).isSome = true ∧
    holdsSession s 3 = true ∧ (draw .sts 16 s).1.isSome = true := by decide +kernel
/-- A ranging session between rounds, and in its first round. -/
def round0 : State := ranging.onUwb (fun u => { u with sessions := [{ num := 5, token := 3, kRep := zeroBytes 16, plan := [1, 1] }], turn := [5] })
def round1 : State := ranging.onUwb (fun u => { u with sessions := [{ token := 3, kRep := zeroBytes 16, plan := [1], cur := some {}, count := 1 }] })
/-- A report for round 0 under an all-zero K_rep. -/
def rangeReport : Bytes := let p : Bytes := [0x41, 0, 0, 0, 0, 0, 1, 0, 0, 0, 0, 2]; p ++ (cmac (zeroBytes 16) p).take 8
theorem witness_round : (sessOf round0 3).any (fun x => x.cur.isNone && x.plan.head? == some 1) = true ∧ round0.uwb.sessions.any (·.cur.isSome) = false ∧ (sessOf round0 3).map (·.num) = round0.uwb.turn.head? ∧ portUsable round0 1 = true ∧ riding round0 = false ∧
    (sessOf round1 3).any (fun x => x.cur == some {} && x.plan != []) = true ∧ rangeReport.length = 20 ∧ u8 rangeReport 0 = 0x41 ∧
    u8 rangeReport 1 = ({} : Round).num ∧ (cmac (zeroBytes 16) (rangeReport.take 12)).take 8 = rangeReport.drop 12 ∧ started round1 = true := by decide +kernel
theorem test_report : gives (exec (.uwbReportReceived 3 (rangeReport ++ fcs rangeReport)) round1) (fun t => (sessOf t 3).any (fun x => x.cur == some { report := some (1, 2) })) = true ∧
    gives (exec (.uwbReportReceived 3 (rangeReport ++ [0, 0])) round1) (fun t => (sessOf t 3).any (fun x => x.cur == some {})) = true := by
  decide +kernel
/-- A round takes four STS frames of 32 blocks (Table 10-4). -/
theorem test_sts : gives (exec (.rangingRoundStart 3 1) round0) (fun t => (sessOf t 3).any (fun x => x.sts == 128)) = true := by decide +kernel
/-- AES-CMAC of the empty message (RFC 4493, example 1). -/
theorem test_cmac : cmac [0x2b, 0x7e, 0x15, 0x16, 0x28, 0xae, 0xd2, 0xa6, 0xab, 0xf7, 0x15, 0x88, 0x09, 0xcf, 0x4f, 0x3c] [] =
    [0xbb, 0x1d, 0x69, 0x29, 0xe9, 0x59, 0x37, 0x28, 0x7f, 0xa3, 0x7d, 0x12, 0x9b, 0x75, 0x67, 0x46] := by decide +kernel

/-! ### Paths -/

/-- The queue with room for one more, and full. -/
theorem witness_path_start : begins 0x0600 [0, 31, 0, 0] { outfit with paths := List.replicate 7 {} } (fun _ u => u.path.isNone && u.paths.length == 7 &&
      paramW u 0x0402 != 0) = true ∧
    begins 0x0600 [2, 0, 0xFF, 0xFF] { outfit with paths := List.replicate 8 {} } (fun _ u => u.path.isNone && u.paths.length == 8) = true ∧
    begins 0x0600 [0, 31, 0, 0] { outfit with path := some { step := .toFlood } } (fun _ u => u.path.any (fun p => p.step == .toFlood && !p.ended &&
      p.req.kind == .access)) = true ∧
    begins 0x0603 [1, 1, 0, 0] outfit (fun _ u => tpDiags 1 u == 0 && u.path.isNone && u.paths.isEmpty) = true ∧
    begins 0x0603 [2, 0, 0, 0] { outfit with paths := [{}] } (fun _ u => tpDiags 2 u == 0 && !u.paths.isEmpty) = true := by decide +kernel
/-- A request as it is begun at a time: admitted, and whether it fits its deadline. -/
def begunPath (r : PathReq) (b : Nat) : Bool × Bool :=
  let s := { outfit with clk := { outfit.clk with base := b }, paths := [r] }
  let s1 := updateUwb (boundaryM .path { s with paths := s.paths.erase r })
  let (p, w) := newPath r s1
  let v := takeRelKeys { w with path := some p }
  (awake s && s.path.isNone && !riding s && s.pair.switch_.isNone && nextReq s.paths == some r && (earlyDenial v p).isNone,
    fits v p (if p.req.kind = .transponder then toFloodUs r s1 + 110000 + 10000 else toFloodUs r s1 + wakeUs v + windowUs v + 5000 + tailUs v p))
/-- A locate and a transponder request are begun: at once they fit their deadline, much later they do not. -/
theorem witness_path_begin : [0, 1000000].map (begunPath { kind := .locate }) = [(true, true), (true, false)] ∧
    [0, 1000000].map (begunPath { kind := .transponder, port := 1, identOnly := true }) = [(true, true), (true, false)] := by decide +kernel
/-- `outfit` in a path. -/
def inPath (p : Path) : State := { outfit with path := some p }
theorem witness_path_end : (inPath {}).path = some {} ∧ ({} : Path).ended = false ∧ ({ ended := true } : Path).ended = true ∧ riding (inPath {}) = false ∧
    (inPath {}).lf.cur = none ∧ (inPath {}).rad.tx = none := by decide +kernel
theorem test_deny : (denyPath 7 (inPath {})).path.any (fun q => q.outcome == some 1 && q.denied == some 7 && q.ended) = true := by decide +kernel
/-- A path that waits for its response window on channel 0. -/
def waiting : Path := { step := .guard, windowAt := 10, freq := 868300, deadline := 1000000, nDev := [1, 2, 3, 4] }
theorem witness_window_open : let s := inPath waiting
    let u := advanceTo waiting.windowAt (coexLead 1 (advanceTo (waiting.windowAt - 40) (strandReads 250 s)))
    waiting.ended = false ∧ waiting.windowAt ≠ 0 ∧ riding s = false ∧ txHolds 1 s = false ∧ (rxOpen waiting.freq 1 u).1 = true ∧ (rxOpen 868301 1 u).1 = false ∧
    fits u waiting (waiting.slots * twSlotUs u + 5000 + tailUs u waiting) = true ∧
    fits u { waiting with deadline := 10 } (waiting.slots * twSlotUs u + 5000 + tailUs u { waiting with deadline := 10 }) = false := by decide +kernel
/-- Slots before the last and the last, with collision handling off. -/
theorem witness_slot : let p : Path := { waiting with step := .window, slot := 2, slots := 4 }
    let s := { outfit with par := { written := [(0x0405, 0)], active := [(0x0405, 0)] }, path := some p }
    let u := packetBoundary (queueOverflow 3 0 (advanceTo (p.windowAt + (p.slot + 1) * twSlotUs s) s))
    [u, rxFrame u].all (fun r => decide (param r 0x0405 ≠ 1) && (chanOf r p.freq).isSome && (chanOf r 868301).isNone) = true ∧
    p.slot + 1 < p.slots ∧ ({ p with slot := 3 } : Path).slots ≤ 3 + 1 := by decide +kernel
/-- The slot in which token 3 answers, and its answer. -/
def answerSlot : Nat := slotFor outfit 7 [1, 2, 3, 4]
def answer : Bytes := [0x11, 3, 0, 0, 0, 7, 1, 1, 1, 1, 1, 1, 1, 1, 0, 0, 0, 11] ++ zeroBytes 10 ++ [pollByte 0 answerSlot, 0, 0, 0]
theorem witness_answer : let p : Path := { waiting with step := .window, slot := answerSlot }
    (rxFrame (inPath p)).path = some p ∧ bitSet (u8 ((tokenRec (rxFrame (inPath p)) 3).getD []) 1) 2 = false ∧ 1 ≤ u8 answer 1 ∧ u8 answer 1 ≤ 3 ∧
    answer.length = 32 ∧ u8 answer 0 = 0x11 ∧ answer.getD 28 0 = pollByte p.poll answerSlot ∧ u8 answer 1 ≤ p.version ∧ zeros answer 29 3 = true ∧
    tokenOf (inPath p) (beNat (slice answer 2 4)) = some 3 ∧ slotFor (inPath p) 7 p.nDev = answerSlot ∧ min (tokVersion (inPath p) 3) p.version ≤ u8 answer 1 ∧
    tokCounter (inPath p) 3 < beNat (slice answer 14 4) := by decide +kernel
theorem test_answer : gives (exec (.answerReceived answerSlot answer 5 0) (inPath { waiting with step := .window, slot := answerSlot })) (fun t =>
    t.path.any (fun q => q.answers.map (fun a => (a.idx, a.counter, a.offNs)) == [(3, 11, 5)] && q.slotAns)) = true := by decide +kernel
/-- A plug-in in slot 0 claims frame type 0x80. -/
def plugged : State := outfit.onExt (fun e => { e with slots := e.slots.set 0 { state := 1, claims := [0x80], events := 0xFF, codeSize := 64 } })
theorem witness_plugin_frame : halted plugged = false ∧ running plugged = true ∧ plugged.path = none ∧ claimant plugged 0x80 = some 0 ∧
    (offerFrame 0 [0x80] 0xFF 0 none plugged).1 = true ∧ (offerFrame 0 [0x80] 0xFF 0 none plugged).2.ext.step = none := by decide +kernel
/-- Token 3 has been challenged. -/
def challenged : Path := { waiting with step := .challenge, cur := some { idx := 3, id := 7, version := 3, nTok := zeroBytes 8, counter := 11 }, cDev := zeroBytes 8, stepEnd := 20 }
def challengedAns : Ans := { idx := 3, id := 7, version := 3, nTok := zeroBytes 8, counter := 11 }
theorem witness_token_key : keyUnwrap (zeroBytes 32) wrappedKey = some (zeroBytes 16) ∧ (tokenRec outfit 3).map (fun b => slice b 8 24) = some wrappedKey ∧
    vaultKey outfit 5 = some (zeroBytes 32) := by decide +kernel
/-- Its proof. -/
def proofBody : Bytes := [0x12, pollByte 0 0] ++ (proofs (sessionKey (zeroBytes 16) challengedAns) (transcript 5 challengedAns (zeroBytes 8))).2
theorem witness_proof : challenged.cur = some challengedAns ∧ proofBody.length = 10 ∧ u8 proofBody 0 = 0x12 ∧
    param (rxFrame (inPath challenged)) 0x0402 = 5 ∧ challenged.stepEnd ≠ 0 ∧ challenged.cDev ≠ [] ∧ tokenKey (inPath challenged) 3 = some (zeroBytes 16) ∧
    (proofs (sessionKey (zeroBytes 16) challengedAns) (transcript 5 challengedAns (zeroBytes 8))).2 ≠ zeroBytes 8 ∧
    fits (advanceTo 20 (inPath challenged)) challenged (5000 + tailUs (advanceTo 20 (inPath challenged)) challenged) = true := by decide +kernel
/-- A settled path early and late. -/
theorem witness_zone_decision : [1000000, 1].map (fun d => let p : Path := { step := .commitRange, deadline := d }
    pathSettled p && fits (inPath p) p (1000 + signalUs (inPath p) p)) = [true, false] ∧ pathSettled { step := .commitRange } = true := by decide +kernel
/-- A transponder path at a step. -/
def tpPath (st : PathStep) : Path := { step := st, req := { kind := .transponder, port := 1 }, tpIdx := some 3, tpId := 7, tpCounter := 11, cReq := zeroBytes 4 }
/-- The transponder's identification and response. -/
def tpIdentFrame : Bytes := let p : Bytes := [0, 0, 0, 7, 0, 0, 0, 11, 0]; 0x7E :: p ++ beBytes 2 (crc16 0x1021 0xFFFF p)
def tpResponseFrame : Bytes :=
  let p := (cmac (zeroBytes 16) (8 :: beBytes 4 7 ++ beBytes 4 11 ++ zeroBytes 4)).take 8
  0x7E :: p ++ beBytes 2 (crc16 0x1021 0xFFFF p)
theorem witness_transponder : [PathStep.tpCharge, .tpIdent, .tpResponse].all (fun st => tpAt st (inPath (tpPath st)) == some (tpPath st)) = true ∧
    tpIdentFrame.length = 12 ∧ crc16 0x1021 0xFFFF (slice tpIdentFrame 1 9) = beNat (slice tpIdentFrame 10 2) ∧
    tokenOf outfit (beNat (slice tpIdentFrame 1 4)) = some 3 ∧ bitSet (u8 ((tokenRec outfit 3).getD []) 1) 1 = true ∧
    tokCounter outfit 3 < beNat (slice tpIdentFrame 5 4) := by decide +kernel
theorem witness_transponder_response : let p := fun d : Nat => { tpPath .tpResponse with deadline := d }
    tpAt .tpResponse (inPath (p 0)) = some (p 0) ∧ fits (inPath (p 0)) (p 0) 10000 = false ∧ fits (inPath (p 10000)) (p 10000) 10000 = true ∧
    tpAt .tpResponse (inPath (p 10000)) = some (p 10000) ∧ tpResponseFrame.length = 11 ∧ crc16 0x1021 0xFFFF (slice tpResponseFrame 1 8) = beNat (slice tpResponseFrame 9 2) ∧
    (cmac (zeroBytes 16) (8 :: beBytes 4 7 ++ beBytes 4 11 ++ zeroBytes 4)).take 8 = slice tpResponseFrame 1 8 := by decide +kernel
/-- 20 mA pass the open check, 19 mA deny. -/
theorem test_tp_open : gives (exec (.tpOpenCheck 20) (inPath (tpPath .tpCharge))) (fun t => t.path == some (tpPath .tpCharge)) = true ∧
    gives (exec (.tpOpenCheck 19) (inPath (tpPath .tpCharge))) (fun t => t.path.any (fun p => p.denied == some 12)) = true := by decide +kernel

/-! ### Release -/

/-- A door record: zone 0, channel CAN1. -/
def door15 : Bytes := [15, 1, 0, 0] ++ le32 1 ++ [1, 1, 0, 0, 0xFF, 0, 0, 0, 0, 0, 0, 0]
theorem witness_sessions : begins 0x0601 [0xFF, 0xFF, 0, 0] outfit (fun _ _ => true) = true ∧
    begins 0x0601 [0xFE, 0xFF, 0, 0] outfit (fun _ u => u.rel.start.isNone && u16 [0xFE, 0xFF, 0, 0] 0 != 0xFFFF) = true ∧
    begins 0x0602 [] outfit (fun _ _ => true) = true ∧ begins 0x0604 [] session (fun _ _ => true) = true ∧
    begins 0x0605 [15, 0, 0, 0] outfit (fun _ _ => true) = true ∧
    begins 0x0605 door15 outfit (fun _ u => door15.length == 20 && doorFieldsOk u (door15.drop 4) &&
      distinct (canIdents u u.par.written (doorBuses u ++ [1]))) = true := by decide
theorem witness_door_timeout : let s := outfit.onRel (fun r => { r with access := [{ doors := [{ door := 15 }] }], pulses := [(7, 100)] })
    (match s.rel.access.find? (fun a => a.doors.any (fun d => d.door == 15)) with
      | some a => (a.doors.find? (fun d => d.door == 15)).isSome
      | none => false) = true ∧
    s.rel.pulses.find? (fun p => p.1 == 7) = some (7, 100) ∧ s.rel.access.all (fun a => a.doors.all (fun d => u8 d.record 8 != 7)) = true := by decide
/-- R262, R261: a door's and a pulse's end. -/
theorem test_pulse_end : gives (exec (.gpioPulseEnd 7) (outfit.onRel (fun r => { r with pulses := [(7, 100)] }))) (fun t =>
    t.rel.pulses.isEmpty && (t.bus.pins.getD 7 {}).level && t.clk.base == 100) = true := by decide
theorem witness_start : session.rel.start.any (fun t => t.bus == 1) = true ∧
    (session.onRel (fun r => { r with start := r.start.map (fun t => { t with bus := 0 }) })).rel.start.any (fun t => t.bus == 0) = true := by decide
theorem test_start_timeout : gives (exec .startTimeout (session.onRel (fun r => { r with startA := true }))) (fun t => t.rel.start.isNone && !t.rel.startA) = true := by
  decide
theorem witness_frame_timeout : [1, 2].all (fun bus =>
    let s := session.onBus (fun b => { b with canTx := [{ bus := bus, rel := true }] })
    running s && ((s.bus.canTx ++ s.bus.canWait).find? (fun f => f.bus == bus && f.rel)).isSome) = true := by decide
/-- A vehicle whose engine unit answers on CAN1. -/
def engineCar : State := (outfit.onBus (fun b => { b with bus := b.bus.map (fun x => { x with state := 1 }) }))
  |>.onSec (fun x => { x with vault := x.vault.set 3 { key := some (zeroBytes 16) } }) |>.onRel (fun r => { r with firstSent := some 5, lastSent := some 9 })
  |> fun s => { s with par := { written := [(0x060C, 2)], active := [(0x060C, 2)] } }
/-- A release frame waits for CAN2. -/
theorem witness_frame_leaves : let s := engineCar.onBus (fun b => { b with canTx := [{ bus := 2, rel := true, bytes := zeroBytes 16 }] })
    canUp s 2 = true ∧ now s ≤ 0 + 5000 ∧ s.bus.canWait = [] ∧ s.bus.canTx = [{ bus := 2, rel := true, bytes := zeroBytes 16 }] := by decide
/-- `ENGINE_STATUS` for the first and the last freshness value sent, with the engine stopped and running. -/
def engineFrame (run : Byte) (n : Nat) : Bytes := let p : Bytes := [2, run] ++ beBytes 4 n ++ [0, 0]; p ++ (cmac (zeroBytes 16) (beBytes 4 0x1A8 ++ p)).take 8
theorem witness_engine : [(0, 5), (1, 9)].all (fun x => let f := engineFrame x.1 x.2
      f.length == 16 && u8 f 1 == x.1.toNat && zeros f 6 2 && decide (5 ≤ beNat (slice f 2 4) ∧ beNat (slice f 2 4) ≤ 9) &&
    (cmac (zeroBytes 16) (beBytes 4 (param engineCar 0x0608) ++ f.take 8)).take 8 == f.drop 8) = true ∧
    running engineCar = true ∧ param engineCar 0x0606 = 1 ∧ canUp engineCar (param engineCar 0x0606) = true ∧ engineCar.rel.start = none ∧
    vaultKey engineCar 3 = some (zeroBytes 16) ∧ runInput engineCar = 0 ∧
    runInput { engineCar with par := { written := [(0x060B, 1)], active := [(0x060B, 1)] } } ≠ 0 := by decide +kernel
theorem witness_run_input : let s := (session.onRel (fun r => { r with start := r.start.map (fun t => { t with runInput := 1 }) }) : State)
    let s := { s with sen := { s.sen with cin := s.sen.cin.set 0 { asserted := true, since := 7 } } }
    (contact s (runInput s)).asserted = true ∧ runInput s ≠ 0 ∧ running s = true := by decide
theorem witness_outputs : running outfit = true ∧ awake outfit = true ∧ drives outfit = true ∧ drives (outfit.onPair (fun p => { p with role := .lee })) = false ∧ started (outfit.onPwr (fun p => { p with state := .stranded })) = true ∧ outfit.rel.startA = false ∧ outfit.rel.startB = false ∧ outfit.rel.diagA = (0, false) ∧
    outfit.rel.diagB = (0, false) ∧ (outfit.onRel (fun r => { r with startA := true, startB := true })).rel.startA = true := by decide
theorem test_outputs : gives (exec (.startOutputFault 0 1) (outfit.onRel (fun r => { r with startA := true, startB := true }))) (fun t =>
    !t.rel.startA && t.rel.startB && t.rel.diagA.1 == 2) = true := by decide

/-! ### Radio -/

/-- FACTORY, with nothing stored but the lifecycle state. -/
def factory : State := stored 0x0001 0 [1, 0] { outfit with store := { pages := [] } }
/-- A regulatory record with one channel. -/
def regRecord : Bytes := let p := [1, 1, 0, 0] ++ le32 3600000 ++ le32 360000 ++ le32 868300 ++ le16 100 ++ le16 1 ++ zeroBytes 56 ++ [1] ++ zeroBytes 335
  p ++ le32 (crc32c p)
/-- Entries of -20 dBm to 11 dBm. -/
def powerTable : Bytes := (List.range 32).flatMap (fun i => [byte (i + 236), 0, 0, 0])
theorem witness_records : regRecord.length = 416 ∧ regOk regRecord = true ∧ powerTable.length = 128 ∧ powerTableOk powerTable = true := by decide +kernel
theorem witness_radio_commands : begins 0x0702 [] factory (fun _ u => lifecycle u == .factory) = true ∧
    begins 0x0702 [] (stored 0x0050 0 (zeroBytes 416 ++ [1]) outfit) (fun _ u => lifecycle u == .provisioned && regLocked u) = true ∧
    begins 0x0703 [] (stored 0x0050 0 (zeroBytes 416 ++ [1]) outfit) (fun _ u => (recBody u 0x0050 0).isSome) = true ∧
    begins 0x0701 powerTable outfit (fun _ _ => true) = true ∧ begins 0x0700 [] outfit (fun _ _ => true) = true := by decide +kernel
/-- Calibrating channel 0 alone, and 1 to 256 of the 256 channels from 0. -/
theorem witness_cal_run : [1, 256].all (fun n => begins 0x0704 ([0, 0] ++ le16 n) outfit (fun _ u => u.rad.reg.isSome && u.rad.calRef.isNone &&
    (List.range 256).filter (fun k => decide (0 ≤ k ∧ k < n) && maskAllows regulatory k) != [])) = true := by decide +kernel
/-- Channel 0 calibrated, with an hour of radio time. -/
def tuned : State := outfit.onRad (fun r => { r with reg := some ([1, 1, 0, 0] ++ le32 3600000 ++ regulatory.drop 8), cal := [{ chan := 0, temp := 250 }] })
theorem witness_test_tx : begins 0x0705 (le32 868300 ++ [0, 0, 1, 0]) { tuned with store := factory.store } (fun r u => u.path.isNone && u.zon.poll.isNone &&
    u.rad.tx.isNone && u.soundRun.isNone && (txRequest { freq := 868300, asked := 0, airUs := 1000, prec := 3, ref := some r } (strandReads 250 u)).1 == stOk) = true := by decide +kernel
theorem witness_tx_request : let v := strandReads 250 tuned
    running tuned = true ∧ (radChecks 868300 0 1000 2 v).1.isSome = true ∧ tuned.rad.tx = none ∧ windowOpen tuned = false ∧ tuned.zon.poll = none ∧
    tuned.rad.run = none ∧ tuned.pair.role ≠ .lee ∧ riding tuned = false ∧ tuned.pwr.state = .flood ∧ calUsable v 0 = true ∧
    param tuned 0x0704 ≠ 1 ∧ chanOf tuned 868301 = none := by decide +kernel
theorem test_tx_request : gives (exec (.radioTxRequest 868300 0 1000 2 250) tuned) (fun t => t.rad.tx.any (fun x => x.radiating && x.chan == 0)) = true ∧
    gives (exec (.radioTxRequest 868301 0 1000 2 250) tuned) (fun t => t.rad.tx.isNone && t.rad.lastTx == stRegulatory) = true := by decide +kernel
theorem witness_cal_step : let v := strandReads 250 outfit
    outfit.rad.run = none ∧ radioGap v 70 = true ∧ nextCal v = some 0 := by decide +kernel
/-- A calibration in its first, fourth and fifth step. -/
theorem witness_cal_steps : [0, 3, 4].all (fun k => (outfit.onRad (fun r => { r with run := some { step := k, stepFrom := some 0 } })).rad.run.any (fun r =>
    r.stepFrom == some 0 && !r.mandatory && r.step == k)) = true := by decide
/-- A transmission of class `prec` in the air. -/
def sending (prec : Nat) : State := tuned.onRad (fun r => { r with tx := some { prec := prec, radiating := true, ref := if prec = 3 then some {} else none } })
theorem witness_sending : (sending 2).rad.tx.any (fun x => x.radiating && x.ref.isNone && x.probe.isNone && calUsable tuned x.chan && x.chan == 0 && decide (now tuned ≤ x.since + 20)) = true ∧
    ((sending 2).onRad (fun r => { r with locked := some 0 })).rad.locked = some 0 ∧ (sending 2).rad.run = none ∧
    ((sending 2).onRad (fun r => { r with tx := r.tx.map (fun x => { x with probe := some 0 }) })).rad.tx.any (fun x => x.radiating && x.probe.isSome) = true ∧
    (radChecks 868300 0 1000 2 (strandReads 250 (sending 2))).1.isSome = true ∧
    (sending 3).rad.tx.any (fun x => x.radiating && x.ref.isSome && x.prec == 3) = true ∧ (sending 2).rad.newTable = false ∧
    (tuned.onRad (fun r => { r with tx := some { waiting := true } })).rad.tx = some { waiting := true } := by decide +kernel
/-- A transmission that waits for the grant, its channel allowed, and no longer allowed. -/
theorem witness_grant : let s := tuned.onRad (fun r => { r with tx := some { waiting := true }, coex := (true, false) })
    s.rad.tx = some { waiting := true } ∧ s.rad.run = none ∧ allowed s 0 = true ∧ calUsable s 0 = true ∧ s.rad.coex.1 = true ∧
    allowed (s.onRad (fun r => { r with reg := some (zeroBytes 416) })) 0 = false := by decide +kernel
theorem witness_coex : param { tuned with par := { written := [(0x0704, 1)], active := [(0x0704, 1)] } } 0x0704 = 1 ∧ tuned.rad.grant = false ∧ tuned.path = none := by decide
theorem witness_tuner : let s := onTuner 0 (fun x => { x with high := 3 }) tuned
    let v := strandReads 250 s
    (List.range 256).find? (fun n => allowed v n && bandOf v n == 0) = some 0 ∧ param s 0x0707 ≠ 0 ∧ (tunerOf s 0).high ≥ 3 ∧ (tunerOf s 0).last = 0 ∧
    s.pair.role ≠ .lee ∧ radioGap v 200 = true ∧ s.rad.run = none ∧
    (let st := (txRequest { freq := (chanFreqs (s.rad.reg.getD [])).getD 0 0, asked := 0, airUs := 200, prec := 4, probe := some 0 } v).1
     st = stOk ∨ st = stAccepted) := by decide +kernel
/-- The radio's three checks pass without a trace. -/
theorem witness_checks_pass : (radChecks 868300 0 1000 2 (strandReads 250 tuned)).2 = strandReads 250 tuned ∧
    (radChecks 868300 0 1000 2 (strandReads 250 (sending 2))).2 = strandReads 250 (sending 2) := by constructor <;> rfl

/-! ### Sensing -/

theorem witness_sense_commands : begins 0x0800 [] outfit (fun _ _ => true) = true ∧ begins 0x0802 [] outfit (fun _ _ => true) = true ∧
    begins 0x0803 [0, 0, 0, 0] outfit (fun _ _ => true) = true ∧ begins 0x0803 [1, 0, 0, 0] outfit (fun _ _ => true) = true ∧
    begins 0x0801 ([31, 0xFF, 0, 0, 0] ++ zeroBytes 11) outfit (fun _ _ => true) = true := by decide
theorem witness_contacts : watching outfit = true ∧ sensing outfit = true ∧ bitSet (cinConfig outfit 1) 3 = false ∧ bitSet (cinConfig outfit 8) 3 = false ∧
    8 ≤ outfit.sen.cin.length ∧ (contact (outfit.onSen (fun x => { x with cin := List.replicate 8 { asserted := true } })) 8).asserted = true ∧
    (contact (outfit.onSen (fun x => { x with cin := List.replicate 8 { asserted := true } })) 8).stuck = false ∧ outfit.sen.wakeN = false ∧
    (outfit.onSen (fun x => { x with wakeN := true, wakeStuck := true })).sen.wakeStuck = true := by decide
/-- In Neap CAN2 may wake by its parameter, CAN1 may not. -/
theorem witness_can_wake : let s := { outfit with par := { written := [(0x0E07, 4)], active := [(0x0E07, 4)] } }.onPwr (fun p => { p with state := .neap })
    busWakeable s = true ∧ bitSet (param s 0x0E07 / 4 ^ (2 - 1)) 0 = true ∧ bitSet (param s 0x0E07 / 4 ^ (1 - 1)) 0 = false := by decide
/-- Channel 15 with a baseline of 1000 counts and the default threshold of 50. -/
def capped : State := { outfit with par := { written := [(0x0801, 0x8000), (0x0808, 0)], active := [(0x0801, 0x8000), (0x0808, 0)] } }
  |>.onSen (fun x => { x with cap := x.cap.set 15 { base := some 1000, last := 1001 } })
theorem witness_scan_touch : param capped 0x0801 = 2 ^ 15 ∧ param outfit 0x0801 = 0 ∧ sensing outfit = true ∧ fieldOn outfit = false ∧ outfit.sen.rebase = 0 ∧
    (List.range 8).all (fun k => !bitSet (cinConfig capped (k + 1)) 3) = true ∧ sensing capped = true ∧ fieldOn capped = false ∧ capped.sen.rebase = 0 ∧ capOn capped 15 = true ∧
    capOn (boundary .scan capped) 15 = true ∧ 15 < capped.sen.cap.length ∧ (capChan capped 15).base = some 1000 ∧ (capChan capped 15).touched = false ∧
    (capChan capped 15).diag = 0 ∧ (capChan capped 15).confirm = 0 ∧ capped.sen.guards.getD (15 / 8) (false, 0) = (false, 0) ∧ 0 < touchTh capped 15 ∧
    1000 + touchTh capped 15 ≤ 1050 ∧ param capped 0x0808 = 0 ∧ 1 ≤ param capped 0x0807 ∧ param capped 0x0804 ≠ 1 := by decide
/-- R320: a conversion at the threshold begins a confirmation, one below it does not. -/
theorem test_scan : gives (exec (.scan [⟨15, some 1050⟩] [] true true) capped) (fun t => (capChan t 15).confirm == 1) = true ∧
    gives (exec (.scan [⟨15, some 1049⟩] [] true true) capped) (fun t => (capChan t 15).confirm == 0) = true := by decide
theorem witness_confirm : let s := capped.onSen (fun x => { x with cap := x.cap.set 15 { base := some 1000, confirm := 2 } })
    sensing s = true ∧ capOn s 15 = true ∧ fieldOn s = false ∧ (capChan s 15).confirm ≠ 0 ∧ s.pwr.state ≠ .neap ∧ (capChan s 15).base = some 1000 ∧ 1049 < 1000 + touchTh s 15 ∧ 1000 + touchTh s 15 ≤ 1050 ∧
    param s 0x0804 ≤ (capChan s 15).confirm + 1 := by decide
theorem witness_drift : 1000 < (capChan capped 15).last ∧ 2 * ((capChan capped 15).last - 1000) < touchTh capped 15 ∧
    (let s := capped.onSen (fun x => { x with cap := x.cap.set 15 { base := some 1000, last := 999 } })
     (capChan s 15).last < 1000 ∧ 2 * (1000 - (capChan s 15).last) < touchTh s 15) ∧
    (capChan (capped.onSen (fun x => { x with cap := x.cap.set 15 { touched := true } })) 15).touched = true := by decide

/-! ### Security -/

theorem witness_stage : begins 0x0A00 ([3, 0, 0, 0, 0, 0, 0, 0] ++ [9]) outfit (fun _ u => !u.pwr.recovery && u.sec.verify.isNone) = true ∧
    begins 0x0A00 ([3, 0, 0, 0, 2, 0, 0, 0] ++ [9]) (outfit.onSec (fun x => { x with stage3 := [7, 8] })) (fun _ u => u.sec.stage3.length == 2 && u.sec.verify.isNone) =
      true := by decide
theorem test_stage : gives (exec (.stageWrite (cmd ([3, 0, 0, 0, 2, 0, 0, 0] ++ [9]))) (outfit.onSec (fun x => { x with stage3 := [7, 8] }))) (fun t =>
    t.sec.stage3 == [7, 8, 9]) = true := by decide
theorem witness_verifications : begins 0x0A01 [] outfit (fun _ u => decide (u.pwr.state ≠ .breach) && !pinnedBusy u && u.sec.sign.isNone && u.sec.verify.isNone) = true ∧
    begins 0x0A02 [4, 0, 0, 0] outfit (fun _ u => decide (u.pwr.state ≠ .breach) && !pinnedBusy u && u.sec.sign.isNone && u.sec.verify.isNone) = true ∧
    begins 0x0A02 [3, 0, 0, 0] (outfit.onSec (fun x => { x with breachFuses := 63 }) |>.onPwr (fun p => { p with state := .breach })) (fun _ u =>
      u.sec.breachFuses == 63 && u.pwr.state == .breach) = true ∧
    begins 0x0A02 [3, 0, 0, 0] (outfit.onSec (fun x => { x with breachFuses := 64 })) (fun _ u => u.sec.breachFuses == 64) = true ∧
    begins 0x0A03 (List.replicate 32 1) outfit (fun _ u => (vaultKey u 0).isSome && u.sec.sign.isNone && u.sec.verify.isNone && !pinnedBusy u) = true ∧
    begins 0x0902 [] outfit (fun _ u => (vaultKey u 0).isSome && u.sec.sign.isNone && u.sec.verify.isNone && !pinnedBusy u) = true := by decide
/-- An object is read from its first and its last byte on. -/
theorem witness_object_read : [0, 9].all (fun o => begins 0x0A04 ([1, 0, 0, 0, 0, 0, 0, 0] ++ le32 o ++ [0xE8, 3])
    (outfit.onSec (fun x => { x with report := some (zeroBytes 10) })) (fun _ u => u.sec.report.any (fun r => o < r.length))) = true := by decide
theorem witness_log_read : begins 0x0901 [4, 0, 0, 0, 1, 0, 0, 0] (outfit.onSec (fun x => { x with logNext := 5 })) (fun _ u => u.sec.logNext == 5) = true ∧
    begins 0x0903 [] (outfit.onPwr (fun p => { p with hold := some (0, 0) })) (fun _ u => u.pwr.hold == some (0, 0)) = true ∧
    begins 0x0A05 [] outfit (fun _ _ => true) = true := by decide
theorem witness_tamper_map : begins 0x0A06 [11, 2, 0, 0] (stored 0x0060 0 (zeroBytes 12) factory) (fun _ u => decide (u.pwr.state ≠ .breach) && lifecycle u == .factory &&
      newestBody u 0x0060 0 == some (zeroBytes 12)) = true ∧
    begins 0x0A06 [11, 0, 0, 0] (stored 0x0060 0 (zeroBytes 12) (stored 0x0001 0 [3, 0] { outfit with store := { pages := [] } })) (fun _ u => lifecycle u == .field &&
      newestBody u 0x0060 0 == some (zeroBytes 12)) = true := by decide
theorem witness_ends : (outfit.onSec (fun x => { x with verify := some (.firmware, {}) })).sec.verify = some (.firmware, {}) ∧ outfit.rng.waiting = [] ∧
    outfit.sec.active < 2 ∧ outfit.sec.banks.length = 2 ∧ outfit.sec.stage1 = [] ∧ (outfit.onSec (fun x => { x with ckptDue := some none })).sec.ckptDue = some none ∧
    started outfit = true ∧ outfit.sec.sign = none ∧ outfit.sec.verify = none ∧ (vaultKey outfit 0).isSome = true ∧
    (outfit.onSec (fun x => { x with sign := some (.attest {} []) })).sec.sign = some (.attest {} []) ∧ outfit.pair.reportDue = none ∧ outfit.sec.fwRetry = false ∧
    outfit.sec.famRetry = [] ∧ (outfit.onSec (fun x => { x with fwRetry := true })).sec.fwRetry = true := by decide
/-- The header of an envelope of a kind, for the device whose serial's bytes are all `x`, with an empty body; and a signature of zeros. -/
def envHead (kind x : Byte) : Bytes := [kind, 0, 1, 2, 0, 0, 0, 0] ++ List.replicate 16 x ++ zeroBytes 104
def envSig : Bytes := zeroBytes 29792
theorem envelope_form (kind x : Byte) : envFormOk (envHead kind x ++ envSig) = true := by
  have h : (envHead kind x ++ envSig).length = 29920 := by
    simp only [envHead, envSig, zeroBytes, List.length_append, List.length_replicate, List.length_cons, List.length_nil]
  have a (t : Bytes) : u8 (envHead kind x ++ t) 2 = 1 := rfl
  have b (t : Bytes) : u32 (envHead kind x ++ t) 4 = 0 := rfl
  have c (t : Bytes) : zeros (envHead kind x ++ t) 30 2 = true := rfl
  have d (t : Bytes) : zeros (envHead kind x ++ t) 96 32 = true := rfl
  simp only [envFormOk, h, a, b, c, d, sigLen]
  decide
theorem witness_envelope_kind : envFormOk (envHead 2 0 ++ envSig) = true ∧ u16 (envHead 2 0 ++ envSig) 0 ≠ VerifyFor.kind .firmware ∧
    envFormOk (envHead 1 0 ++ envSig) = true ∧ u16 (envHead 1 0 ++ envSig) 0 = VerifyFor.kind .firmware ∧ zeros (envHead 1 0 ++ envSig) 8 16 = true ∧ u8 (envHead 1 0 ++ envSig) 3 ≠ 1 :=
  ⟨envelope_form .., by decide, envelope_form .., by decide, by decide, by decide⟩
/-- Whatever this device's serial is, some grant is for another one. -/
theorem witness_envelope_serial : ∃ e, envFormOk e = true ∧ u16 e 0 = VerifyFor.kind (.grant 1) ∧ slice e 8 16 ≠ Config.serial := by
  by_cases h : slice (envHead 0x10 0 ++ envSig) 8 16 = Config.serial
  · exact ⟨envHead 0x10 1 ++ envSig, envelope_form .., by decide, by rw [← h]; decide⟩
  · exact ⟨envHead 0x10 0 ++ envSig, envelope_form .., by decide, h⟩
theorem witness_tamper : outfit.pwr.phase = .ready ∧ outfit.pwr.state ≠ .neap ∧ outfit.pwr.neapEntry = false ∧ quiet.pwr.neapEntry = false ∧
    (List.range 12).any (fun k => bitSet neapSensors k && bitSet (armedMask quiet) k && !bitSet quiet.sec.reads k) = true ∧
    (List.range 12).any (fun k => !bitSet neapSensors k) = true ∧ quiet.pwr.state = .slack ∧ bitSet quiet.sec.reads 0 = false ∧
    bitSet quiet.sec.heldTripped 0 = false ∧ bitSet (armedMask quiet) 0 = true ∧ quiet.sec.chatter = [] ∧
    tamperResp (stored 0x0060 0 (zeroBytes 12) quiet) 0 = 0 ∧ bitSet (outfit.onSec (fun x => { x with reads := 0x800 })).sec.reads 11 = true ∧
    bitSet (outfit.onSec (fun x => { x with heldTripped := 1 })).sec.heldTripped 0 = true := by decide
/-- Strikes of a day and a microsecond less than a day ago. -/
theorem witness_strikes : let s := (outfit.onSec (fun x => { x with strikes := [0, 1] })).onClk (fun c => { c with mono := dayUs })
    s.sec.strikes = [0, 1] ∧ started s = true ∧ s.pwr.state ≠ .neap ∧ 0 + dayUs ≤ s.clk.mono ∧ s.clk.mono < 1 + dayUs := by decide
theorem witness_debug : debugReaches factory .cc = true ∧ debugReaches factory .ext = true ∧ factory.pwr.phase = .ready ∧ debugReaches outfit .cc = false ∧
    (outfit.onSec (fun x => { x with service := some (5, 1) })).sec.service = some (5, 1) := by decide
theorem test_debug : gives (exec (.debugHalt .cc) factory) (fun t => t.sec.halted == (true, false)) = true ∧
    gives (exec (.debugHalt .cc) outfit) (fun t => t.sec.halted == (false, false) && bitSet t.sec.tripped 11) = true := by decide
theorem witness_breach : 5 < outfit.sec.vault.length ∧ 63 < outfit.sec.vault.length ∧ 5 ∈ breachSlots ∧ 63 ∈ breachSlots ∧ 0 ∉ breachSlots := by decide
theorem test_breach : (enterBreach 0 true false outfit).sec.breachFuses = 1 ∧ (enterBreach 0 true false outfit).sec.vault.getD 5 {} = {} ∧
    (enterBreach 0 true false outfit).pwr.state = .breach := by decide

/-! ### Store -/

/-- A part with a measured and charged holdup capacitor and writes queued. -/
def writing (js : List Job) : State := (outfit.onPwr (fun p => { p with vbat := 12000, vhold := 15000, hold := some (10000, 1) })).onStore (fun t => { t with queue := js })
/-- One power record to write. -/
def job1 : Job := { cls := 2, items := [.record 0x0071 0 [1]] }
theorem witness_writes : writerRuns (writing [job1]) = true ∧ (writing [job1]).pwr.holdBusy = false ∧
    writerRuns ((writing [job1]).onPwr (fun p => { p with holdBusy := true })) = true ∧ ({ job1 with cls := 3 } : Job).cls = 3 ∧ (writing [job1]).store.cur = none ∧ (writing [job1]).evt.backlog = [] ∧
    (match pickWrite (writing [job1]).store with | .job j r => j == job1 && r.isEmpty | _ => false) = true ∧ jobOk job1 (writing [job1]) = true ∧
    jobOk job1 ((writing [job1]).onPwr (fun p => { p with vhold := 0, hold := some (0, 0) })) = false ∧
    (match pickWrite ((writing []).onStore (fun t => { t with paused := [{ job := job1 }] })).store with | .resume w r => w == { job := job1 } && r.isEmpty | _ => false) =
      true ∧ ({ job := job1 } : Writing).aDone = false ∧ job1.cls ≠ 3 ∧
    (writing [{ job1 with deferred := true }]).store.queue.any (·.deferred) = true ∧ job1.copies = none ∧ (writing []).pwr.state ≠ .neap := by decide
/-- A regulatory record that a field grant has locked while its write waited is denied; a repair waits for mailbox ready. -/
theorem witness_reg_refused : let s := stored 0x0050 0 (zeroBytes 416 ++ [1]) (writing [])
    regRefused s { items := [.record 0x0050 0 regRecord], after := .regRecord {} } = some {} ∧ regRefused s job1 = none ∧
    (regJob s { items := [.record 0x0050 0 regRecord] }).items = [.record 0x0050 0 (regRecord ++ [1])] ∧ regRecord ≠ [] ∧
    ({ job1 with copies := some true } : Job).copies.isSome = true ∧ ((writing []).onPwr (fun p => { p with phase := .firmware })).pwr.phase ≠ .ready := by decide +kernel
/-- R379: a class 1 write goes before a class 2 write. -/
theorem test_write_order : gives (exec .storeWriteBegin (writing [job1, { cls := 1, items := [.ctr 3 11] }])) (fun t =>
    t.store.cur.any (fun w => w.job.cls == 1) && t.store.queue == [job1]) = true := by decide
/-- A single page in use in area 3, copy B. -/
theorem witness_reclaim : let s := (writing []).onStore (fun t => { t with pages := t.pages.zipIdx.map (fun x => if x.2 = 59 then { x.1 with opened := some 1 } else x.1), toReclaim := [59] })
    let p := s.store.pages.getD 59 {}
    running s = true ∧ s.store.erasing = none ∧ 1 ≤ p.area ∧ p.area ≤ 3 ∧ s.pwr.holdBusy = false ∧ energyOk false 0 1 s = true ∧ 5500 ≤ s.pwr.vbat ∧ reclaimPage p.area p.copyB s.store = some 59 := by decide
theorem witness_erase : let s := outfit.onStore (fun t => { t with erasing := some 63 })
    urgentWrite s.store = false ∧ 63 < s.store.pages.length ∧ liveCells 63 (s.store.pages.getD 63 {}).copyB s.store = 0 ∧ (s.store.pages.getD 63 {}).erases + 1 < 100000 := by decide
/-- The counter of token 3 stands at 10 and is not written down. -/
theorem witness_versions : ((findRec outfit.store.ctrs 0x8000 3).bind StRec.standing).any (fun v => leNat v.body == 10) = true ∧ 10 ≤ leNat (le32 10) := by decide

/-! ### Random numbers -/

theorem witness_noise : (starting .rom).pwr.phase = .rom ∧ (starting .rom).rng.src.any (·.running) = false ∧ (starting .rom).rng.fatal = none ∧
    [1, 2].all (fun n => [true, false].all (fun p => let s := outfit.onRng (fun r => { r with src := [{ running := true, passed := p }, { running := true, passed := p }] })
      sampling s n && (noise s n).passed == p && (noise s n).block.isNone && (noise s n).fails.isEmpty)) = true ∧ outfit.rng.test.getLsbD 0 = false := by decide
theorem witness_alarms : let s := random.onRng (fun r => { r with reseedFrom := some 0 })
    s.rng.reseedFrom = some 0 ∧ s.rng.drbg.isSome = true ∧ s.rng.fatal = none ∧ s.pwr.state ≠ .neap ∧
    (random.onRng (fun r => { r with fatal := some 0 })).rng.fatal = some 0 ∧ random.rng.latchedFatal = false ∧ random.rng.src.any (·.running) = false ∧
    (random.onRng (fun r => { r with waiting := [(.nonce, 0)] })).rng.waiting.find? (fun w => w.1 = .nonce) = some (.nonce, 0) ∧ random.mbx.waitOpen = none := by decide
theorem witness_rng_ports : let s := random.onRng (fun r => { r with ext := { r.ext with fifo := [1, 2] } })
    portRuns s = true ∧ rngReady s .ext = true ∧ (rngPort s .ext).fifo = [1, 2] ∧ random.mmb.waitOpen = none ∧
    (rngPort (random.onRng (fun r => { r with ext := { r.ext with fifo := [1] } })) .ext).fifo = [1] ∧
    rngReady (random.onRng (fun r => { r with ext := { r.ext with fifo := [1] } })) .ext = true ∧ rngReady ready .cc = false ∧ ready.rng.drbg = none ∧
    lifecycle factory = .factory ∧ portRuns factory = true ∧ lifecycle ready ≠ .factory := by decide
theorem test_rng_read : gives (exec (.rngDataRead .cc) ready) (fun t => t.rng.fw.err && !t.rng.ext.err) = true := by decide

/-! ### The pair -/

/-- A member of a pair with its link up. -/
def linked (r : Role) : State := random.onPwr (fun p => { p with cwPair := true }) |>.onPair (fun p => { p with role := r, up := true, locked := true, version := 2, nonce := some (zeroBytes 16) })
  |>.onSec (fun x => { x with vault := x.vault.set 2 { key := some (zeroBytes 32) } })
theorem witness_link_up : linkLive (linked .lee) = true ∧ (linked .lee).pair.up = true ∧
    (draw .nonce 16 ((linked .lee).onPair (fun p => { p with locked := true, nonce := none }))).1.isSome = true ∧ (linked .lee).pair.locked = true ∧
    vaultKey ((linked .lee).onSec (fun x => { x with vault := x.vault.set 2 {} })) 2 = none ∧ vaultKey (linked .lee) 2 = some (zeroBytes 32) ∧
    (linked .lee).pair.nonce = some (zeroBytes 16) ∧ 1 ≤ min 2 1 ∧ 2 ≤ min 2 255 ∧ (linked .lee).pair.joined = false ∧
    ((linked .lee).onPair (fun p => { p with up := false })).pair.up = false := by decide
theorem witness_pair_alive : (linked .headland).pair.rx = 0 ∧ (linked .headland).pair.tx < 0xF0000000 ∧ (linked .headland).pair.missed < 2 ∧
    ((linked .headland).onPair (fun p => { p with missed := 2 })).pair.missed = 2 ∧ started (linked .headland) = true ∧ (linked .headland).pwr.cwPair = true ∧
    (linked .headland).pwr.state ≠ .neap ∧ param { outfit with par := { written := [(0x0B01, 8), (0x0B02, 1)], active := [(0x0B01, 8), (0x0B02, 1)] } } 0x0B01 ≠ 0 ∧
    ((linked .lee).onPair (fun p => { p with joined := true })).pair.joined = true ∧
    (((linked .lee).onPwr (fun p => { p with state := .neap })).pwr.state = .neap) := by decide
theorem test_heartbeat_miss : gives (exec .heartbeatMiss ((linked .headland).onPair (fun p => { p with missed := 2 }))) (fun t => !t.pair.up && t.pair.role == .headland) =
    true := by decide
theorem witness_pair_blocks : (linked .lee).pair.mirrorRx + 1 = 1 ∧ (linked .headland).pair.transfer = none ∧
    ((linked .lee).onPair (fun p => { p with sent := [(4, [])] })).pair.sent.any (fun b => b.1 == 4) = true ∧
    [0, 1].all (fun k => ((linked .headland).onPair (fun p => { p with commits := [(3, 11, 0, k)] })).pair.commits == [(3, 11, 0, k)]) = true := by decide
theorem test_mirror : gives (exec (.mirror 0 1 [.param 0x0202 9] true) (linked .lee)) (fun t => t.pair.mirrorRx == 1 && param t 0x0202 == 9) = true := by decide
theorem witness_pair_commands : begins 0x0B00 [] outfit (fun _ _ => true) = true ∧
    begins 0x0B01 [] ((linked .headland).onPair (fun p => { p with joined := true })) (fun r u => paired u && !r.member && u.path.isNone && u.pair.switch_.isNone) = true ∧
    begins 0x0B01 [] outfit (fun _ u => !paired u) = true ∧
    begins 0x0B02 [] ((linked .headland).onPair (fun p => { p with partner := 2 })) (fun r u => u.pair.role == .headland && u.pair.up && u.pair.partner == 2 &&
      !u.pair.joined && decide (2 ≤ u.pair.version) && !r.member && u.pair.admission.isNone && u.pair.transfer.isNone) = true := by decide
/-- An admission waits for its report, to which the nonce has gone out. -/
theorem witness_handover : ((linked .lee).onPair (fun p => { p with joined := true })).pair.joined = true ∧ 0 ≤ (linked .lee).pair.mirrorRx ∧
    ((linked .headland).onPair (fun p => { p with switch_ := some ({}, 0), admission := some ({}, 0, [1], 0) })).pair.switch_ = some ({}, 0) ∧
    (linked .lee).sec.sign = none ∧ (linked .lee).sec.verify = none ∧ (vaultKey (linked .lee) 0).isSome = true ∧ (linked .lee).pair.partial_ = [] ∧
    ((linked .headland).onPair (fun p => { p with admission := some ({}, 0, [1], 0) })).pair.admission = some ({}, 0, [1], 0) := by decide
theorem test_lee : (becomeLee session).rel.start = none ∧ (becomeLee session).pair.role = .lee ∧ (becomeLee (sending 2)).rad.tx = none ∧
    ((becomeLee (session.onBus (fun b => { b with pins := modAt b.pins 7 (fun p => { p with function := 1, out := true }) }))).bus.pins.getD 7 {}).out = false := by decide

/-! ### Plug-ins -/

theorem witness_plugins : begins 0x0C00 [3, 0, 0, 0] outfit (fun _ u => decide (u.pwr.state ≠ .breach) && !pinnedBusy u && u.sec.sign.isNone && u.sec.verify.isNone) = true ∧
    begins 0x0C01 [0, 0, 0, 0] invoked (fun _ u => slotRuns u 0) = true ∧ begins 0x0C01 [3, 0, 0, 0] invoked (fun _ u => !slotRuns u 3) = true ∧
    begins 0x0C02 [] outfit (fun _ _ => true) = true := by decide
/-- An invocation of a loaded slot, and of an empty one. -/
theorem witness_invocation : [0, 3].map (fun k => let s := plugged.onExt (fun e => { e with queue := [{ slot := k, event := 1 }] })
    (s.ext.queue == [{ slot := k, event := 1 }] && running s && !halted s && s.ext.cur.isNone && s.ext.requests.isEmpty && !s.sec.halted.2, slotLive s k)) =
      [(true, true), (true, false)] ∧ coreRuns invoked .ext = true := by decide
theorem test_invocation : gives (exec .extInvocationBegin (plugged.onExt (fun e => { e with queue := [{ slot := 0, event := 1 }] }))) (fun t =>
    t.xc.get 1 == 1 && t.xc.get 30 == 0x20000 && t.ext.left == 400000 && !t.xc.stopped) = true := by decide
/-- A plug-in path's frame from slot 1, and a step that waits. -/
theorem witness_answer_request : let s := { (stored 0x0030 2 ([3, 4, 3, 0] ++ le32 9 ++ zeroBytes 24) outfit) with path := some { waiting with step := .window } }
    let f := slotFor s 9 [1, 2, 3, 4]
    let u := s.onExt (fun e => { e with prevSlot := some 0, frames := [(77, f, 0, 5)] })
    u.ext.requests = [] ∧ u.ext.cur = none ∧ u.ext.frames.find? (fun f => f.1 == 77) = some (77, f, 0, 5) ∧ f ≠ 255 ∧ tokenOf u 9 = some 2 ∧
    (match tokenRec u 2 with | some b => boundTo b 0 | none => false) = true := by decide +kernel
/-- A step of slot 0 for token 3's answer frame 77. -/
def stepping : State := { tuned with path := some { waiting with cur := some { idx := 3, id := 7 } } }
  |>.onExt (fun e => { e with prevSlot := some 0, step := some (0, 77, 3, 1000) })
  |> onExtMem (fun m => memPut (memPut m 0x21F00 (le16 240)) 0x18000 ([1, 0xFF] ++ le16 77 ++ le32 7 ++ zeroBytes 24))
/-- The last transmit buffer with the longest frame. -/
theorem witness_transmit_request : stepping.ext.requests = [] ∧ stepping.ext.cur = none ∧ stepping.ext.prevSlot = some 0 ∧ stepping.ext.step = some (0, 77, 3, 1000) ∧
    stepping.path.isSome = true ∧ stepping.ext.txUsed.any (fun b => b.2 == 15) = false ∧ leNat (memReadN stepping.xc.mem (0x21000 + 256 * 15) 2) = 240 ∧
    (999 + 2 ^ 48 - tide stepping) % 2 ^ 48 < 2 ^ 47 ∧ now stepping + (999 + 2 ^ 48 - tide stepping) % 2 ^ 48 < 1000 ∧
    (stepping.onExt (fun e => { e with step := none })).ext.step = none := by decide
/-- A rejection, a foreign answer, a new counter and an old one, read from the data area and from the end of the working memory. -/
theorem witness_verdict : [(1, 0), (2, 0), (0, 11), (0, 10)].all (fun x =>
    let s := stepping |> onExtMem (fun m => memPut m 0x1FFE0 ([byte x.1, 0xFF] ++ le16 77 ++ le32 7 ++ le32 x.2 ++ zeroBytes 10 ++ [0xFF, 0xFF] ++ zeroBytes 8))
    let v := memReadN s.xc.mem 0x1FFE0 32
    within 0x1FFE0 32 0x18000 0x8000 && within 0x8020 32 (slotOf invoked 0).dataBase (slotOf invoked 0).dataSize && u8 v 0 == x.1 && u8 v 1 == 0xFF && u16 v 2 == 77 &&
    u32 v 4 == 7 && u32 v 8 == x.2 && u16 v 22 == 0xFFFF && zeros v 21 1 && zeros v 30 2 && (tokenRec s 3).isSome && tokCounter s 3 == 10 &&
    s.path.any (fun p => p.cur == some { idx := 3, id := 7 })) = true := by decide +kernel
/-- The AES port with volatile key 0 of the running slot. -/
def porting : State := invoked.onExt (fun e => { e with slots := modAt e.slots 0 (fun x => { x with vol := x.vol.set 0 (some (zeroBytes 16)) }) })
  |>.onExt (fun e => { e with aesHandle := 0x2000, aesSrc := 0x18000, aesDst := 0x1FFF0, aesLen := 16 })
theorem witness_aes : porting.ext.cur = some { slot := 0 } ∧ porting.ext.aesBusy = false ∧ handleKey porting 0 porting.ext.aesHandle = .inr (zeroBytes 16) ∧
    porting.ext.aesLen = 16 ∧ within porting.ext.aesSrc.toNat 16 0x18000 0x8000 = true ∧ within porting.ext.aesDst.toNat 16 0x18000 0x8000 = true ∧
    handleKey invoked 0 invoked.ext.aesHandle = .inl 1 ∧ handleKey porting 0 porting.ext.aesHandle ≠ .inl 1 ∧
    (within 0x17FF8 16 0x8000 64 || within 0x17FF8 16 0x18000 0x8000 || within 0x17FF8 16 0x21000 0x1000 || within 0x17FF8 16 0x20000 0x1000) = false ∧
    within 0x20FF0 16 0x20000 0x1000 = true ∧ (porting.onExt (fun e => { e with aesLen := 15 })).ext.aesLen = 15 ∧ 0 < porting.ext.slots.length ∧
    3 < (slotOf porting 0).vol.length ∧
    (porting.onExt (fun e => { e with aesBusy := true, aesOut := some ([1, 2], some 3, 0, 0) })).ext.aesOut = some ([1, 2], some 3, 0, 0) ∧
    (porting.onExt (fun e => { e with aesBusy := true, aesOut := some ([1, 2], none, 0x18000, 0) })).ext.aesOut = some ([1, 2], none, 0x18000, 0) := by decide
/-- FIPS 197, appendix C.1. -/
theorem test_aes : aesEnc ((List.range 16).map byte) ((List.range 16).map (fun k => byte (17 * k))) =
    [0x69, 0xc4, 0xe0, 0xd8, 0x6a, 0x7b, 0x04, 0x30, 0xd8, 0xcd, 0xb7, 0x80, 0x70, 0xb4, 0xc5, 0x5a] := by decide +kernel
/-- Tokens 2, bound to slot 0, and 3, bound to none (R423). -/
theorem test_fx_lookup : [(9, 2), (7, 0xFFFF)].all (fun x =>
    gives (exec (.fxLookup (BitVec.ofNat 32 x.1)) { invoked with store := (stored 0x0030 2 ([3, 4, 3, 0] ++ le32 9 ++ zeroBytes 24) outfit).store }) (fun t =>
      (readReg (.fx 4) t).1.toNat == x.2)) = true := by decide

/-! ### Buses, faults and erosion -/

theorem witness_bus_commands : begins 0x0E00 [] outfit (fun _ _ => true) = true ∧ begins 0x0E01 [7, 0, 2, 2] outfit (fun _ u => !pinHeld u 7) = true ∧
    begins 0x0E01 [7, 0, 2, 2] (outfit.onBus (fun b => { b with pins := modAt b.pins 7 (fun p => { p with function := 1 }) })) (fun _ u => pinHeld u 7) = true ∧
    begins 0x0E02 [1, 1] (outfit.onBus (fun b => { b with pins := modAt b.pins 0 (fun p => { p with dir := 1 }) })) (fun _ u => !pinHeld u 0 &&
      (u.bus.pins.getD 0 {}).function == 0 && (u.bus.pins.getD 0 {}).dir != 0) = true ∧
    begins 0x0E02 [0x80, 0] (outfit.onBus (fun b => { b with pins := modAt b.pins 7 (fun p => { p with function := 1 }) })) (fun _ u => pinHeld u 7) = true ∧
    begins 0x0E03 [] outfit (fun _ u => u.bus.pins.length == 8) = true := by decide
/-- A door status frame on CAN2. -/
theorem witness_door_status : let s := { engineCar with par := { written := [(0x0E0E, 2)], active := [(0x0E0E, 2)] } }
    running s = true ∧ 2 = param s 0x0E0E ∧ param s 0x0E0F = 0x1B8 ∧ canUp s 2 = true ∧ bitSet (s.bus.bus.getD 1 {}).kinds 4 = false ∧ s.bus.bus.length = 6 ∧
    transport s ≠ 2 := by decide
/-- R262: the first frame tells of no change, the next one of a door that has opened. -/
theorem test_door_first : let s := { engineCar with par := { written := [(0x0E0E, 2)], active := [(0x0E0E, 2)] } }
    gives (exec (.doorStatusFrame 2 0x1B8 [0, 1] 0) s) (fun t => t.bus.doorBits == 1 && t.bus.doorSeen && t.evt.queues == s.evt.queues) = true := by decide
/-- CAN2 off its bus, and CAN2 and LIN4 with a kind diagnosed and without. -/
theorem witness_buses : [3, 1].all (fun x => let s := engineCar.onBus (fun b => { b with bus := modAt b.bus 1 (fun y => { y with state := x, delayed := x == 3, offs := [5] }) })
    (s.bus.bus.getD 1 {}).state == x && s.clk.xtal26 && running s) = true ∧
    [(1, 3), (5, 2)].all (fun x => let s := engineCar.onBus (fun b => { b with bus := modAt b.bus x.1 (fun y => { y with kinds := 2 ^ x.2 }) })
      bitSet (s.bus.bus.getD x.1 {}).kinds x.2 && !bitSet (engineCar.bus.bus.getD x.1 {}).kinds x.2) = true := by decide
/-- Node 15 of LIN4 is named; it answers, and it has been silent for good and less. -/
theorem witness_lin : let s := { outfit with par := { written := [(0x0E14, 0x8000)], active := [(0x0E14, 0x8000)] } }
    drives s = true ∧ s.pwr.vbatFull = true ∧ linNamed s 4 15 = true ∧ linReserved s 4 = false ∧ (linNode s 4 15).silent = false ∧
    [0, 1, 2].all (fun k => let u := s.onBus (fun b => { b with nodes := [{ bus := 4, node := 15, silent := true, heard := k }] })
      (linNode (pollOver u) 4 15).silent && (linNode (pollOver u) 4 15).heard == k) = true := by decide
theorem test_bus_off : gives (exec (.busOff 2) engineCar) (fun t => (t.bus.bus.getD 1 {}).state == 3 && (t.bus.bus.getD 0 {}).state == 1) = true := by decide
theorem witness_fault_handling : let s := outfit.onFlt (fun f => { f with handling := some (1, 1), suspended := [(2, 2)], queue := [(3, 3)] })
    s.flt.handling = some (1, 1) ∧ s.flt.suspended = [(2, 2)] ∧ s.flt.queue = [(3, 3)] ∧ outfit.flt.suspended = [] ∧ outfit.flt.queue = [] ∧ outfit.flt.lost = 0 ∧
    outfit.flt.handling = none ∧ (outfit.onFlt (fun f => { f with handling := some (1, 1), lost := 1 })).flt.lost ≠ 0 ∧ outfit.flt.reread = false := by decide
/-- The host ring with its last place free, and full. -/
theorem witness_host_ring : let s := outfit.onEvt (fun e => { e with queues := e.queues.set 19 [{ source := 19 }], ring := List.replicate 255 {} })
    s.evt.ring.length = 255 ∧ (takeRecord 19 s).isSome = true ∧ (s.onEvt (fun e => { e with ring := List.replicate 256 {} })).evt.ring.length = 256 := by decide +kernel
theorem witness_signal_line : running outfit = true ∧ bitSet outfit.pwr.lineKinds.1 1 = false ∧ bitSet outfit.pwr.lineKinds.2 2 = false ∧
    bitSet (outfit.onPwr (fun p => { p with lineKinds := (2, 4) })).pwr.lineKinds.1 1 = true ∧ bitSet (outfit.onPwr (fun p => { p with lineKinds := (2, 4) })).pwr.lineKinds.2 2 = true ∧
    outfit.path = none ∧ [2, 3].all (fun l => [1, 2, 3].all (fun k => !bitSet (tpDiags (l - 1) outfit) k &&
      bitSet (tpDiags (l - 1) (outfit.onRel (fun r => { r with tpDiag := (8 + 4 + 2, 8 + 4 + 2) }))) k)) = true := by decide
/-- The masks of the parts judged at once; items 1 to 3 and 8 have a history. -/
theorem witness_erosion : [0, 1, 16, 17].all (fun k => begins 0x0D00 [byte k, 0, 0, 0] outfit (fun _ u => u.soundRun.isNone)) = true ∧
    (lfChan outfit 1).disabled = false ∧ [1, 2, 3, 8].all (fun k => begins 0x0D01 [byte k, 1, 0, 0] { outfit with ero := [{ item := k, inst := 1, n := 1 }] } (fun _ u =>
      (u.ero.find? (fun x => x.item == k && x.inst == 1 && x.n != 0)).isSome)) = true := by decide

end Sys2Proof.Tests
end

section
/-! `PARAM_SET`: its checks in the order of R132, and what a refused one leaves (R26). -/

namespace Sys2Proof.Machine
open Sys2Proof

/-- With no write waiting, only the values written so far count. -/
@[simp] theorem standsWith_nil (ok : List (Nat × Nat) → List (Nat × Nat) → Bool) (e l : List (Nat × Nat)) :
    standsWith ok e [] l = ok l (e.foldl (fun l x => pSet l x.1 x.2) l) := rfl

@[simp] theorem respond_par (ref : CmdRef) (st : Nat) (b : Bytes) (s : State) : (respond ref st b s).par = s.par := respondWith_par ..

/-- A `PARAM_SET` that fails a check is answered with that check's status, and nothing else is done. -/
theorem exec_paramSet_of_paramCheck {m : MbxCmd} {s u : State} {ref : CmdRef} {st : Nat} (hb : begun 0x0105 m s = some (ref, u))
    (hc : paramCheck m.payload ref u = some st) : exec (.paramSet m) s = .next (respond ref st [] u) := by
  rw [exec_paramSet, execParamSet, runCmd_begun hb, hc]

/-- The payload of a `PARAM_SET` is in order (R8, R131): a count within the limit, the length it asks for, and reserved bits of 0. -/
structure ParamForm (p : Bytes) (lim : Nat) : Prop where
  count_pos : 1 ≤ u8 p 0
  count_le : u8 p 0 ≤ lim
  length_eq : p.length = 4 + 8 * u8 p 0
  flags_le : u8 p 1 ≤ 1
  reserved : zeros p 2 2 = true
  entry_reserved : ∀ k, k < u8 p 0 → zeros p (6 + 8 * k) 2 = true

/-- The check of R26 comes last: a command that passes the others is busy when it writes a frozen parameter whose block runs. -/
theorem paramCheck_frozen {p : Bytes} {ref : CmdRef} {s : State} {e new : List (Nat × Nat)}
    (he : paramEntries p (u8 p 0) = e) (hnew : e.foldl (fun l x => pSet l x.1 x.2) s.par.written = new)
    (hform : ParamForm p (if (s.box ref.member).ifv < 0x12 then 31 else 32))
    (hvalues : ∀ x ∈ e, valueOk x.1 x.2 = true ∧ (pBound x.1 = .reset → u8 p 1 = 1))
    (hwait : waitingParams s = []) (hstand : standOk s new = true)
    (hlock : lifecycle s = .field → lockedChange s.par.written new = false ∧ ∀ x ∈ e, x.1 ≠ 0x0402)
    (hruns : ∃ x ∈ e, isFrozen x.1 = true ∧ boundRuns s (pBound x.1) = true) :
    paramCheck p ref s = some stBusy := by
  obtain ⟨hpos, hlim, hlen, hflags, hres, hentries⟩ := hform
  unfold paramCheck
  dsimp only
  rw [he, hwait, standsWith_nil, standsWith_nil, hnew]
  refine (if_neg ?count).trans <| (if_neg fun h => h hlen).trans <| (if_neg ?reserved).trans <| (if_neg ?values).trans <|
    (if_neg ?locked).trans <| if_pos ?frozen
  case count => simpa using ⟨by omega, hlim⟩
  case reserved => simpa [hres] using ⟨hflags, hentries⟩
  case values =>
    have hpersist : ∀ x ∈ e, pBound x.1 = .reset → bitSet (u8 p 1) 0 = true := fun x hx hb => by rw [(hvalues x hx).2 hb]; rfl
    simpa [hstand] using fun a b hx => ⟨(hvalues _ hx).1, hpersist _ hx⟩
  case locked => simpa using fun h => ⟨(hlock h).1, fun v hv => (hlock h).2 _ hv rfl⟩
  case frozen => simpa using hruns

/-- Settles O17: `PARAM_SET` ends at the check of R26, and its answer leaves the parameters alone. -/
theorem frozenWrites : Obligations.FrozenWrites := by
  unfold Obligations.FrozenWrites
  intro m s ref u n l new hbegun hn hl hnew hpos hlim hlen hflags hres hentries hvalues hwait hstand hlock hruns
  subst hn
  have hbusy : paramCheck m.payload ref u = some stBusy :=
    paramCheck_frozen hl hnew ⟨hpos, hlim, hlen, hflags, hres, hentries⟩ hvalues hwait hstand hlock hruns
  exact ⟨exec_paramSet_of_paramCheck hbegun hbusy, respond_par .., talkFrame_respond ..⟩

end Sys2Proof.Machine
end

section
/-! State classes (R127, Table 6-1): what the taking of a command leaves when its class admits it, and when it does not. -/

namespace Sys2Proof.Machine
open Sys2Proof

/-- A command is served in a running state only (Table 6-1). -/
theorem running_of_classAdmits {member : Bool} {op : Nat} {s : State} (h : classAdmits member op s = true) : running s = true := by
  unfold classAdmits at h
  split at h
  case h_1 => cases h
  case h_2 =>
    simp only [Bool.and_eq_true] at h
    obtain ⟨⟨⟨-, hrun⟩, -⟩, -⟩ := h
    exact hrun

theorem awake_of_slack {s : State} (hrun : running s = true) (hslack : s.pwr.state = .slack) : awake s = true := by
  simp [awake, hrun, hslack]

/-- From Slack and from Flood alike, what needs Flood finds the ITF48 in it (Table 3-7). -/
theorem enterFlood_state {s : State} (h : awake s = true) : (enterFlood s).pwr.state = .flood := by
  simp [enterFlood, h, activity]

section
variable {op : Nat} {m : MbxCmd} {s u : State} {ref : CmdRef}

theorem begun_of_not_classAdmits (ht : takeCmd op m s = (some ref, u)) (hc : classAdmits m.member op u = false) :
    begun op m s = none := by
  simp [begun, ht, hc]

/-- An admitted command begins in the state its taking left, or in Flood when it needs Flood and passes check 14 (log 82). -/
theorem begun_of_classAdmits (ht : takeCmd op m s = (some ref, u)) (hc : classAdmits m.member op u = true) :
    begun op m s = some (ref,
      if (opClass op = some .T ∨ opClass op = some .K ∨ opClass op = some .X) ∧ formOk op m.payload u = true
      then enterFlood u else u) := by
  simp only [begun, ht, hc, Bool.not_true, Bool.false_eq_true, if_false]
  cases opClass op with
  | none => simp
  | some c => cases c <;> simp

/-- A command that its class does not admit is answered `ST_NOT_IN_STATE`, whatever its meaning is. -/
theorem runCmd_of_not_classAdmits (ht : takeCmd op m s = (some ref, u)) (hc : classAdmits m.member op u = false)
    (body : CmdRef → Bytes → State → State) : runCmd op m s body = respond ref stNotInState [] u := by
  simp only [runCmd, begun_of_not_classAdmits ht hc, ht]

end

/-- Settles O14: every row but `HELLO`, which may also be handled plain (R113), runs under its opcode by `runCmd`, so its class decides
before its own meaning is reached; what it needs Flood for begins through `enterFlood`. -/
theorem stateClasses : Obligations.StateClasses := by
  unfold Obligations.StateClasses
  intro temp found f op m ref s u hrow ht
  refine ⟨fun hc => ⟨_, begun_of_classAdmits ht hc⟩, fun hc hop => ⟨?_, talkFrame_respond ..⟩, fun hc hcls hslack => ?_⟩
  · have hrun : ∃ body, exec (f m) s = .next (runCmd op m s body) := by
      cases hrow with
      | head => exact absurd rfl hop
      | tail _ hrow =>
        repeat
          cases hrow with
          | head => exact ⟨_, rfl⟩
          | tail _ hrow => ?_
        cases hrow
    obtain ⟨body, hrun⟩ := hrun
    rw [hrun, runCmd_of_not_classAdmits ht hc]
  · have hflood := enterFlood_state (awake_of_slack (running_of_classAdmits hc) hslack)
    refine ⟨_, begun_of_classAdmits ht hc, fun hform => ?_, fun hform => if_neg fun h => ?_⟩
    · rw [if_pos ⟨hcls.imp_right Or.inl, hform⟩, hflood]
    · exact Bool.false_ne_true (hform.symm.trans h.2)

end Sys2Proof.Machine
end

section
/-! Tidemark timers (R394 to R396): what passing time leaves of them, what a match leaves in its own timer, and that a match touches the
timers alone but for the event of T16 to T23. -/

namespace Sys2Proof.Machine
open Sys2Proof

theorem modAt_eq_modify {α : Type} (l : List α) (i : Nat) (f : α → α) : modAt l i f = l.modify i f := by
  induction l generalizing i with
  | nil => simp [modAt]
  | cons a l ih => cases i <;> simp [modAt, ih]

@[simp] theorem onTimer_timers_length (n : Nat) (f : Timer → Timer) (s : State) : (onTimer n f s).timers.length = s.timers.length := by
  simp [onTimer, modAt_eq_modify]

theorem timer_onTimer_same {n : Nat} {s : State} (h : n < s.timers.length) (f : Timer → Timer) :
    timer (onTimer n f s) n = f (timer s n) := by
  simp [timer, onTimer, modAt_eq_modify, h]

/-! ### What passing time leaves -/

@[simp] theorem advanceBase_timers (us : Nat) (s : State) : (advanceBase us s).timers = s.timers := by
  unfold advanceBase; dsimp only; split <;> simp

@[simp] theorem budgetPass_timers (us : Nat) (s : State) : (budgetPass us s).timers = s.timers := by
  unfold budgetPass; split <;> rfl

@[simp] theorem busDiag_timers (bus kind : Nat) (clear : Bool) (s : State) : (busDiag bus kind clear s).timers = s.timers := by
  unfold busDiag; split
  · rfl
  · dsimp only; split <;> simp [emitC, emitF]

theorem relSents_timers (l : List CanFrame) (s : State) : (l.foldl relSent s).timers = s.timers := by
  induction l generalizing s with
  | nil => rfl
  | cons a l ih => rw [List.foldl_cons, ih]; simp [relSent]

@[simp] theorem canPass_timers (s : State) : (canPass s).timers = s.timers := by
  unfold canPass; split
  · rfl
  · exact relSents_timers ..

/-- Time moves no timer but by the timers' own count. -/
theorem passUs_timers (us : Nat) (s : State) : (passUs us s).timers = (countersPass us (advanceBase us s)).timers := by
  simp [passUs, idlePass]

theorem Timer.pass_compare (n : Nat) (t : Timer) : (t.pass n).compare = t.compare := by
  unfold Timer.pass; split <;> rfl

theorem timersPass_compares (us : Nat) (s : State) : (timersPass us s).timers.map Timer.compare = s.timers.map Timer.compare := by
  have hkeep : ∀ x : Timer × Nat, (if timerFrozen s x.2 x.1 then x.1 else x.1.pass (ticksOf s x.1 us)).compare = x.1.compare := by
    intro x; split
    · rfl
    · exact Timer.pass_compare ..
  calc (timersPass us s).timers.map Timer.compare = (s.timers.zipIdx.map Prod.fst).map Timer.compare := by
        simp only [timersPass, List.map_map]; exact List.map_congr_left fun x _ => hkeep x
    _ = s.timers.map Timer.compare := by rw [List.zipIdx_map_fst]

/-- Counting changes no timer's `COMPARE`, and no timer comes or goes. -/
theorem passUs_compares (us : Nat) (s : State) : (passUs us s).timers.map Timer.compare = s.timers.map Timer.compare := by
  rw [passUs_timers]; unfold countersPass; split
  · rw [timersPass_compares]; simp
  · simp

@[simp] theorem passUs_timers_length (us : Nat) (s : State) : (passUs us s).timers.length = s.timers.length := by
  simpa using congrArg List.length (passUs_compares us s)

theorem timer_compare (s : State) (n : Nat) : (timer s n).compare = (s.timers.map Timer.compare).getD n (0xFFFFFFFF : Word) := by
  cases h : s.timers[n]? <;> simp [timer, List.getD_eq_getElem?_getD, h]

@[simp] theorem timer_passUs_compare (us : Nat) (s : State) (n : Nat) : (timer (passUs us s) n).compare = (timer s n).compare := by
  rw [timer_compare, timer_compare, passUs_compares]

theorem state_ne_neap_of_coreClock {s : State} (h : coreClock s = true) : s.pwr.state ≠ .neap := by
  simp only [coreClock, Bool.and_eq_true, decide_eq_true_eq] at h
  obtain ⟨⟨-, hneap⟩, -⟩ := h
  exact hneap

/-! ### What a match does -/

/-- The match of another timer, or its own, captures in a timer or leaves it alone. -/
theorem timer_captureMatch (n k : Nat) (s : State) :
    timer (captureMatch n s) k = timer s k ∨ timer (captureMatch n s) k = (timer s k).take false := by
  simp only [timer, captureMatch, List.getD_eq_getElem?_getD, List.getElem?_map, List.getElem?_zipIdx]
  cases s.timers[k]? with
  | none => exact .inl rfl
  | some t =>
    simp only [Option.map_some, Option.getD_some]
    split
    · exact .inr rfl
    · exact .inl rfl

/-- The state in which the link action of a match of timer `n` is applied: `w1c` is written to STATUS, the match fires and is captured. -/
def fireAndCapture (n : Nat) (w1c : Word) (s : State) : State := captureMatch n (onTimer n Timer.fire (onTimer n (writeStatus w1c) s))

theorem matchTimer_writeStatus (n : Nat) (w1c : Word) (s : State) :
    matchTimer n (onTimer n (writeStatus w1c) s) = timerEvent n (applyLink n (fireAndCapture n w1c s)) := rfl

/-- R395, R396, R5: a match stops the count at `COMPARE` with MATCH set, and with END set at the top, whatever STATUS is written. -/
theorem timer_fireAndCapture {n : Nat} {w1c : Word} {s : State} (h : n < s.timers.length) :
    (timer (fireAndCapture n w1c s) n).matched = true ∧ (timer (fireAndCapture n w1c s) n).run = false ∧
    (timer (fireAndCapture n w1c s) n).count = (timer s n).compare ∧
    ((timer s n).compare = 0xFFFFFFFF → (timer (fireAndCapture n w1c s) n).ended = true) := by
  have hfired : timer (onTimer n Timer.fire (onTimer n (writeStatus w1c) s)) n = (writeStatus w1c (timer s n)).fire := by
    rw [timer_onTimer_same (by simpa using h), timer_onTimer_same h]
  rcases timer_captureMatch n n (onTimer n Timer.fire (onTimer n (writeStatus w1c) s)) with hc | hc <;>
    simp +contextual [fireAndCapture, hc, hfired, Timer.take, Timer.fire, writeStatus]

/-- T0 to T15 are the control complex's: their match is no plug-in event. -/
theorem timerEvent_of_lt {n : Nat} (h : n < 16) (s : State) : timerEvent n s = s := by
  simp [timerEvent, h]

/-- A link action reads and changes the timers alone. -/
theorem applyLink_timers (n : Nat) (s t : State) :
    applyLink n { t with timers := s.timers } = { t with timers := (applyLink n s).timers } := by
  have htimer : timer { t with timers := s.timers } n = timer s n := rfl
  unfold applyLink
  dsimp only
  rw [htimer]
  split <;> rfl

@[simp] theorem applyLink_pwr (n : Nat) (s : State) : (applyLink n s).pwr = s.pwr := by
  unfold applyLink; dsimp only; split <;> rfl

theorem sameClockCtrl_timers (ctl : Option (Nat × Word)) (s0 s t : State) :
    sameClockCtrl ctl s0 { t with timers := s.timers } = { t with timers := (sameClockCtrl ctl s0 s).timers } := by
  cases ctl <;> rfl

@[simp] theorem sameClockCtrl_pwr (ctl : Option (Nat × Word)) (s0 s : State) : (sameClockCtrl ctl s0 s).pwr = s.pwr := by
  cases ctl <;> rfl

/-- Outside Neap no timer is compensated: an entry that is abandoned leaves the timers alone (R67, R400). -/
theorem neapWake_timers {code : Nat} {flood : Bool} {s : State} (h : s.pwr.state ≠ .neap) :
    (neapWake code flood s).timers = s.timers := by
  unfold neapWake leaveNeap
  simp only [h, if_false]
  split
  · rfl
  · simp [emit, neapStir, activity]

/-- A state whose timers are those that the link action and the write of `CTRL` leave is what the two make of it with the timers before. -/
theorem sameClockCtrl_applyLink_timers {ctl : Option (Nat × Word)} {n : Nat} {u x t : State}
    (h : t.timers = (sameClockCtrl ctl u (applyLink n x)).timers) :
    sameClockCtrl ctl u (applyLink n { t with timers := x.timers }) = t := by
  rw [applyLink_timers, sameClockCtrl_timers, ← h]

/-- The link action, the event and the write of `CTRL` may come after the wake that abandons an entry to Neap: it leaves the timers alone, and
on T0 to T15 the three change the timers alone. -/
theorem exists_neapWake_last {n : Nat} {u x : State} (ctl : Option (Nat × Word)) (hn : n < 16) (hstate : u.pwr.state ≠ .neap)
    (hpwr : x.pwr = u.pwr) : ∃ v, v.timers = x.timers ∧
      neapWake 0x41 false (sameClockCtrl ctl u (timerEvent n (applyLink n x))) = sameClockCtrl ctl u (timerEvent n (applyLink n v)) := by
  simp only [timerEvent_of_lt hn]
  have hkeep : (neapWake 0x41 false (sameClockCtrl ctl u (applyLink n x))).timers = (sameClockCtrl ctl u (applyLink n x)).timers :=
    neapWake_timers (by rwa [sameClockCtrl_pwr, applyLink_pwr, hpwr])
  refine ⟨_, ?_, (sameClockCtrl_applyLink_timers hkeep).symm⟩
  rfl

/-- R396: what a match after some time leaves in a timer whose `COMPARE` is at the top, as seen in any state with the matched timers. -/
theorem timer_of_match_top {n us : Nat} {w1c : Word} {s v : State} (htop : (timer s n).compare = 0xFFFFFFFF) (hn : n < s.timers.length)
    (hv : v.timers = (fireAndCapture n w1c (passUs us s)).timers) :
    (timer v n).matched = true ∧ (timer v n).ended = true ∧ (timer v n).run = false ∧ (timer v n).count = 0xFFFFFFFF := by
  have hsame : timer v n = timer (fireAndCapture n w1c (passUs us s)) n := by rw [timer, hv, timer]
  have hcompare : (timer (passUs us s) n).compare = 0xFFFFFFFF := by rw [timer_passUs_compare, htop]
  have hlen : n < (passUs us s).timers.length := by rwa [passUs_timers_length]
  obtain ⟨hmatched, hstop, hcount, hended⟩ := timer_fireAndCapture (w1c := w1c) hlen
  rw [hsame]
  exact ⟨hmatched, hended hcompare, hstop, hcount.trans hcompare⟩

/-! ### The commands -/

section
variable {n : Nat} {s : State} (w1c : Word) (ctl : Option (Nat × Word)) (hrun : (timer s n).run = true)
  (hfree : timerFrozen s n (timer s n) = false) (hclk : coreClock s = true)
include hrun hfree hclk

/-- `TIMER_END` of a timer whose count has passed its `COMPARE` (R396). -/
theorem exec_timerEnd_of_passed (hlt : (timer s n).compare.toNat < (timer s n).count.toNat) :
    exec (.timerEnd n w1c) s = .next (onTimer n (fun t => { writeStatus w1c t with count := 0xFFFFFFFF, run := false, ended := true })
      (passUs (usOfTicks s (timer s n) (0xFFFFFFFF - (timer s n).count.toNat)) s)) := by
  rw [exec_timerEnd, execTimerEnd]
  simp [hrun, hlt, hfree, hclk, next]

/-- `TIMER_MATCH` of a timer whose count may reach `COMPARE`; one of T0 to T15 with `WAKE` also abandons an entry to Neap (R67, R399). -/
theorem exec_timerMatch_of_le (hle : (timer s n).count.toNat ≤ (timer s n).compare.toNat) :
    let u := passUs (usOfTicks s (timer s n) ((timer s n).compare.toNat - (timer s n).count.toNat)) s
    let w := sameClockCtrl ctl u (timerEvent n (applyLink n (fireAndCapture n w1c u)))
    exec (.timerMatch n w1c ctl) s = .next (if n < 16 && (timer s n).ctrl.getLsbD 6 && w.pwr.neapEntry then neapWake 0x41 false w else w) := by
  rw [exec_timerMatch, execTimerMatch]
  simp [hrun, hle, hfree, hclk, matchTimer_writeStatus, next]

/-- The link action, the event and the write of `CTRL` come last, on timers that have matched, an abandoned entry to Neap or not. -/
theorem exists_exec_timerMatch (hle : (timer s n).count.toNat ≤ (timer s n).compare.toNat) :
    let u := passUs (usOfTicks s (timer s n) ((timer s n).compare.toNat - (timer s n).count.toNat)) s
    ∃ v, v.timers = (fireAndCapture n w1c u).timers ∧
      exec (.timerMatch n w1c ctl) s = .next (sameClockCtrl ctl u (timerEvent n (applyLink n v))) := by
  intro u
  rw [exec_timerMatch_of_le w1c ctl hrun hfree hclk hle]
  split
  case isFalse => exact ⟨_, rfl, rfl⟩
  case isTrue hwake =>
    simp only [Bool.and_eq_true, decide_eq_true_eq] at hwake
    obtain ⟨⟨hn, -⟩, -⟩ := hwake
    have hstate : u.pwr.state ≠ .neap := by rw [passUs_pwr_state]; exact state_ne_neap_of_coreClock hclk
    obtain ⟨v, htimers, hlast⟩ := exists_neapWake_last ctl hn hstate (rfl : (fireAndCapture n w1c u).pwr = u.pwr)
    exact ⟨v, htimers, congrArg _ hlast⟩

end

/-- Settles O18: past `COMPARE` the count is set to the top after the write of `STATUS`; with `COMPARE` at the top the match itself ends. -/
theorem timerEnds : Obligations.TimerEnds := by
  unfold Obligations.TimerEnds
  intro n w1c ctl s hn hrun hfree hclk
  refine ⟨fun hlt => ⟨_, exec_timerEnd_of_passed w1c hrun hfree hclk hlt, ?_⟩, fun htop => ?_⟩
  · simp [timer_onTimer_same, hn]
  · have htopNat : (timer s n).compare.toNat = 0xFFFFFFFF := by rw [htop]; rfl
    have hle : (timer s n).count.toNat ≤ (timer s n).compare.toNat := by omega
    obtain ⟨v, htimers, hexec⟩ := exists_exec_timerMatch w1c ctl hrun hfree hclk hle
    rw [htopNat] at htimers hexec
    obtain ⟨hmatched, hended, hstop, hcount⟩ := timer_of_match_top htop hn htimers
    exact ⟨v, hmatched, hended, hstop, hcount, hexec⟩

end Sys2Proof.Machine
end

section
/-! The step's equations, the values of reset and the words of the Auham instructions. -/

namespace Sys2Proof.Machine
open Sys2Proof

/-- Settles O1: the two cases of `step`. -/
theorem stepTakesTheFront : Obligations.StepTakesTheFront := by
  unfold Obligations.StepTakesTheFront
  exact fun c l s => ⟨step_cons s c l, step_nil s⟩

/-- Settles O6: both sides are closed terms. -/
theorem auhamWords : Obligations.AuhamWords := by
  unfold Obligations.AuhamWords
  decide

theorem unpowered_reset : Unpowered State.reset := by
  refine ⟨rfl, rfl, rfl, rfl, rfl, ?_⟩
  intro a b h
  cases h

theorem coreForm_reset : CoreForm State.reset := by
  refine ⟨?_, rfl, rfl, rfl⟩
  intro c h
  cases h

/-- R37. -/
theorem ball_of_unpowered (x : Signal) {s : State} (hphase : s.pwr.phase = .none) (hoff : s.pwr.state = .off)
    (hvbat : s.pwr.vbatValid = false) : ball x s = .highZ ∨ ball x s = .off := by
  have hun : unpowered s = true := by simp [unpowered, hphase, hoff, hvbat]
  cases x <;> simp [ball, hun]

/-- R36. -/
theorem ball_of_inReset (x : Signal) {s : State}
    (h : s.pwr.phase = .supplied ∨ s.pwr.phase = .rails ∨ (s.pwr.phase = .none ∧ (s.pwr.state ≠ .off ∨ s.pwr.vbatValid = true))) :
    ball x s = shownInReset x := by
  have hun : unpowered s = false ∧ inReset s = true := by
    rcases h with hp | hp | ⟨hp, ho | hv⟩ <;> simp_all [unpowered, inReset]
  simp [ball, hun]

theorem ball_of_released (x : Signal) {s : State} (h : s.pwr.phase = .rom ∨ s.pwr.phase = .firmware ∨ s.pwr.phase = .ready) :
    ball x s = shownRunning x s := by
  have hun : unpowered s = false ∧ inReset s = false := by
    rcases h with hp | hp | hp <;> simp [unpowered, inReset, hp]
  simp [ball, hun]

theorem shownInReset_not_driven (x : Signal) : shownInReset x ≠ .high ∧ shownInReset x ≠ .working := by
  cases x <;> simp [shownInReset]

theorem ite_working {p : Prop} [Decidable p] : ((if p then BallState.working else .highZ) = .working) ↔ p := by
  split <;> simp_all

theorem of_bridgeOn {s : State} {c : Nat} (h : bridgeOn s c = true) : riding s = false ∧
      ((∃ b g, s.lf.cur = some b ∧ g ∈ segments b ∧ (∃ d ∈ g.2.2, d.chan = c) ∧ g.1 ≤ now s - b.started ∧
          now s - b.started < stopOf b c (if g.2.1 = b.durUs then g.2.1 + b.brakeUs else g.2.1)) ∨
        (s.lf.cur = none ∧ s.lf.soundHeld = false ∧ (bitsOf 48 s.lf.soundMask).head? = some (c - 1))) := by
  unfold bridgeOn at h
  simp only [Bool.and_eq_true, Bool.not_eq_true'] at h
  obtain ⟨hon, hride⟩ := h
  refine ⟨hride, ?_⟩
  cases hcur : s.lf.cur with
  | none => simp_all
  | some b =>
    simp only [hcur, List.any_eq_true, Bool.and_eq_true, decide_eq_true_eq, beq_iff_eq] at hon
    obtain ⟨g, hg, ⟨hfrom, hto⟩, hd⟩ := hon
    exact .inl ⟨b, g, rfl, hg, hd, hfrom, hto⟩

theorem of_portOn {s : State} {c : Nat} (h : portOn s c = true) : riding s = false ∧
    ∃ p, s.path = some p ∧ p.req.kind = .transponder ∧ p.req.port = c ∧ p.ended = false ∧
      (p.step = .tpCharge ∨ (p.step = .tpResponse ∧ p.since + 500 ≤ now s ∧ now s + 1000 < p.stepEnd)) := by
  unfold portOn at h
  cases hp : s.path with
  | none => simp [hp] at h
  | some p =>
    simp only [hp, Bool.and_eq_true, Bool.or_eq_true, decide_eq_true_eq, Bool.not_eq_true'] at h
    obtain ⟨⟨⟨⟨hkind, hport⟩, hended⟩, hride⟩, hstep⟩ := h
    refine ⟨hride, p, rfl, hkind, hport, hended, hstep.imp_right fun ⟨⟨h1, h2⟩, h3⟩ => ⟨h1, h2, h3⟩⟩

/-- Settles O2: the reset state is unpowered and closed; a ball shows what its working level, the reset and the supply let it. -/
theorem resetState : Obligations.ResetState := by
  unfold Obligations.ResetState
  refine ⟨⟨unpowered_reset, coreForm_reset, rfl, rfl, rfl, by decide, rfl, rfl, rfl, rfl, rfl, rfl, rfl⟩,
    fun x c s => ⟨ball_of_unpowered x, fun h => ?_, fun h => ?_⟩⟩
  · simp only [ball_of_inReset _ h]
    exact ⟨(shownInReset_not_driven x).1, (shownInReset_not_driven x).2, rfl, rfl, rfl, rfl, rfl, rfl, rfl, rfl, rfl, rfl, rfl, rfl, rfl, rfl, rfl⟩
  · simp only [ball_of_released _ h, shownRunning, ite_working]
    refine ⟨?_, ?_, ?_, ?_, ?_, of_bridgeOn, of_portOn⟩
    iterate 4 split <;> simp_all
    intro hrf
    split at hrf
    case isTrue htx => simpa [Option.any_eq_true] using htx
    case isFalse => cases hrf

end Sys2Proof.Machine
end

section
/-! The Auham instructions at a boundary: register forms, saturation and division, jumps and branches, loads and stores. -/

namespace Sys2Proof.Machine
open Sys2Proof

/-! ### Results (R406, R407) -/

theorem flag_decide (p : Prop) [Decidable p] : flag (decide p) = if p then 1 else 0 := by
  by_cases h : p <;> simp [flag, h]

theorem shl_eq (a b : Word) : shl a b = a <<< b.toNat := by
  unfold shl
  split
  · exact (BitVec.shiftLeft_eq_zero ‹_›).symm
  · rfl

theorem shr_eq (a b : Word) : shr a b = a >>> b.toNat := by
  unfold shr
  split
  · exact (BitVec.ushiftRight_eq_zero ‹_›).symm
  · rfl

theorem sar_eq (a b : Word) : sar a b = a.sshiftRight b.toNat := by
  unfold sar
  by_cases h : b.toNat ≤ 31
  · rw [Nat.min_eq_right h]
  · rw [Nat.min_eq_left (by omega)]
    ext i hi
    rw [BitVec.getElem_sshiftRight, BitVec.getElem_sshiftRight, dif_neg (show ¬ b.toNat + i < 32 by omega)]
    split
    · obtain rfl : i = 0 := by omega
      simp [BitVec.msb_eq_getLsbD_last, BitVec.getLsbD_eq_getElem]
    · rfl

theorem zx_toNat (imm : BitVec 16) : (zx imm).toNat = imm.toNat := by
  have := imm.isLt
  simp [zx]
  omega

theorem mulHU_eq (a b : Word) : mulHU a b = ((a.setWidth 64 * b.setWidth 64) >>> 32).setWidth 32 := by
  apply BitVec.eq_of_toNat_eq
  have ha := a.isLt
  have hb := b.isLt
  have : a.toNat * b.toNat < 2 ^ 32 * 2 ^ 32 := Nat.mul_lt_mul_of_lt_of_lt ha hb
  simp [mulHU, Nat.shiftRight_eq_div_pow]
  omega

theorem mulHS_eq (a b : Word) : mulHS a b = ((a.signExtend 64 * b.signExtend 64) >>> 32).setWidth 32 := by
  apply BitVec.eq_of_toNat_eq
  have hz : a.signExtend 64 * b.signExtend 64 = BitVec.ofInt 64 (a.toInt * b.toInt) := by
    rw [BitVec.ofInt_mul]; rfl
  rw [hz]
  generalize hab : a.toInt * b.toInt = z
  have hnonneg : 0 ≤ z % 18446744073709551616 := Int.emod_nonneg _ (by decide)
  simp only [mulHS, hab, BitVec.toNat_ofInt, BitVec.toNat_setWidth, BitVec.toNat_ushiftRight, Nat.shiftRight_eq_div_pow]
  omega

theorem saturate_eq (z : Int) : saturate z = (BitVec.ofInt 32 (max (-2147483648) (min 2147483647 z)),
    { sat := decide (z < -2147483648 ∨ 2147483647 < z) }) := by
  unfold saturate
  by_cases hhi : z > 2147483647
  · rw [if_pos hhi, show max (-2147483648) (min 2147483647 z) = 2147483647 by omega]
    simp [hhi]
  · rw [if_neg hhi]
    by_cases hlo : z < -2147483648
    · rw [if_pos hlo, show max (-2147483648) (min 2147483647 z) = -2147483648 by omega]
      simp [hlo]
    · rw [if_neg hlo, show max (-2147483648) (min 2147483647 z) = z by omega]
      simp [hlo, hhi]

theorem slt_signExtend (a : Word) (imm : BitVec 16) : a.slt (sx imm) = decide (a.toInt < imm.toInt) := by
  simp [BitVec.slt, sx, BitVec.toInt_signExtend_of_le]

/-- Settles O7: each is `compute` with its result. -/
theorem auhamArithmetic : Obligations.AuhamArithmetic := by
  unfold Obligations.AuhamArithmetic
  refine ⟨fun c gd ga imm wide s h => ?_, fun c gd ga gb s h => ?_⟩
  · dsimp only
    refine ⟨compute_at h, compute_at h, compute_at h, compute_at h, compute_next h ?_, compute_next h ?_,
      fun hi => ?_, fun hi => ?_, fun hi => ?_, compute_at h, compute_next h ?_⟩
    · rw [slt_signExtend, flag_decide]
    · rw [BitVec.ult, flag_decide, sx]
    · rw [exec_slli, execSlli, if_pos hi]
      exact compute_next h (by rw [shl_eq, zx_toNat])
    · rw [exec_srli, execSrli, if_pos hi]
      exact compute_next h (by rw [shr_eq, zx_toNat])
    · rw [exec_srai, execSrai, if_pos hi]
      exact compute_next h (by rw [sar_eq, zx_toNat])
    · simp [wordOff, sx, BitVec.mul_comm]
  · dsimp only
    refine ⟨?_, compute_at h, compute_at h, compute_at h, compute_at h, compute_next h ?_, compute_next h ?_, compute_next h ?_,
      compute_next h ?_, compute_next h ?_, compute_next h ?_, compute_at h, compute_next h ?_, compute_next h ?_⟩
    · refine ⟨_, ?_, done_at c 1 gd _ {} s⟩
      rw [exec_add, execAdd, instr_at h, if_pos rfl, lockstep_none]; rfl
    · rw [shl_eq]
    · rw [shr_eq]
    · rw [sar_eq]
    · rw [BitVec.slt, flag_decide]
    · rw [BitVec.ult, flag_decide]
    · simp
    · rw [mulHS_eq]
    · rw [mulHU_eq]

/-- Settles O8: the result is clamped to its range and the sticky bits say where it was; a division names its corner before it divides. -/
theorem auhamSaturateDivide : Obligations.AuhamSaturateDivide := by
  unfold Obligations.AuhamSaturateDivide
  intro c gd ga gb s h
  dsimp only
  refine ⟨compute_next h (saturate_eq _), compute_next h (saturate_eq _), compute_next h (saturate_eq _), fun hb => ?_, fun hb => ?_,
    fun hb ha hb1 => ?_, fun hb hc => ?_⟩
  · exact ⟨compute_next h (by rw [divS, if_pos hb]; rfl), compute_next h (by rw [divU, if_pos hb]; rfl),
      compute_next h (by rw [remS, if_pos hb]), compute_next h (by rw [remU, if_pos hb])⟩
  · exact ⟨compute_next h (by rw [divU, if_neg hb, ← BitVec.toNat_udiv, BitVec.ofNat_toNat]; simp),
      compute_next h (by rw [remU, if_neg hb, ← BitVec.toNat_umod, BitVec.ofNat_toNat]; simp)⟩
  · exact ⟨compute_next h (by rw [divS, if_neg hb, if_pos ⟨ha, hb1⟩]), compute_next h (by rw [remS, if_neg hb, if_pos ⟨ha, hb1⟩])⟩
  · have hcorner : ¬((coreOf s c).get ga = 0x80000000 ∧ (coreOf s c).get gb = 0xFFFFFFFF) := hc
    exact ⟨compute_next h (by rw [divS, if_neg hb, if_neg hcorner]), compute_next h (by rw [remS, if_neg hb, if_neg hcorner])⟩

/-! ### Jumps and branches -/

theorem put_zero (k : Core) (v : Word) : k.put 0 v = k := rfl

theorem onCore_id (c : CoreId) (s : State) : onCore c (fun k => k) s = s := by
  cases c <;> rfl

theorem finish_jumped (c : CoreId) (n : Nat) (pc : Word) (s : State) : Jumped c n pc 0 0 s (finish c n pc s) := by
  have := jumped_at c n pc 0 0 s
  simpa only [put_zero, onCore_id] using this

/-- What a branch does, by its condition. -/
theorem branch_at {c : CoreId} {s : State} (h : atBoundary c s = true) (ga gb : Reg) (offset : BitVec 16) (taken : Word → Word → Bool) :
    let k := coreOf s c
    (taken (k.get ga) (k.get gb) = true → Completes (branch c ga gb offset taken s) (Jumped c 2 (k.pc + wordOff offset) 0 0 s)) ∧
    (taken (k.get ga) (k.get gb) = false → Completes (branch c ga gb offset taken s) (Jumped c 1 (k.pc + 4) 0 0 s)) := by
  refine ⟨fun ht => ⟨_, ?_, finish_jumped ..⟩, fun ht => ⟨_, ?_, finish_jumped ..⟩⟩ <;>
    simp [branch, instr_at h, ht]

theorem wordOff_eq {n : Nat} (i : BitVec n) : wordOff i = 4 * i.signExtend 32 := BitVec.mul_comm ..

/-- A branch whose condition is a proposition. -/
theorem branch_prop {c : CoreId} {s : State} (h : atBoundary c s = true) (ga gb : Reg) (offset : BitVec 16) (taken : Word → Word → Bool)
    (p : Prop) (hp : taken ((coreOf s c).get ga) ((coreOf s c).get gb) = true ↔ p) :
    (p → Completes (branch c ga gb offset taken s) (Jumped c 2 ((coreOf s c).pc + 4 * offset.signExtend 32) 0 0 s)) ∧
    (¬p → Completes (branch c ga gb offset taken s) (Jumped c 1 ((coreOf s c).pc + 4) 0 0 s)) := by
  obtain ⟨h1, h2⟩ := branch_at h ga gb offset taken
  rw [wordOff_eq] at h1
  exact ⟨fun hp' => h1 (hp.2 hp'), fun hp' => h2 (Bool.eq_false_iff.2 fun ht => hp' (hp.1 ht))⟩

/-- Settles O9: a jump links before it goes; a branch is taken at its condition alone (`branch_at`). -/
theorem auhamControl : Obligations.AuhamControl := by
  unfold Obligations.AuhamControl
  intro c gd ga gb imm wide s h
  simp only [exec_beq, exec_bne, exec_blt, exec_bge, exec_bltu, exec_bgeu, execBeq, execBne, execBlt, execBge, execBltu, execBgeu]
  refine ⟨⟨_, ?_, jumped_at ..⟩, fun ha => ⟨_, ?_, jumped_at ..⟩, branch_prop h _ _ _ _ _ ?_, branch_prop h _ _ _ _ _ ?_,
    branch_prop h _ _ _ _ _ ?_, branch_prop h _ _ _ _ _ ?_, branch_prop h _ _ _ _ _ ?_, branch_prop h _ _ _ _ _ ?_⟩
  · rw [exec_jlnk, execJlnk, instr_at h, wordOff_eq]
  · rw [exec_jlnkr, execJlnkr, instr_at h]
    simp only [sx, ha, ne_eq, not_true_eq_false, if_false]
  · simp
  · simp
  · simp [BitVec.slt]
  · simp [BitVec.slt]
  · simp [BitVec.ult]
  · simp [BitVec.ult]

/-! ### Loads and stores (R408) -/

@[simp] theorem leBytes_length (n v : Nat) : (leBytes n v).length = n := by
  induction n generalizing v with
  | zero => rfl
  | succ n ih => simp [leBytes, ih]

theorem getD_leBytes {n j : Nat} (h : j < n) (v : Nat) : (leBytes n v).getD j 0 = byte (v / 2 ^ (8 * j)) := by
  induction n generalizing v j with
  | zero => omega
  | succ n ih =>
    cases j with
    | zero => simp [leBytes]
    | succ j =>
      have hpow : 2 ^ (8 * (j + 1)) = 256 * 2 ^ (8 * j) := by rw [Nat.mul_add, Nat.pow_add, Nat.mul_comm]
      rw [leBytes, List.getD_cons_succ, ih (by omega), hpow, Nat.div_div_eq_div_mul]

theorem byte_div_toNat (v : Word) (j : Nat) : byte (v.toNat / 2 ^ (8 * j)) = (v >>> (8 * j)).setWidth 8 := by
  apply BitVec.eq_of_toNat_eq
  simp [byte, Nat.shiftRight_eq_div_pow]

/-- The address lies in the core's own memory, for a store. -/
def storesRam (c : CoreId) (s : State) (a n : Nat) : Prop :=
  match c with | .cc => Config.ccDevice a = false | .ext => extMemOk s 2 a n = true

theorem store_ram {c : CoreId} {s : State} {a n : Nat} (h : storesRam c s a n) (v : Word) :
    store c a n v s = onCore c (fun k => { k with mem := memPut k.mem a (leBytes n v.toNat) }) s := by
  cases c <;> simp_all [storesRam, store, onCore]

/-- An aligned, admitted store runs. -/
theorem storeStep_at {c : CoreId} {s : State} {data base : Reg} {imm : BitVec 16} {n : Nat}
    (halign : ((coreOf s c).get base + imm.signExtend 32).toNat % n = 0)
    (hadmits : admits s c 2 ((coreOf s c).get base + imm.signExtend 32).toNat n = true) :
    storeStep c data base imm n s = finish c 1 ((coreOf s c).pc + 4)
      (store c ((coreOf s c).get base + imm.signExtend 32).toNat n ((coreOf s c).get data) s) := by
  have ht : accessTrap s c 2 ((coreOf s c).get base + imm.signExtend 32) n = 0 := by
    rw [accessTrap, if_neg (by rw [halign]; simp), hadmits]; rfl
  simp only [storeStep, sx, ht, ne_eq, not_true_eq_false, if_false]

theorem coreOf_finish_mem (c : CoreId) (n : Nat) (pc : Word) (s : State) : (coreOf (finish c n pc s) c).mem = (coreOf s c).mem := by
  cases c <;> rfl

/-- What an aligned, admitted store to the core's own memory leaves. -/
theorem storeStep_ram {c : CoreId} {s : State} {data base : Reg} {imm : BitVec 16} {n : Nat}
    (halign : ((coreOf s c).get base + imm.signExtend 32).toNat % n = 0)
    (hadmits : admits s c 2 ((coreOf s c).get base + imm.signExtend 32).toNat n = true)
    (hram : storesRam c s ((coreOf s c).get base + imm.signExtend 32).toNat n) :
    let k := coreOf s c
    let a := (k.get base + imm.signExtend 32).toNat
    let t := storeStep c data base imm n s
    (∀ j, j < n → memRead (coreOf t c).mem (a + j) = ((k.get data) >>> (8 * j)).setWidth 8) ∧
    (∀ b, b < a ∨ a + n ≤ b → memRead (coreOf t c).mem b = memRead k.mem b) ∧
    Jumped c 1 (k.pc + 4) 0 0 s (onCore c (fun x => { x with mem := k.mem }) t) := by
  intro k a t
  have hmem : (coreOf t c).mem = memPut k.mem a (leBytes n (k.get data).toNat) := by
    rw [show t = _ from storeStep_at halign hadmits, coreOf_finish_mem, store_ram hram]
    cases c <;> rfl
  refine ⟨fun j hj => ?_, fun b hb => ?_, ?_⟩
  · rw [hmem, memRead_memPut, leBytes_length, if_pos ⟨by omega, by omega⟩, Nat.add_sub_cancel_left, getD_leBytes hj, byte_div_toNat]
  · rw [hmem, memRead_memPut, leBytes_length, if_neg (by omega)]
  · have hback : onCore c (fun x => { x with mem := k.mem }) t = finish c 1 (k.pc + 4) s := by
      rw [show t = _ from storeStep_at halign hadmits, store_ram hram]
      cases c <;> rfl
    rw [hback]
    exact finish_jumped ..

/-- Settles O10: an aligned access of its own memory passes the checks of its address, and its bytes are those of `memReadN` and `memPut`. -/
theorem auhamMemory : Obligations.AuhamMemory := by
  unfold Obligations.AuhamMemory
  refine ⟨fun c gd ga imm s h => ?_, fun c data base imm s h => ?_⟩
  · dsimp only
    refine ⟨fun ⟨h1, h2, h3⟩ => load_at h h1 h2 h3, fun ⟨h1, h2, h3⟩ => load_at h h1 h2 h3, fun ⟨h1, h2, h3⟩ => load_at h h1 h2 h3,
      fun ⟨h1, h2, h3⟩ => load_at h h1 h2 h3, fun ⟨h1, h2, h3⟩ => ⟨_, ?_, loadStep_at (ext := id) h1 h2 h3⟩⟩
    rw [exec_lw, execLw, instr_at h, addressMismatch, if_pos rfl, lockstep_none]
  · dsimp only
    refine ⟨fun h1 h2 h3 => ⟨_, ?_, storeStep_ram h1 h2 h3⟩, fun h1 h2 h3 => ⟨_, ?_, storeStep_ram h1 h2 h3⟩,
      fun h1 h2 h3 => ⟨_, ?_, storeStep_ram h1 h2 h3⟩⟩
    · rw [exec_sb, execSb, storeFrom, instr_at h]
    · rw [exec_sh, execSh, storeFrom, instr_at h]
    · rw [exec_sw, execSw, instr_at h, addressMismatch, if_pos rfl, lockstep_none]

end Sys2Proof.Machine
end

section
/-! The words of the Auham instructions (R404, R405): the fields of the forms, and a decoder that answers an instruction to its own word. -/

namespace Sys2Proof.Machine
open Sys2Proof

/-! ### The fields of the forms (Table 18-2) -/

theorem extractLsb'_append_high {v w n : Nat} (hi : BitVec v) (lo : BitVec w) (start : Nat) :
    (hi ++ lo).extractLsb' (w + start) n = hi.extractLsb' start n := by
  rw [BitVec.extractLsb'_append_eq_of_le (Nat.le_add_right ..), Nat.add_sub_cancel_left]


section
variable (a b r : Reg) (imm : BitVec 16) (wide : BitVec 21) (fn : BitVec 11) (m : BitVec 6)

@[simp] theorem major_formI : (formI a b imm m).extractLsb' 0 6 = m := BitVec.extractLsb'_append_eq_right
@[simp] theorem major_formU : (formU a wide m).extractLsb' 0 6 = m := BitVec.extractLsb'_append_eq_right
@[simp] theorem major_formR : (formR a b r fn m).extractLsb' 0 6 = m := BitVec.extractLsb'_append_eq_right

@[simp] theorem imm_formI : (formI a b imm m).extractLsb' 6 16 = imm :=
  (extractLsb'_append_high (n := 16) (regBits a ++ regBits b ++ imm) m 0).trans BitVec.extractLsb'_append_eq_right
@[simp] theorem wide_formU : (formU a wide m).extractLsb' 6 21 = wide :=
  (extractLsb'_append_high (n := 21) (regBits a ++ wide) m 0).trans BitVec.extractLsb'_append_eq_right
@[simp] theorem function_formR : (formR a b r fn m).extractLsb' 6 11 = fn :=
  (extractLsb'_append_high (n := 11) (regBits a ++ regBits b ++ regBits r ++ fn) m 0).trans BitVec.extractLsb'_append_eq_right

@[simp] theorem gb_formR : regAt 17 (formR a b r fn m) = r :=
  congrArg BitVec.toFin <| (extractLsb'_append_high (n := 5) (regBits a ++ regBits b ++ regBits r ++ fn) m 11).trans <|
    (extractLsb'_append_high (n := 5) (regBits a ++ regBits b ++ regBits r) fn 0).trans BitVec.extractLsb'_append_eq_right
@[simp] theorem ga_formR : regAt 22 (formR a b r fn m) = b :=
  congrArg BitVec.toFin <| (extractLsb'_append_high (n := 5) (regBits a ++ regBits b ++ regBits r ++ fn) m 16).trans <|
    (extractLsb'_append_high (n := 5) (regBits a ++ regBits b ++ regBits r) fn 5).trans <|
    (extractLsb'_append_high (n := 5) (regBits a ++ regBits b) (regBits r) 0).trans BitVec.extractLsb'_append_eq_right
@[simp] theorem gd_formR : regAt 27 (formR a b r fn m) = a :=
  congrArg BitVec.toFin <| (extractLsb'_append_high (n := 5) (regBits a ++ regBits b ++ regBits r ++ fn) m 21).trans <|
    (extractLsb'_append_high (n := 5) (regBits a ++ regBits b ++ regBits r) fn 10).trans <|
    (extractLsb'_append_high (n := 5) (regBits a ++ regBits b) (regBits r) 5).trans <|
    (extractLsb'_append_high (n := 5) (regBits a) (regBits b) 0).trans BitVec.extractLsb'_eq_self
@[simp] theorem ga_formI : regAt 22 (formI a b imm m) = b :=
  congrArg BitVec.toFin <| (extractLsb'_append_high (n := 5) (regBits a ++ regBits b ++ imm) m 16).trans <|
    (extractLsb'_append_high (n := 5) (regBits a ++ regBits b) imm 0).trans BitVec.extractLsb'_append_eq_right
@[simp] theorem gd_formI : regAt 27 (formI a b imm m) = a :=
  congrArg BitVec.toFin <| (extractLsb'_append_high (n := 5) (regBits a ++ regBits b ++ imm) m 21).trans <|
    (extractLsb'_append_high (n := 5) (regBits a ++ regBits b) imm 5).trans <|
    (extractLsb'_append_high (n := 5) (regBits a) (regBits b) 0).trans BitVec.extractLsb'_eq_self
@[simp] theorem gd_formU : regAt 27 (formU a wide m) = a :=
  congrArg BitVec.toFin <| (extractLsb'_append_high (n := 5) (regBits a ++ wide) m 21).trans <|
    (extractLsb'_append_high (n := 5) (regBits a) wide 0).trans BitVec.extractLsb'_eq_self

end

/-! ### A decoder -/

/-- The instruction of major opcode 0x01 with a function value (Table 18-4). -/
noncomputable def decodeFunction (c : CoreId) (second : Word) (gd ga gb : Reg) : Nat → Option Instr
  | 0x000 => some (.add c gd ga gb second) | 0x001 => some (.sub c gd ga gb) | 0x002 => some (.and c gd ga gb)
  | 0x003 => some (.or c gd ga gb) | 0x004 => some (.xor c gd ga gb) | 0x005 => some (.sll c gd ga gb)
  | 0x006 => some (.srl c gd ga gb) | 0x007 => some (.sra c gd ga gb) | 0x008 => some (.cmplt c gd ga gb)
  | 0x009 => some (.cmpltu c gd ga gb) | 0x00A => some (.neg c gd ga) | 0x010 => some (.addsat c gd ga gb)
  | 0x011 => some (.subsat c gd ga gb) | 0x012 => some (.negsat c gd ga) | 0x020 => some (.mul c gd ga gb)
  | 0x021 => some (.mulhs c gd ga gb) | 0x022 => some (.mulhu c gd ga gb) | 0x028 => some (.divs c gd ga gb)
  | 0x029 => some (.divu c gd ga gb) | 0x02A => some (.rems c gd ga gb) | 0x02B => some (.remu c gd ga gb)
  | _ => none

/-- The system function with a function value (Table 18-5). -/
noncomputable def decodeSystem (c : CoreId) (gd ga : Reg) : Nat → Option Instr
  | 0x000 => some (.srvc c) | 0x001 => some (.brkpt c) | 0x002 => some (.tret c) | 0x003 => some (.idle c)
  | 0x010 => some (.rdstatus c gd) | 0x011 => some (.wrstatus c ga) | 0x012 => some (.rdcause c gd) | 0x013 => some (.rdtval c gd)
  | 0x014 => some (.rdtpc c gd) | 0x015 => some (.wrtpc c ga) | 0x016 => some (.rdcycle c gd) | 0x017 => some (.rdcycleh c gd)
  | _ => none

/-- The instruction that a word spells on a core, given the second core's difference, which the word does not spell (Table 18-3). -/
noncomputable def decodeAuham (c : CoreId) (second w : Word) : Option Instr :=
  let a := regAt 27 w
  let b := regAt 22 w
  let i : BitVec 16 := w.extractLsb' 6 16
  let wide : BitVec 21 := w.extractLsb' 6 21
  let fn := (w.extractLsb' 6 11).toNat
  match (w.extractLsb' 0 6).toNat with
  | 0x01 => decodeFunction c second a b (regAt 17 w) fn | 0x30 => decodeSystem c a b fn
  | 0x04 => some (.addi c a b i) | 0x05 => some (.andi c a b i) | 0x06 => some (.ori c a b i) | 0x07 => some (.xori c a b i)
  | 0x08 => some (.cmplti c a b i) | 0x09 => some (.cmpltiu c a b i) | 0x0A => some (.slli c a b i) | 0x0B => some (.srli c a b i)
  | 0x0C => some (.srai c a b i) | 0x10 => some (.movu c a wide) | 0x11 => some (.leapc c a wide)
  | 0x14 => some (.lb c a b i) | 0x15 => some (.lbu c a b i) | 0x16 => some (.lh c a b i) | 0x17 => some (.lhu c a b i)
  | 0x18 => some (.lw c a b i second) | 0x1C => some (.sb c a b i) | 0x1D => some (.sh c a b i) | 0x1E => some (.sw c a b i second)
  | 0x20 => some (.beq c a b i) | 0x21 => some (.bne c a b i) | 0x22 => some (.blt c a b i) | 0x23 => some (.bge c a b i)
  | 0x24 => some (.bltu c a b i) | 0x25 => some (.bgeu c a b i) | 0x28 => some (.jlnk c a wide) | 0x29 => some (.jlnkr c a b i)
  | _ => none

/-- A well-formed Auham instruction has a core, its word is legal there and spells it. -/
theorem decodeAuham_auhamWord {i : Instr} {v : Word} (h : auhamWord i = some v) (hwf : i.wf = true) :
    ∃ c, auhamCore i = some c ∧ auhamLegal c v = true ∧ decodeAuham c (secondCore i) v = some i := by
  cases i <;> simp only [auhamWord, reduceCtorEq, Option.some.injEq] at h
  all_goals
    subst h
    refine ⟨_, rfl, ?_, ?_⟩
    · simp_all [auhamLegal, majors, functions, Instr.wf]
    · simp [decodeAuham, decodeFunction, decodeSystem, secondCore]

/-- What is legal on the extension core is legal on the control complex (Table 18-5). -/
theorem auhamLegal_cc_of_ext {v : Word} (h : auhamLegal .ext v = true) : auhamLegal .cc v = true := by
  unfold auhamLegal at h ⊢
  dsimp only at h ⊢
  split at h
  · exact h
  · exact h
  · exact h
  · exact h
  · simp only [Bool.and_eq_true] at h ⊢
    refine h.imp_right fun h => ?_
    split at h <;> simp_all
  · exact h

/-- Settles O5: a word determines its instruction, since `decodeAuham` answers it. -/
theorem auhamWordsDiffer : Obligations.AuhamWordsDiffer := by
  unfold Obligations.AuhamWordsDiffer
  intro i j v w hi hj hiwf hjwf
  obtain ⟨c, hcore, hlegal, hdec⟩ := decodeAuham_auhamWord hi hiwf
  obtain ⟨d, hcore', -, hdec'⟩ := decodeAuham_auhamWord hj hjwf
  refine ⟨?_, fun c' hc' => ?_, fun hvw hcd hsecond => ?_, ?_⟩
  · cases c
    · exact hlegal
    · exact auhamLegal_cc_of_ext hlegal
  · obtain rfl : c = c' := Option.some.inj (hcore.symm.trans hc')
    exact hlegal
  · obtain rfl : c = d := Option.some.inj (hcore.symm.trans (hcd.trans hcore'))
    rw [hvw, hsecond] at hdec
    exact Option.some.inj (hdec.symm.trans hdec')
  · rintro ⟨gd, hmem⟩
    simp only [List.mem_cons, List.not_mem_nil, or_false] at hmem
    obtain rfl | rfl | rfl | rfl | rfl | rfl := hmem <;> cases hi <;> simp [auhamLegal]

end Sys2Proof.Machine
end

section
/-! The system functions of the Auham cores, traps and interrupts (R405, R410 to R414, Table 18-5). -/

namespace Sys2Proof.Machine
open Sys2Proof

/-! ### Traps of the control complex (R411, R412) -/

/-- A synchronous trap outside a handler enters the handler. -/
theorem ccTrap_of_not_trap {s : State} (h : s.cc.trap = false) (cause tval tpc : Word) :
    ccTrap cause tval tpc s = ccEntry cause tval tpc s := by
  simp [ccTrap, h]

@[simp] theorem coreOf_finish_pc (c : CoreId) (n : Nat) (pc : Word) (s : State) : (coreOf (finish c n pc s) c).pc = pc := by
  cases c <;> rfl

theorem elsewhere_ccEntry (cause tval tpc : Word) (s : State) : Elsewhere .cc s (ccEntry cause tval tpc s) := rfl

/-- An instruction that changes its core alone. -/
theorem elsewhere_finish (c : CoreId) (n : Nat) (pc : Word) (f : Core → Core) (s : State) : Elsewhere c s (finish c n pc (onCore c f s)) := by
  cases c <;> rfl

/-- An instruction of the control complex alone, on it. -/
theorem ccOnly_cc {s : State} (h : atBoundary .cc s = true) (w : Word) (k : State → State) : ccOnly .cc w k s = .next (k s) := by
  rw [ccOnly, instr_at h]

theorem readSpecial_cc {s : State} (h : atBoundary .cc s = true) (fn : BitVec 11) (gd : Reg) (f : Core → Word) :
    Completes (readSpecial fn .cc gd f s) (Computed .cc 1 gd (f s.cc) {} s) := by
  have hk : (fun k : Core => k.put gd (f k)) s.cc = (fun k : Core => (k.stick {}).put gd (f s.cc)) s.cc := by simp [Core.stick]
  refine ⟨_, ccOnly_cc h .., ?_⟩
  have := done_at .cc 1 gd (f s.cc) {} s
  simpa [onCore, coreOf, Core.stick] using this

/-! ### `ASTATUS` (Table 18-6) -/

theorem and_low_bits (v : Word) (n : Nat) (hn : n ≤ 32) : v &&& BitVec.ofNat 32 (2 ^ n - 1) = (v.setWidth n).setWidth 32 := by
  apply BitVec.eq_of_toNat_eq
  have hpow : 2 ^ n ≤ 2 ^ 32 := Nat.pow_le_pow_right (by decide) hn
  have hlow : (2 ^ n - 1) % 2 ^ 32 = 2 ^ n - 1 := Nat.mod_eq_of_lt (by have := Nat.two_pow_pos n; omega)
  have hmod : v.toNat % 2 ^ n < 2 ^ 32 := Nat.lt_of_lt_of_le (Nat.mod_lt _ (Nat.two_pow_pos n)) hpow
  rw [BitVec.toNat_and, BitVec.toNat_ofNat, hlow, Nat.and_two_pow_sub_one_eq_mod, BitVec.toNat_setWidth, BitVec.toNat_setWidth,
    Nat.mod_eq_of_lt hmod]

/-- Five bits and `TRAP` as `ASTATUS` of the control complex spells them. -/
theorem astatus_bits_cc (v : BitVec 5) (trap : Bool) :
    BitVec.ofNat 32 ((if v.getLsbD 0 then 1 else 0) + (if v.getLsbD 1 then 2 else 0) + (if v.getLsbD 2 then 4 else 0) +
      (if v.getLsbD 3 then 8 else 0) + (if v.getLsbD 4 then 16 else 0) + (if trap then 32 else 0)) =
    v.setWidth 32 ||| (if trap then 0x20 else 0) := by
  revert v trap; decide

/-- Three bits as `ASTATUS` of the extension core spells them. -/
theorem astatus_bits_ext (v : BitVec 3) :
    BitVec.ofNat 32 ((if v.getLsbD 0 then 1 else 0) + (if v.getLsbD 1 then 2 else 0) + (if v.getLsbD 2 then 4 else 0) + 64) =
    v.setWidth 32 ||| 0x40 := by
  revert v; decide

/-- What WRSTATUS writes on a core. -/
def withStatus (c : CoreId) (v : Word) (k : Core) : Core :=
  { k with
    ov := v.getLsbD 0, dz := v.getLsbD 1, sat := v.getLsbD 2,
    ie := (match c with | .cc => v.getLsbD 3 | .ext => k.ie), pie := (match c with | .cc => v.getLsbD 4 | .ext => k.pie) }

theorem astatus_withStatus_cc (v : Word) (k : Core) :
    astatus .cc (withStatus .cc v k) = (v &&& 0x1F) ||| (if k.trap then 0x20 else 0) := by
  simpa [astatus, withStatus, BitVec.getLsbD_setWidth, ← and_low_bits v 5 (by decide)] using astatus_bits_cc (v.setWidth 5) k.trap

theorem astatus_withStatus_ext (v : Word) (k : Core) : astatus .ext (withStatus .ext v k) = (v &&& 7) ||| 0x40 := by
  simpa [astatus, withStatus, BitVec.getLsbD_setWidth, ← and_low_bits v 3 (by decide)] using astatus_bits_ext (v.setWidth 3)

theorem extCur_of_atBoundary {s : State} (h : atBoundary .ext s = true) : s.ext.cur.isSome = true := by
  simp only [atBoundary, coreRuns, Bool.and_eq_true] at h
  exact h.1.1.1.2.2

/-- SRVC on the extension core: it stops, and with a plug-in running its requests are handed over and the invocation ends (R421). -/
theorem extTrap_service {s : State} (h : s.ext.cur.isSome = true) :
    trapAt .ext 5 0 0 ((coreOf s .ext).pc + 4) s =
    endInvocation (let u := spend .ext 4 { s with xc := { s.xc with tcause := 5, tval := 0, tpc := s.xc.pc + 4, stopped := true } }
      u.onExt (fun e => { e with requests := handedOver u })) := by
  obtain ⟨v, hv⟩ := Option.isSome_iff_exists.1 h
  simp [trapAt, extTrap, spend, onCore, coreOf, hv]

/-- `RDCYCLE` latches the high word and is a register instruction otherwise. -/
theorem rdcycle_leaves (c : CoreId) (gd : Reg) (s : State) :
    let k := coreOf s c
    let t := finish c 1 (k.pc + 4) (onCore c (fun x => { x with cycleHigh := (k.cycle >>> 32).setWidth 32 }.put gd (k.cycle.setWidth 32)) s)
    (coreOf t c).cycleHigh = (k.cycle >>> 32).setWidth 32 ∧
      Computed c 1 gd (k.cycle.setWidth 32) {} s (onCore c (fun x => { x with cycleHigh := k.cycleHigh }) t) := by
  intro k t
  have hhigh : ∀ v : Word, (Core.put { k with cycleHigh := v } gd (k.cycle.setWidth 32)).cycleHigh = v := by
    intro v; unfold Core.put; split <;> rfl
  refine ⟨?_, ?_⟩
  · cases c <;> exact hhigh _
  · have hback : onCore c (fun x => { x with cycleHigh := k.cycleHigh }) t =
        finish c 1 (k.pc + 4) (onCore c (fun x => (x.stick {}).put gd (k.cycle.setWidth 32)) s) := by
      simp only [t, k, Core.put, Core.stick, Bool.or_false]
      split <;> cases c <;> rfl
    rw [hback]
    exact done_at c 1 gd _ {} s

section
variable {s : State}

theorem exec_srvc_cc (h : atBoundary .cc s = true) (ht : s.cc.trap = false) :
    exec (.srvc .cc) s = .next (ccEntry 5 0 (s.cc.pc + 4) s) := by
  rw [exec_srvc, execSrvc, instr_at h, trapAt, ccTrap_of_not_trap ht]; rfl

theorem exec_brkpt_cc (h : atBoundary .cc s = true) (ht : s.cc.trap = false) :
    exec (.brkpt .cc) s = .next (ccEntry 4 0 s.cc.pc s) := by
  rw [exec_brkpt, execBrkpt, instr_at h]
  simp only [reduceCtorEq, decide_false, Bool.false_and, Bool.false_eq_true, if_false, trapAt, ccTrap_of_not_trap ht]
  rfl

/-- BRKPT under a SERVICE grant with debug halts the extension core (R421). -/
theorem exec_brkpt_ext (h : atBoundary .ext s = true) (hg : ∃ g, s.sec.service = some g ∧ bitSet g.2 0 = true) :
    exec (.brkpt .ext) s = .next (s.onSec (fun x => { x with halted := (x.halted.1, true) })) := by
  obtain ⟨g, hg, hbit⟩ := hg
  rw [exec_brkpt, execBrkpt, instr_at h]
  simp [hg, hbit]

theorem exec_tret_cc (h : atBoundary .cc s = true) (ha : s.cc.tpc.toNat % 4 = 0) :
    exec (.tret .cc) s = .next (finish .cc 2 s.cc.tpc (onCore .cc (fun x => { x with ie := x.pie, trap := false }) s)) := by
  rw [exec_tret, execTret, ccOnly_cc h]
  simp only [ha, ne_eq, not_true_eq_false, if_false]

/-- IDLE stalls unless an interrupt is pending. -/
theorem idle_cc (h : atBoundary .cc s = true) : Completes (exec (.idle .cc) s) (fun t =>
    t.cc.idle = s.cc.irq.isEmpty ∧ t.cc.pc = s.cc.pc + 4 ∧ t.cc.regs = s.cc.regs ∧ Elsewhere .cc s t) := by
  rw [exec_idle, execIdle, ccOnly_cc h]
  exact ⟨_, rfl, rfl, rfl, rfl, elsewhere_finish ..⟩

theorem wrtpc_cc (h : atBoundary .cc s = true) (ga : Reg) : Completes (exec (.wrtpc .cc ga) s) (fun t =>
    t.cc.tpc = s.cc.get ga ∧ t.cc.pc = s.cc.pc + 4 ∧ t.cc.regs = s.cc.regs ∧ Elsewhere .cc s t) := by
  rw [exec_wrtpc, execWrtpc, ccOnly_cc h]
  exact ⟨_, rfl, rfl, rfl, rfl, elsewhere_finish ..⟩

theorem exec_wrstatus_at {c : CoreId} (h : atBoundary c s = true) (ga : Reg) :
    exec (.wrstatus c ga) s = .next (finish c 1 ((coreOf s c).pc + 4) (onCore c (withStatus c ((coreOf s c).get ga)) s)) := by
  rw [exec_wrstatus, execWrstatus, instr_at h]
  rfl

end

/-- Settles O11: a system function either writes its register or enters its trap; on the extension core the trap ends the invocation. -/
theorem auhamSystem : Obligations.AuhamSystem := by
  unfold Obligations.AuhamSystem
  intro c gd ga s h
  dsimp only
  refine ⟨fun ht hc => ?_, fun ht hc => ?_, fun hc => ?_, fun hc hg => ?_, fun hc ha => ?_, fun hc => ?_, compute_at h, ?_,
    fun hc => ?_, fun hc => ?_, ?_, compute_at h⟩
  · subst hc
    exact ⟨_, exec_srvc_cc h ht, rfl, rfl, rfl, rfl, rfl, rfl, elsewhere_ccEntry ..⟩
  · subst hc
    exact ⟨_, exec_brkpt_cc h ht, rfl, rfl, rfl, rfl, rfl, rfl, elsewhere_ccEntry ..⟩
  · subst hc
    rw [exec_srvc, execSrvc, instr_at h]
    exact ⟨_, rfl, extTrap_service (extCur_of_atBoundary h)⟩
  · subst hc
    exact ⟨_, exec_brkpt_ext h hg, rfl⟩
  · subst hc
    exact ⟨_, exec_tret_cc h ha, rfl, rfl, rfl, rfl, elsewhere_finish ..⟩
  · subst hc
    exact idle_cc h
  · refine ⟨_, exec_wrstatus_at h ga, ?_, coreOf_finish_pc .., ?_, elsewhere_finish ..⟩
    · cases c
      · exact astatus_withStatus_cc ..
      · exact astatus_withStatus_ext _ s.xc
    · cases c <;> rfl
  · subst hc
    rw [exec_rdcause, exec_rdtval, exec_rdtpc]
    exact ⟨readSpecial_cc h 0x012 gd Core.tcause, readSpecial_cc h 0x013 gd Core.tval, readSpecial_cc h 0x014 gd Core.tpc⟩
  · subst hc
    exact wrtpc_cc h ga
  · rw [exec_rdcycle, execRdcycle, instr_at h]
    exact ⟨_, rfl, rdcycle_leaves c gd s⟩

/-! ### Traps from outside the instruction and misaligned accesses (R405, R410, R411) -/

section
variable {s : State}

theorem exec_illegalInstruction_cc (h : atBoundary .cc s = true) (ht : s.cc.trap = false) {word : Word} (hw : auhamLegal .cc word = false) :
    exec (.illegalInstruction .cc word) s = .next (ccEntry 1 word s.cc.pc s) := by
  rw [exec_illegalInstruction, execIllegalInstruction, hw, instr_at h, illegal, trapAt, ccTrap_of_not_trap ht]
  rfl

/-- A line becomes pending and ends an IDLE. -/
def pendingLine (line : Nat) (s : State) : State :=
  onCore .cc (fun k => { k with irq := if k.irq.contains line then k.irq else k.irq ++ [line], idle := false }) s

theorem exec_interrupt_of_lt {line : Nat} (h : line < 256) : exec (.interrupt line) s = .next (
    if coreRuns (pendingLine line s) .cc && s.cc.ie then takeIrq (pendingLine line s) else pendingLine line s) := by
  rw [exec_interrupt, execInterrupt, if_neg (by omega)]
  rfl

theorem coreRuns_pendingLine (line : Nat) : coreRuns (pendingLine line s) .cc = coreRuns { s with cc := { s.cc with idle := false } } .cc := rfl

theorem mem_pendingLine (line : Nat) :
    line ∈ (pendingLine line s).cc.irq ∧ ∀ l, l ∈ s.cc.irq → l ∈ (pendingLine line s).cc.irq := by
  by_cases h : s.cc.irq.contains line = true <;> simp_all [pendingLine, onCore]

/-- What a trap on a misaligned or forbidden access leaves. -/
theorem ccEntry_leaves (cause tval tpc : Word) : 
    let t := ccEntry cause tval tpc s
    t.cc.tcause = cause ∧ t.cc.tval = tval ∧ t.cc.tpc = tpc ∧ t.cc.pc = Config.trapVector 0 ∧ t.cc.regs = s.cc.regs ∧ t.cc.mem = s.cc.mem ∧
      Elsewhere .cc s t :=
  ⟨rfl, rfl, rfl, rfl, rfl, rfl, rfl⟩

theorem accessTrap_misaligned {c : CoreId} {kind n : Nat} {a : Word} (h : a.toNat % n ≠ 0) : accessTrap s c kind a n = 2 := by
  rw [accessTrap, if_pos h]

section
variable (ht : s.cc.trap = false) {gd ga : Reg} {imm : BitVec 16} {n : Nat} (ha : (s.cc.get ga + imm.signExtend 32).toNat % n ≠ 0)
include ht ha

theorem loadStep_misaligned (ext : Word → Word) :
    loadStep .cc gd ga imm n ext s = ccEntry (BitVec.ofNat 32 (2 + 256 * 1)) (s.cc.get ga + imm.signExtend 32) s.cc.pc s := by
  simp only [loadStep, coreOf, sx, accessTrap_misaligned ha, trapAt, ccTrap_of_not_trap ht]
  rfl

theorem storeStep_misaligned :
    storeStep .cc gd ga imm n s = ccEntry (BitVec.ofNat 32 (2 + 256 * 2)) (s.cc.get ga + imm.signExtend 32) s.cc.pc s := by
  simp only [storeStep, coreOf, sx, accessTrap_misaligned ha, trapAt, ccTrap_of_not_trap ht]
  rfl

end

theorem exec_jlnkr_misaligned (h : atBoundary .cc s = true) (ht : s.cc.trap = false) {gd ga : Reg} {imm : BitVec 16}
    (ha : (s.cc.get ga + imm.signExtend 32).toNat % 4 ≠ 0) :
    exec (.jlnkr .cc gd ga imm) s = .next (ccEntry (BitVec.ofNat 32 (2 + 256 * 3)) (s.cc.get ga + imm.signExtend 32) s.cc.pc s) := by
  rw [exec_jlnkr, execJlnkr, instr_at h]
  simp only [coreOf, sx, ne_eq, ha, not_false_eq_true, if_true, trapAt, ccTrap_of_not_trap ht]

/-- A trap entered at a boundary completes the instruction. -/
theorem completes_trap {i : Instr} {kind : Nat} {a : Word}
    (hx : exec i s = .next (ccEntry (BitVec.ofNat 32 (2 + 256 * kind)) a s.cc.pc s)) :
    Completes (exec i s) (fun t => t.cc.tcause = BitVec.ofNat 32 (2 + 256 * kind) ∧ t.cc.tval = a ∧
      t.cc.tpc = s.cc.pc ∧ t.cc.pc = Config.trapVector 0 ∧ t.cc.regs = s.cc.regs ∧ t.cc.mem = s.cc.mem ∧ Elsewhere .cc s t) :=
  ⟨_, hx, ccEntry_leaves ..⟩

end

/-! ### Lockstep (R414) -/


theorem addressMismatch_of_traps {kind n : Nat} {a second : Word} {s : State} (hs : second ≠ 0)
    (h : accessTrap s .cc kind a n ≠ 0 ∨ accessTrap s .cc kind (a ^^^ second) n ≠ 0) : addressMismatch .cc kind a second n s = some 2 := by
  rw [addressMismatch, if_neg hs, if_pos (by simpa using h)]

theorem addressMismatch_of_no_trap {kind n : Nat} {a second : Word} {s : State} (hs : second ≠ 0)
    (h : ¬(accessTrap s .cc kind a n ≠ 0 ∨ accessTrap s .cc kind (a ^^^ second) n ≠ 0)) : addressMismatch .cc kind a second n s = some 1 := by
  rw [addressMismatch, if_neg hs, if_neg (by simpa using h)]

theorem exec_lw_at {c : CoreId} {s : State} (h : atBoundary c s = true) (gd ga : Reg) (imm : BitVec 16) (second : Word) :
    exec (.lw c gd ga imm second) s = .next (lockstep c (addressMismatch c 1 ((coreOf s c).get ga + imm.signExtend 32) second 4 s)
      (loadStep c gd ga imm 4 id s)) := by
  rw [exec_lw, execLw, instr_at h]; rfl

theorem exec_sw_at {c : CoreId} {s : State} (h : atBoundary c s = true) (data base : Reg) (imm : BitVec 16) (second : Word) :
    exec (.sw c data base imm second) s = .next (lockstep c (addressMismatch c 2 ((coreOf s c).get base + imm.signExtend 32) second 4 s)
      (storeStep c data base imm 4 s)) := by
  rw [exec_sw, execSw, instr_at h]; rfl

theorem exec_add_at {c : CoreId} {s : State} (h : atBoundary c s = true) (gd ga gb : Reg) (second : Word) :
    exec (.add c gd ga gb second) s = .next (lockstep c (if second = 0 then none else some 0)
      (aluStep c 1 gd (fun k => (k.get ga + k.get gb, {})) s)) := by
  rw [exec_add, execAdd, instr_at h]

@[simp] theorem addressMismatch_zero (c : CoreId) (kind : Nat) (a : Word) (n : Nat) (s : State) : addressMismatch c kind a 0 n s = none := rfl

/-- Where the second core differs, the same step is carried out and `EV_LOCKSTEP` follows. -/
theorem completes_lockstep {i j : Instr} {k : Nat} {s v : State} (hi : exec i s = .next v) (hj : exec j s = .next (lockstep .cc (some k) v)) :
    ∀ u, exec i s = .next u → Completes (exec j s) (fun t => t = f3Fault evLockstep [byte k] u) := by
  intro u hu
  rw [hi] at hu
  cases hu
  exact ⟨_, hj, rfl⟩

/-! ### Stranded by an F3 fault (R457) -/

@[simp] theorem takeRole_pwr_state (r : Role) (s : State) : (takeRole r s).pwr.state = s.pwr.state := by
  simp [takeRole, emitT]

@[simp] theorem wires_pwr_state (s : State) : (wires s).pwr.state = s.pwr.state := rfl

@[simp] theorem setPower_pwr_state (o : EvOpt) (p : Power) (s : State) : (setPower o p s).pwr.state = p := by
  simp [setPower]


@[simp] theorem persistStranded_pwr (s : State) : (persistStranded s).pwr = s.pwr := by
  unfold persistStranded; split <;> rfl

@[simp] theorem sendBlock_pwr (n : Nat) (b : Bytes) (s : State) : (sendBlock n b s).pwr = s.pwr := by
  unfold sendBlock sendFlagged; split <;> rfl

@[simp] theorem awake_emitX (a b : Nat) (p : Bytes) (o : EvOpt) (s : State) : awake (emitX a b p o s) = awake s := by
  simp [awake, running]

theorem awake_congr {s t : State} (hstate : t.pwr.state = s.pwr.state) (hphase : t.pwr.phase = s.pwr.phase) : awake t = awake s := by
  simp [awake, running, hstate, hphase]

theorem enterStrandedBy_state {s : State} (h : awake s = true) (ref : Nat × Nat) (f3 : Bool) (sensors : Nat) (tell : Bool) :
    (enterStrandedBy ref f3 sensors tell s).pwr.state = .stranded := by
  unfold enterStrandedBy
  extract_lets s1 wanted s2 s3 yields s4 s5
  have h2 : s2.pwr.state = s.pwr.state ∧ s2.pwr.phase = s.pwr.phase := by
    have hw : wanted.pwr.state = s.pwr.state ∧ wanted.pwr.phase = s.pwr.phase := ⟨rfl, rfl⟩
    unfold s2
    split
    · have hp := persistStranded_pwr wanted
      split
      · exact ⟨(congrArg Pwr.state hp).trans hw.1, (congrArg Pwr.phase hp).trans hw.2⟩
      · exact hw
    · exact ⟨rfl, rfl⟩
  have h3 : s3.pwr = s2.pwr := by
    unfold s3
    split
    · simp
    · rfl
  have h4 : s4.pwr = s3.pwr := by
    unfold s4
    split
    · simp
    · rfl
  have h5 : s5.pwr.state = .stranded := by
    simp only [s5, (awake_congr (by rw [h4, h3, h2.1]) (by rw [h4, h3, h2.2])).trans h, if_true, setPower_pwr_state]
  split
  · rw [takeRole_pwr_state, h5]
  · rw [wires_pwr_state, h5]

theorem f3Fault_state {s : State} (h : awake s = true) (code : Nat) (params : Bytes) : (f3Fault code params s).pwr.state = .stranded :=
  enterStrandedBy_state (by simpa [emit] using h) ..

/-- Settles O12: each trap is entered with its own cause and value before anything of the instruction is done. -/
theorem auhamTraps : Obligations.AuhamTraps := by
  unfold Obligations.AuhamTraps
  refine ⟨fun word line r s => ⟨fun h ht hw => ?_, fun hl hie => ?_, fun hl hie hirq hr => ?_, fun hr => ?_, fun hst hn => ?_, fun hst hn => ?_⟩,
    fun gd ga imm s h ht => ?_, fun gd ga gb imm second s hs => ?_⟩
  · exact ⟨_, exec_illegalInstruction_cc h ht hw, rfl, rfl, rfl, rfl, rfl⟩
  · obtain ⟨hline, hold⟩ := mem_pendingLine (s := s) line
    exact ⟨_, by rw [exec_interrupt_of_lt hl, hie, Bool.and_false, if_neg Bool.false_ne_true], hline, hold, rfl, rfl, rfl⟩
  · have hpend : (pendingLine line s).cc.irq = [line] := by simp [pendingLine, onCore, hirq]
    rw [exec_interrupt_of_lt hl, coreRuns_pendingLine, hr, hie, Bool.and_self, if_pos rfl]
    refine ⟨_, rfl, ?_⟩
    simp only [takeIrq, hpend, Nat.mod_eq_of_lt hl]
    exact ⟨rfl, rfl, rfl, hie, rfl, rfl⟩
  · rw [exec_ccWatchdogWarning, execCcWatchdogWarning]
    refine ⟨_, congrArg _ (if_pos hr), rfl, rfl, rfl, rfl⟩
  · rw [exec_registerWrite, execRegisterWrite]
    simp only [hst, hn, ne_eq, not_false_eq_true, decide_true, Bool.and_self, if_true]
    exact ⟨_, rfl, rfl, rfl⟩
  · rw [exec_registerWrite, execRegisterWrite]
    simp only [hst, hn, ne_eq, not_false_eq_true, decide_true, Bool.and_self, if_true]
    exact ⟨_, rfl, rfl⟩
  · dsimp only
    refine ⟨fun ha => ⟨completes_trap ?_, completes_trap ?_, completes_trap ?_⟩, fun ha => ⟨completes_trap ?_, completes_trap ?_,
      completes_trap (exec_jlnkr_misaligned h ht ha)⟩⟩
    · rw [exec_lh, execLh, loadInto, instr_at h, loadStep_misaligned ht ha]
    · rw [exec_lhu, execLhu, loadInto, instr_at h, loadStep_misaligned ht ha]
    · rw [exec_sh, execSh, storeFrom, instr_at h, storeStep_misaligned ht ha]
    · rw [exec_lw_at h, addressMismatch_zero, lockstep_none, loadStep_misaligned ht ha]
    · rw [exec_sw_at h, addressMismatch_zero, lockstep_none, storeStep_misaligned ht ha]
  · dsimp only
    refine ⟨fun h => ?_, fun h ht => ?_, fun h ht => ?_, fun h ht => ?_, fun h ht => ?_, ?_, ?_, ?_, fun h => f3Fault_state h ..⟩
    · refine completes_lockstep (exec_add_at h ..) ?_
      rw [exec_add_at h, if_neg hs, if_pos rfl, lockstep_none]
    · refine completes_lockstep (exec_lw_at h ..) ?_
      rw [exec_lw_at h, addressMismatch_zero, lockstep_none]
      exact congrArg (fun k => Host.Outcome.next (lockstep .cc k _)) (addressMismatch_of_traps hs ht)
    · refine completes_lockstep (exec_lw_at h ..) ?_
      rw [exec_lw_at h, addressMismatch_zero, lockstep_none]
      exact congrArg (fun k => Host.Outcome.next (lockstep .cc k _)) (addressMismatch_of_no_trap hs ht)
    · refine completes_lockstep (exec_sw_at h ..) ?_
      rw [exec_sw_at h, addressMismatch_zero, lockstep_none]
      exact congrArg (fun k => Host.Outcome.next (lockstep .cc k _)) (addressMismatch_of_traps hs ht)
    · refine completes_lockstep (exec_sw_at h ..) ?_
      rw [exec_sw_at h, addressMismatch_zero, lockstep_none]
      exact congrArg (fun k => Host.Outcome.next (lockstep .cc k _)) (addressMismatch_of_no_trap hs ht)
    · rw [exec_add, exec_add]; rfl
    · rw [exec_lw, exec_lw]; rfl
    · rw [exec_sw, exec_sw]; rfl

end Sys2Proof.Machine
end

section
/-! Rows of mailbox commands: a wrong length, and what a reading command leaves (O15, O16). -/

namespace Sys2Proof.Machine
open Sys2Proof

/-- A row that runs under its opcode and looks at the length first, answers a wrong one. -/
theorem runCmd_wrong_length {op n : Nat} {m : MbxCmd} {ref : CmdRef} {s u : State} {k : CmdRef → Bytes → State → State → State}
    (h : begun op m s = some (ref, u)) (hn : m.payload.length ≠ n) :
    runCmd op m s (fun r p v => needLen n p r v (k r p v)) = respond ref stBadLength [] u := by
  rw [runCmd_begun h, needLen_ne hn]

/-- Settles O15: every listed row looks at its length before all else. -/
theorem fixedLengths : Obligations.FixedLengths := by
  unfold Obligations.FixedLengths
  intro temp found f op n m ref s u hrow h hn
  refine ⟨?_, talkFrame_respond ..⟩
  dsimp only at hrow
  have hrun : ∃ k : CmdRef → Bytes → State → State → State, exec (f m) s = .next (runCmd op m s (fun r p v => needLen n p r v (k r p v))) := by
    repeat
      cases hrow with
      | head => exact ⟨_, rfl⟩
      | tail _ hrow => ?_
    cases hrow
  obtain ⟨k, hrun⟩ := hrun
  rw [hrun, runCmd_wrong_length h hn]

/-- A check leaves what its continuation leaves: a refusal is only an answer. -/
@[simp] theorem talkFrame_need {c : Bool} {r : CmdRef} {n : Nat} {s : State} {k : State → State} (h : talkFrame (k s) = talkFrame s) :
    talkFrame (need c r n s k) = talkFrame s := by
  unfold need; split
  · exact h
  · exact talkFrame_respond ..
@[simp] theorem talkFrame_needLen {n : Nat} {p : Bytes} {r : CmdRef} {s : State} {k : State → State} (h : talkFrame (k s) = talkFrame s) :
    talkFrame (needLen n p r s k) = talkFrame s := talkFrame_need h
@[simp] theorem talkFrame_onFlt (s : State) (f : Flt → Flt) : talkFrame (s.onFlt f) = talkFrame s := rfl
@[simp] theorem talkFrame_wires (s : State) : talkFrame (wires s) = talkFrame s := rfl

/-- A row runs under its opcode, and whatever its payload, it changes nothing but what carries its answer. -/
def ReadsOnly (row : (MbxCmd → Instr) × Nat) : Prop :=
  ∃ body : CmdRef → Bytes → State → State, (∀ m s, exec (row.1 m) s = .next (runCmd row.2 m s body)) ∧ ∀ r p v, talkFrame (body r p v) = talkFrame v

theorem readsOnly_paramGet : ReadsOnly (.paramGet, 0x0104) :=
  ⟨_, fun _ _ => rfl, fun _ _ _ => talkFrame_need (talkFrame_needLen (talkFrame_need (talkFrame_reply ..)))⟩
theorem readsOnly_zoneRead : ReadsOnly (.zoneRead, 0x0301) :=
  ⟨_, fun _ _ => rfl, fun _ _ _ => talkFrame_needLen (talkFrame_need (by split <;> simp))⟩
theorem readsOnly_tokenRead : ReadsOnly (.tokenRead, 0x0402) :=
  ⟨_, fun _ _ => rfl, fun _ _ _ => talkFrame_needLen (talkFrame_need (by split <;> simp))⟩
theorem readsOnly_regRecordRead : ReadsOnly (.regRecordRead, 0x0703) :=
  ⟨_, fun _ _ => rfl, fun _ _ _ => talkFrame_needLen (by split <;> simp)⟩
theorem readsOnly_objectRead : ReadsOnly (.objectRead, 0x0A04) :=
  ⟨_, fun _ _ => rfl, fun _ _ _ => talkFrame_needLen (talkFrame_need (by dsimp only; split <;> simp))⟩
/-- The pseudo-entry of lost faults belongs to the fault handling, which the frame leaves out. -/
theorem readsOnly_faultList : ReadsOnly (.faultList, 0x0107) :=
  ⟨_, fun _ _ => rfl, fun _ _ v => talkFrame_needLen (by
    rw [talkFrame_reply]
    split <;> simp)⟩

/-- Settles O16: every reading row answers after its checks; only `FAULT_LIST` touches a state, that of the fault handling. -/
theorem readsChangeNothing : Obligations.ReadsChangeNothing := by
  unfold Obligations.ReadsChangeNothing
  intro f op m ref s u hrow h
  have hread : ReadsOnly (f, op) := by
    revert hrow
    generalize (f, op) = row
    revert row
    simp only [List.forall_mem_cons, List.not_mem_nil, false_implies, implies_true, and_true]
    refine ⟨?_, ?_, ?_, ?_, readsOnly_paramGet, ?_, readsOnly_zoneRead, ?_, ?_, readsOnly_tokenRead, ?_, ?_, ?_, ?_, readsOnly_regRecordRead, ?_, ?_, ?_, ?_,
      readsOnly_objectRead, ?_, ?_, ?_, ?_, ?_, readsOnly_faultList⟩ <;> exact ⟨_, fun _ _ => rfl, fun _ _ _ => by simp⟩
  obtain ⟨body, hrun, hframe⟩ := hread
  rw [hrun, runCmd_begun h]
  exact ⟨_, rfl, hframe ..⟩

end Sys2Proof.Machine
end

section
/-! The commands of the host: what each does once its checks pass. -/

namespace Sys2Proof.Machine
open Sys2Proof

@[simp] theorem wires_pwr_persistWanted (s : State) : (wires s).pwr.persistWanted = s.pwr.persistWanted := rfl
@[simp] theorem setPower_pwr_persistWanted (o : EvOpt) (p : Power) (s : State) : (setPower o p s).pwr.persistWanted = s.pwr.persistWanted := by
  simp [setPower]

/-- Settles O23: each begun command passes its checks in turn and answers. -/
theorem linkAndSystemCommands : Obligations.LinkAndSystemCommands := by
  unfold Obligations.LinkAndSystemCommands
  refine ⟨fun m s ref u => ⟨fun hr hc hl => ?_, fun h hc => ?_, fun h hp => ?_, fun h hp => ?_, fun nD v h hp hst hk hpin hf hl hd => ?_,
    fun o h hp ho hc => ?_⟩, fun m s ref u => ⟨fun h hp => ?_, fun h hp ha hn => ?_, fun h hp => ?_, fun h hp => ?_,
      fun h n h1 hn hp h0 hz hr => ?_, fun h hp hb => ?_, fun h hp hb => ?_, fun h hp hs hf hh hr hv hw => ?_, fun h hp hl => ?_, fun h hm hp => ?_,
      fun h hm hp h1 h7 hz => ?_, fun old ho hs hn hj => ?_⟩⟩
  · rw [exec_hello, execHello, hr, hc, if_pos (by simpa using hl)]
  · rw [exec_hello, execHello, if_neg (by simp [hc]), runCmd_begun h]
  · rw [exec_caps, execCaps, runCmd_begun h, needLen_eq (by rw [hp]; rfl)]
    exact ⟨[_, _, _, _, _, _, _, _, _, _, _, _], rfl, rfl⟩
  · rw [exec_ping, execPing, runCmd_begun h, need_true (by simpa using hp)]
  · rw [exec_secureOpen, execSecureOpen, runCmd_begun h, needLen_eq hp]
    have hdown : rngDown u = false := by simp [rngDown, hf, hl]
    rw [need_true, need_true hk, need_true (by rw [hpin]; rfl), need_true (by rw [hdown]; rfl), hd]
    cases hs : (u.box ref.member).storm with
    | none => rfl
    | some at_ => simpa using hst at_ hs
  · rw [exec_secureConfirm, execSecureConfirm, runCmd_begun h, needLen_eq hp]
    simp only [ho, hc, Bool.false_eq_true, if_false, beq_iff_eq]
  · rw [exec_sysStatus, execSysStatus, runCmd_begun h, needLen_eq (by rw [hp]; rfl)]
    exact ⟨_, rfl⟩
  · rw [exec_powerRequest, execPowerRequest, runCmd_begun h, needLen_eq (by rw [hp]; rfl), need_true (by rw [hp]; rfl), need_true (by rw [ha, hn]; rfl)]
  · rw [exec_resetCause, execResetCause, runCmd_begun h, needLen_eq (by rw [hp]; rfl)]
  · rw [exec_sysReset, execSysReset, runCmd_begun h, needLen_eq (by rw [hp]; rfl), need_true (by rw [hp]; rfl)]
  · rw [exec_paramGet, execParamGet, runCmd_begun h]
    rw [h0, need_true, needLen_eq hp, need_true]
    · rw [List.flatMap_map]
    · simpa [hz] using hr
    · simp [h1]; split <;> omega
  · rw [exec_paramSet, execParamSet, runCmd_begun h, hp]
    simp only [hb, Bool.false_eq_true, if_false]
  · rw [exec_paramSet, execParamSet, runCmd_begun h, hp]
    simp only [hb, if_true]
  · rw [exec_strandedExit, execStrandedExit, runCmd_begun h, needLen_eq (by rw [hp]; rfl), need_true (by simpa using hs), need_true]
    · dsimp only
      rw [if_neg (by simp [activity, neapStir, hw])]
    · cases hn : u.flt.handling with
      | none => simp [hf, hr, hv]
      | some k => simp [hf, hr, hv, hh k hn]
  · rw [exec_faultList, execFaultList, runCmd_begun h, needLen_eq (by rw [hp]; rfl)]
    simp [hl]
  · rw [exec_evtFetch, execEvtFetch, runCmd_begun h]
    dsimp only
    rw [needLen_eq (by rw [hp]; rfl), need_true, if_pos hm]
    rw [hp]; simp only [u8, zeros]; split <;> rfl
  · rw [exec_evtFetch, execEvtFetch, runCmd_begun h]
    dsimp only
    rw [needLen_eq hp, need_true, if_neg (Classical.not_not.mpr hm)]
    simp [h1, hz]; split <;> omega
  · rw [exec_transportTrialExpiry, execTransportTrialExpiry, ho]
    dsimp only
    rw [if_neg]
    have hrev : reverting s = false := by simpa [reverting, or_imp, forall_and] using hj
    simp [hs, hn, hrev]

@[simp] theorem le16_length (v : Nat) : (le16 v).length = 2 := rfl
@[simp] theorem le32_length (v : Nat) : (le32 v).length = 4 := rfl
@[simp] theorem le48_length (v : Nat) : (le48 v).length = 6 := rfl
@[simp] theorem resultFields_length (s : State) (r : Option RResult) : (resultFields s r).length = 4 := by
  unfold resultFields; split <;> rfl
/-- Pieces of one length make up their number times that length. -/
theorem length_flatMap_of_forall {α : Type} {f : α → Bytes} {l : List α} (n : Nat) (h : ∀ x ∈ l, (f x).length = n) :
    (l.flatMap f).length = n * l.length := by
  induction l with
  | nil => rfl
  | cons a l ih =>
    rw [List.flatMap_cons, List.length_append, h a (by simp), ih fun x hx => h x (by simp [hx]), List.length_cons, Nat.mul_succ, Nat.add_comm]
theorem foldl_keeps {σ α γ : Type} {f : σ → α → σ} (g : σ → γ) (h : ∀ x k, g (f x k) = g x) (l : List α) (x : σ) : g (l.foldl f x) = g x := by
  induction l generalizing x with
  | nil => rfl
  | cons k l ih => exact (ih _).trans (h x k)
/-- A byte that reads 0 is 0. -/
theorem getD_of_u8_zero {p : Bytes} {i : Nat} (h : u8 p i = 0) : p.getD i 0 = 0 := BitVec.eq_of_toNat_eq h
theorem learnFieldsOk_of {p : Bytes} (hi : u16 p 0 < 512) (h3 : u8 p 3 = 0) (h28 : u8 p 28 = 0) (hz : zeros p 29 3 = true)
    (h4 : u32 p 4 ≠ 0) (h4' : u32 p 4 ≠ 0xFFFFFFFF) : learnFieldsOk p = true := by
  simp [learnFieldsOk, hi, h3, h28, hz, h4, h4']

/-- Settles O30: each begun command passes its checks in turn; what is written waits for the store. -/
theorem zoneAndTokenCommands : Obligations.ZoneAndTokenCommands := by
  unfold Obligations.ZoneAndTokenCommands
  refine fun m s ref u => ⟨fun h h1 h6 hl h0 hz ho => ?_, fun h h1 hl h0 hz => ?_, fun h hl h0 hz => ?_, fun h h1 h8 h20 h16 hl ho => ?_,
    fun h hp => ?_, fun k h hl hi h3 h28 hz h4 h4' hk ht hn hr => ?_, fun b h hl hz ht => ?_, fun h hl hi hz ht => ?_⟩
  · rw [exec_zoneWrite, execZoneWrite, runCmd_begun h, need_true (by simp [h1, h6]), needLen_eq (by simp [h1, hl]), need_true (by simp [h0, hz, ho])]
    simp only [h1, Nat.succ_ne_self, if_false]
  · rw [exec_zoneWrite, execZoneWrite, runCmd_begun h, need_true (by simp [h1]), needLen_eq (by simp [h1, hl]), need_true (by simp [h0, hz, h1])]
    simp only [h1, if_true]
  · rw [exec_zoneRead, execZoneRead, runCmd_begun h, needLen_eq hl, need_true (by simp [h0, hz])]
    cases zoneDef u (u8 m.payload 0) <;> rfl
  · rw [exec_synthGroupWrite, execSynthGroupWrite, runCmd_begun h, need_true (by simp [h1, h8, h20, h16]), needLen_eq hl, need_true ho]
  · rw [exec_zoneState, execZoneState, runCmd_begun h, needLen_eq (by rw [hp]; rfl)]
    exact ⟨_, by rw [length_flatMap_of_forall 12 (fun l _ => by simp [resultFields_length]), Nat.mul_comm], rfl⟩
  · rw [exec_tokenLearn, execTokenLearn, runCmd_begun h, needLen_eq hl, need_true (learnFieldsOk_of hi h3 h28 hz h4 h4'), hk]
    have hidx : u16 m.payload 0 ≠ 0xFFFF := by omega
    simp only [ht, hn, hr, hidx, if_false, List.any_nil, Option.isNone_none, Option.isSome_none, Bool.not_false, Bool.and_self, Bool.or_self, need, if_true,
      tokenBody, getD_of_u8_zero h3, getD_of_u8_zero h28]
  · rw [exec_tokenRevoke, execTokenRevoke, runCmd_begun h, needLen_eq hl, ht]
    exact congrArg _ (need_true hz ..)
  · rw [exec_tokenRead, execTokenRead, runCmd_begun h, needLen_eq hl, need_true (by simp [hi, hz]), ht]

theorem onLf_congr {f g : Lf → Lf} {s : State} (h : f s.lf = g s.lf) : s.onLf f = s.onLf g := by simp only [State.onLf, h]

/-- Settles O28: each begun command passes its checks in turn. -/
theorem lfCommands : Obligations.LfCommands := by
  unfold Obligations.LfCommands
  refine fun m temp found s ref u => ⟨fun h h1 h8 hl ho ht hb => ?_, fun h hl h1 h48 hz => ?_, fun h hl h1 h48 h0 hz hc hs => ?_,
    fun h hl h1 h48 h0 hz hf hc => ?_, fun h hl h1 h48 h0 hz hf => ?_, fun h hl hz hb hc hm => ?_, fun h hl hz => ?_, fun h hl h1 h48 hz => ?_⟩
  · intro v inc brake b hchk hth
    have hplan : hostBurst ref m.payload v = (b, v) := by rw [hostBurst]; exact if_pos ht
    rw [exec_lfBurst, execLfBurst, runCmd_begun h, need_true (by simp [h1, h8]), needLen_eq hl, need_true ho, need_true (by simp [ht]),
      need_true (by rw [hb]; rfl), hplan]
    simp only [hchk, hth, Bool.not_true, Bool.false_eq_true, if_false]
  · rw [exec_lfChannelStatus, execLfChannelStatus, runCmd_begun h, needLen_eq hl, need_true (by simp [h1, h48, hz])]
  · rw [exec_lfChannelEnable, execLfChannelEnable, runCmd_begun h, needLen_eq hl, need_true (by simp [h1, h48, hz, h0]), need_true (by simp [h0])]
    simp [hc, hs, h0, applyEnable]
  · rw [exec_lfChannelEnable, execLfChannelEnable, runCmd_begun h, needLen_eq hl, need_true (by simp [h1, h48, hz, h0]), need_true (by simp [hf]),
      if_pos (by simpa using hc), h0]
    rfl
  · rw [exec_lfChannelEnable, execLfChannelEnable, runCmd_begun h, needLen_eq hl, need_true (by simp [h1, h48, hz, h0]), need_false (by simp [hf, h0])]
  · rw [exec_lfSounding, execLfSounding, runCmd_begun h, needLen_eq hl, need_true hz, need_true (by rw [hb]; rfl)]
    simp only [hc, hm, if_false]
    refine congrArg (fun t => Host.Outcome.next (accepted ref t)) (onLf_congr ?_)
    by_cases hmask : u.lf.soundMask = 0 <;> simp [hmask]
  · rw [exec_lfSounding, execLfSounding, runCmd_begun h, needLen_eq hl, need_false hz]
  · rw [exec_couplingRead, execCouplingRead, runCmd_begun h, needLen_eq hl, need_true (by simp [h1, h48, hz])]
    have hcols : ∀ ent : Nat → Bytes, (∀ c, (ent c).length = 4) → (((List.range 48).map (· + 1)).flatMap ent).length = 192 := fun ent he => by
      rw [length_flatMap_of_forall 4 (fun c _ => he c), List.length_map, List.length_range]
    simp only [List.append_assoc ([byte (u8 m.payload 0), 0] ++ le32 _)]
    refine ⟨_, ?_, rfl⟩
    simp only [List.length_append]
    rw [hcols _ fun c => by split <;> rfl]
    rfl

/-! ### An access session's end keeps the start session -/

@[simp] theorem askCommit_rel (i v : Nat) (s : State) : (askCommit i v s).rel = s.rel := by
  unfold askCommit
  split
  · simp
  · have hsend : (sendBlock 0x22 (le16 i ++ le32 v) s).rel = s.rel := by
      unfold sendBlock sendFlagged; split <;> rfl
    dsimp only
    split
    · simpa using hsend
    · exact hsend
@[simp] theorem queueJob_rel (j : Job) (s : State) : (queueJob j s).rel = s.rel := rfl
@[simp] theorem reserveBlock_rel_start (s : State) : (reserveBlock s).rel.start = s.rel.start := by
  unfold reserveBlock; split
  · rfl
  · simp
@[simp] theorem takeFresh_rel_start (s : State) : (takeFresh s).2.rel.start = s.rel.start := by
  unfold takeFresh; split
  · split
    · dsimp only; split <;> simp
    · simp
  · rfl
@[simp] theorem canSend_rel (f : CanFrame) (s : State) : (canSend f s).rel = s.rel := rfl
@[simp] theorem sendRel_rel_start (bus ident ver type session permit : Nat) (key : Option Bytes) (s : State) :
    (sendRel bus ident ver type session permit key s).rel.start = s.rel.start := by
  have hfresh := takeFresh_rel_start s
  unfold sendRel
  split
  · rfl
  · split
    · rfl
    · split <;> simp_all
@[simp] theorem doorFrames_rel_start (i : Nat) (s : State) : (doorFrames i s).rel.start = s.rel.start := by
  unfold doorFrames
  refine foldl_keeps (fun u : State => u.rel.start) (fun u bus => ?_) _ s
  dsimp only
  by_cases hm : busMask u bus = if bus = 1 then u.rel.masks.1 else u.rel.masks.2
  · rw [if_pos hm]
  · rw [if_neg hm]
    exact sendRel_rel_start ..
@[simp] theorem linCommand_rel_start (bus node : Nat) (b : Bool) (s : State) : (linCommand bus node b s).rel.start = s.rel.start := by
  have hfresh := takeFresh_rel_start s
  unfold linCommand
  split
  · rfl
  · dsimp only
    split
    · rfl
    · split
      · rfl
      · split <;> simp_all
@[simp] theorem relPin_rel (pin : Nat) (on : Bool) (s : State) : (relPin pin on s).rel = s.rel := rfl
@[simp] theorem doorLeaves_rel_start (d : DoorHold) (s : State) : (doorLeaves d s).rel.start = s.rel.start := by
  have hlin : ∀ u : State, (if bitSet (u8 d.record 4) 1 then linCommand (u8 d.record 6) (u8 d.record 7) false u else u).rel.start = u.rel.start := fun u => by
    split
    · exact linCommand_rel_start ..
    · rfl
  unfold doorLeaves
  extract_lets u
  have hu : u.rel.start = s.rel.start := hlin s
  clear_value u
  split
  · exact hu
  · exact hu
theorem doorsLeave_rel_start (l : List DoorHold) (s : State) : (l.foldl (fun s d => doorLeaves d s) s).rel.start = s.rel.start := by
  induction l generalizing s with
  | nil => rfl
  | cons d l ih => rw [List.foldl_cons, ih, doorLeaves_rel_start]
@[simp] theorem forgetDoorFmt_rel_start (s : State) : (forgetDoorFmt s).rel.start = s.rel.start := by
  unfold forgetDoorFmt; split <;> rfl
theorem closeAccess_rel_start (i r : Nat) (tag : Option Nat) (s : State) : (closeAccess i r tag s).rel.start = s.rel.start := by
  unfold closeAccess
  split
  · rfl
  · simp [mirrorSessions, emitT, activity, doorsLeave_rel_start]

/-- Settles O37: each begun command passes its checks in turn; the end of an access session leaves the start session as it is. -/
theorem sessionCommands : Obligations.SessionCommands := by
  unfold Obligations.SessionCommands
  refine fun m s ref u => ⟨fun h hp => ?_, fun h hl hz hi hs => ?_, fun h hp => ?_, fun h hp => ?_, fun h hl h1 h0 hz => ?_, fun h hl h1 h0 hz hd hi => ?_⟩
  · rw [exec_sessionEnd, execSessionEnd, runCmd_begun h, needLen_eq (by rw [hp]; rfl), need_true (by rw [hp]; rfl), if_pos (by rw [hp]; rfl)]
  · have hstart : (closeAccess (u16 m.payload 0) 3 (some ref.tag) u).rel.start = none := (closeAccess_rel_start ..).trans hs
    refine ⟨hstart, ?_⟩
    rw [exec_sessionEnd, execSessionEnd, runCmd_begun h, needLen_eq hl, need_true hz, if_neg hi]
    simp only [hstart]
  · rw [exec_sessionStatus, execSessionStatus, runCmd_begun h, needLen_eq (by rw [hp]; rfl)]
    simp only [List.length_map]
    refine ⟨_, ?_, rfl⟩
    rw [List.flatten_append, List.length_append, ← List.flatMap_def, ← List.flatMap_def, length_flatMap_of_forall 12 (fun _ _ => rfl),
      length_flatMap_of_forall 12 (fun _ _ => rfl), Nat.mul_add]
  · rw [exec_startWithdraw, execStartWithdraw, runCmd_begun h, needLen_eq (by rw [hp]; rfl)]
  · rw [exec_doorMapWrite, execDoorMapWrite, runCmd_begun h, need_true (by simp [h1]), needLen_eq (by simp [h1, hl]), need_true (by simp [h0, hz, h1])]
    simp only [h1, if_true]
  · rw [exec_doorMapWrite, execDoorMapWrite, runCmd_begun h, need_true (by simp [h1]), needLen_eq (by simp [h1, hl]), need_true (by simp [h0, hz, hd, hi])]
    simp only [h1, Nat.succ_ne_self, if_false]

/-! ### A request to transmit (R301, R302) -/

section
variable {freq power airUs prec n e : Nat} {temp : Int} {s : State}

/-- With nothing of lower precedence under way, nothing gives way. -/
theorem makeWay_of_idle (hrun : s.rad.run = none) (hpoll : s.zon.poll = none) (htx : ∀ t, s.rad.tx = some t → t.prec ≤ prec) :
    makeWay prec n s = s := by
  have hclear : s.onRad (fun r => { r with run := r.run.filter (·.mandatory) }) = s := by
    simp only [State.onRad, hrun, Option.filter_none]
    rw [← hrun]
  unfold makeWay
  simp only [hclear, hpoll, Option.any_none, Bool.and_false, Bool.false_eq_true, if_false]
  split
  · next t ht => exact if_neg (by have := htx t ht; omega)
  · rfl

/-- Without coexistence the wires stay as they are (R313). -/
theorem coexLead_of_off (h : param s 0x0704 ≠ 1) : coexLead prec s = s := by
  simp [coexLead, coexRaise, h]

/-- A transmission that is in the air now, as `radiate` leaves it. -/
def inAir (t : Tx) (s : State) : Tx :=
  { t with waiting := false, radiating := true, since := now s, stage := paStageOf s t.entry, drive := driveOf s t.entry, tuner := tunerCodes s (bandOf s t.chan) }
/-- Without coexistence a transmission on a usable entry goes out at once (R301, R313). -/
theorem txGo_of_off {t : Tx} (ht : s.rad.tx = some t) (hcal : calUsable s t.chan = true) (hoff : param s 0x0704 ≠ 1) :
    txGo s = (hopTo t.chan s).onRad (fun r => { r with
      tx := some (inAir t (hopTo t.chan s)), lastTx := stOk, lastFrame := t.frame, band := some (bandOf (hopTo t.chan s) t.chan) }) := by
  have hparam : param (hopTo t.chan s) 0x0704 ≠ 1 := hoff
  simp only [txGo, ht, hcal, if_true, radiate, coexLead_of_off hoff, hparam, decide_false, Bool.false_and, Bool.false_eq_true, if_false, inAir]

/-- The request passes what Table 12-5 asks of the device, once its checks are passed. -/
theorem txRequest_begins {t : Tx} (hchk : radChecks t.freq t.asked t.airUs t.prec s = (some (n, e), s)) (htx : s.rad.tx = none)
    (hwin : windowOpen s = false) (hpoll : s.zon.poll = none) (hrun : s.rad.run = none) (hrole : s.pair.role ≠ .lee) (hride : riding s = false)
    (hflood : s.pwr.state = .flood) :
    (txRequest t s).2 = txGo (s.onRad (fun r => { r with tx := some { t with chan := n, entry := e } })) := by
  simp [txRequest, hchk, makeWay_of_idle hrun hpoll (fun t h => by simp [htx] at h), hrole, hride, hflood, htx, hwin]

theorem txRequest_waits {t x : Tx} (hchk : radChecks t.freq t.asked t.airUs t.prec s = (some (n, e), s)) (htx : s.rad.tx = some x)
    (hprec : x.prec ≤ t.prec) (href : t.ref = none) (hpoll : s.zon.poll = none) (hrun : s.rad.run = none) (hrole : s.pair.role ≠ .lee)
    (hride : riding s = false) (hflood : s.pwr.state = .flood) :
    (txRequest t s).2 = s.onRad (fun r => { r with waits := r.waits ++ [t] }) := by
  have hway : makeWay t.prec n s = s := makeWay_of_idle hrun hpoll fun y hy => by
    obtain rfl : x = y := Option.some.inj (htx.symm.trans hy)
    exact hprec
  simp [txRequest, hchk, hway, hrole, hride, hflood, htx, href]

theorem txRequest_refused {t : Tx} (h : chanOf s t.freq = none) :
    (txRequest t s).2 = s.onRad (fun r => { r with lastTx := stRegulatory }) := by
  simp [txRequest, radChecks, h]

end

/-- A change of the radio keeps all the rest. -/
theorem radOnly_onRad {s t : State} (f : Rad → Rad) (h : t = { s with rad := t.rad }) : t.onRad f = { s with rad := (t.onRad f).rad } := by
  rw [h]; rfl
theorem radOnly_hopTo {s t : State} (n : Nat) (h : t = { s with rad := t.rad }) : hopTo n t = { s with rad := (hopTo n t).rad } := by
  unfold hopTo; exact radOnly_onRad _ h

/-- What `RADIO_TX_REQUEST` asks for. -/
def hostTx (freq power airUs prec : Nat) : Tx := { freq := freq, asked := power, airUs := airUs, prec := prec }
theorem exec_radioTxRequest_of_running {freq power airUs prec : Nat} {temp : Int} {s : State} (h : running s = true) :
    exec (.radioTxRequest freq power airUs prec temp) s = .next (txRequest (hostTx freq power airUs prec) (strandReads temp s)).2 := by
  rw [exec_radioTxRequest, execRadioTxRequest, h, Bool.not_true, if_neg Bool.false_ne_true]; rfl

/-- Settles O39: each begun command passes its checks in turn; a request to transmit goes out, waits or is refused by Table 12-5. -/
theorem radioCommands : Obligations.RadioCommands := by
  unfold Obligations.RadioCommands
  refine ⟨fun m temp st s ref u v reg => ⟨fun h hl hp ho => ?_, fun h hl hp ho hr => ?_, fun h hp hr => ?_, fun h hp ho => ?_, fun h hp => ?_,
    fun h hp h1 h2 h3 hr hc => ?_, fun h hp h1 h2 h3 h4 h5 h6 hpath hpoll htx hrun hreq => ?_⟩,
    fun freq power airUs prec n e temp x s => ⟨fun hr hchk htx hw hpoll hrun hrole hride hf hcal hoff => ?_,
      fun hr hchk htx hprec hpoll hrun hrole hride hf => ?_, fun hr hchan => ?_⟩⟩
  · rw [exec_regRecordWrite, execRegRecordWrite, runCmd_begun h]
    dsimp only
    rw [need_true (by simp [hl]), needLen_eq hp, need_true ho, need_true (by simp [hl]), need_true (by simp [hl])]
  · rw [exec_regRecordWrite, execRegRecordWrite, runCmd_begun h]
    dsimp only
    rw [need_true (by simp [hl]), needLen_eq hp, need_true ho, need_false (by simp [hl, hr])]
  · rw [exec_regRecordRead, execRegRecordRead, runCmd_begun h, needLen_eq (by rw [hp]; rfl), hr]
  · rw [exec_powerTableWrite, execPowerTableWrite, runCmd_begun h, needLen_eq hp, need_true ho]
  · rw [exec_radioStatus, execRadioStatus, runCmd_begun h, needLen_eq (by rw [hp]; rfl)]
    exact ⟨_, le16_length _, rfl⟩
  · intro want hw
    rw [exec_radioCalRun, execRadioCalRun, runCmd_begun h, needLen_eq hp, need_true (by simp [h1, h2, h3]), hr]
    dsimp only
    rw [need_true (by rw [Bool.not_eq_true', List.isEmpty_eq_false_iff]; exact hw), need_true (by rw [hc]; rfl)]
  · rw [exec_radioTestTx, execRadioTestTx, runCmd_begun h, needLen_eq hp, need_true (by simp [h1, h2, h3, h4, h5, h6]),
      need_true (by simp [hpath, hpoll, htx, hrun]), hreq]
    simp only [Bool.or_eq_true, decide_eq_true_eq]
  · have hgo := txRequest_begins (s := strandReads temp s) (t := hostTx freq power airUs prec) hchk htx hw hpoll hrun hrole hride hf
    rw [exec_radioTxRequest_of_running hr, hgo.trans (txGo_of_off rfl hcal hoff)]
    refine ⟨_, rfl, _, rfl, rfl, rfl, rfl, rfl, rfl, rfl, rfl, rfl, rfl, rfl, rfl, rfl, ?_⟩
    exact radOnly_onRad _ (radOnly_hopTo _ (radOnly_onRad _ (radOnly_onRad _ rfl)))
  · have hgo := txRequest_waits (s := strandReads temp s) (t := hostTx freq power airUs prec) hchk htx hprec rfl hpoll hrun hrole hride hf
    rw [exec_radioTxRequest_of_running hr, hgo]
    exact ⟨_, rfl, rfl⟩
  · have hgo := txRequest_refused (s := strandReads temp s) (t := hostTx freq power airUs prec) hchan
    rw [exec_radioTxRequest_of_running hr, hgo]
    exact ⟨_, rfl, rfl⟩

theorem zeros_add (b : Bytes) (off m n : Nat) : zeros b off (m + n) = (zeros b off m && zeros b (off + m) n) := by
  simp [zeros, slice, List.take_add, List.drop_drop]

/-! ### Contacts -/

theorem contact_onContact_same {n : Nat} {s : State} (hn : 1 ≤ n) (hlen : n ≤ s.sen.cin.length) (f : Contact → Contact) :
    contact (onContact n f s) n = f (contact s n) := by
  simp [contact, onContact, State.onSen, modAt_eq_modify, List.getD_eq_getElem?_getD, show n - 1 < s.sen.cin.length by omega]
theorem contact_onContact_ne {n k : Nat} {s : State} (hn : 1 ≤ n) (hk : 1 ≤ k) (h : k ≠ n) (f : Contact → Contact) :
    contact (onContact n f s) k = contact s k := by
  simp [contact, onContact, State.onSen, modAt_eq_modify, List.getD_eq_getElem?_getD, show n - 1 ≠ k - 1 by omega]
theorem contact_congr {s t : State} (h : t.sen = s.sen) (n : Nat) : contact t n = contact s n := by simp only [contact, h]
@[simp] theorem dueAt_sen (n : Nat) (s : State) : (dueAt n s).sen = s.sen := by unfold dueAt; split <;> simp

@[simp] theorem emitF_sen (code cls : Nat) (inst p : Bytes) (s : State) : (emitF code cls inst p s).sen = s.sen := emitX_sen ..

/-- Settles O42: the commands pass their checks in turn; each input answers for itself. -/
theorem senseCommands : Obligations.SenseCommands := by
  unfold Obligations.SenseCommands
  refine ⟨fun m s ref u => ⟨fun h hp => ?_, fun h hp => ?_, fun h hp h0 hz => ?_, fun h hp => ?_, fun h hp h0 h1 h4 hz => ?_⟩,
    fun n bus high s => ⟨fun hw h1 h8 hc => ?_, fun hs h1 h8 hl ha hst => ?_, fun hs hw hst => ?_, fun hw hn => ?_, fun hn hst => ?_, fun hn hst => ?_,
      fun h1 h2 hw hb => ?_, fun h1 h2 hb => ?_, fun h1 h4 hw => ?_⟩⟩
  · rw [exec_senseStatus, execSenseStatus, runCmd_begun h, needLen_eq (by rw [hp]; rfl)]
    exact ⟨_, by rw [length_flatMap_of_forall 6 (fun _ _ => rfl), List.length_range], rfl⟩
  · rw [exec_contactStatus, execContactStatus, runCmd_begun h, needLen_eq (by rw [hp]; rfl)]
    exact ⟨_, _, _, rfl⟩
  · rw [exec_senseRebase, execSenseRebase, runCmd_begun h, needLen_eq hp, need_true hz, h0, show bitsOf 16 0 = [] by decide]
    simp only [List.foldl_nil, Nat.or_zero]
    rfl
  · rw [exec_senseRebase, execSenseRebase, runCmd_begun h, needLen_eq (by rw [hp]; rfl), need_true (by rw [hp]; rfl), hp,
      show u16 [1, 0, 0, 0] 0 = 1 from rfl, show bitsOf 16 1 = [0] by decide]
    rfl
  · rw [exec_wakeMapWrite, execWakeMapWrite, runCmd_begun h, needLen_eq hp, need_true]
    rw [zeros_add _ 5 3 8, Bool.and_eq_true] at hz
    simp [h0, h1, h4, hz.1, hz.2, distinctNat, r142]
  · rw [exec_contactChange, execContactChange, if_neg]
    simp [hw, hc, h8]; omega
  · have h9 : n ≠ 9 := by omega
    rw [exec_stuckTimeout, execStuckTimeout, if_neg (by simp [hs]), if_neg h9]
    dsimp only
    rw [if_neg (by simp [ha, hst]; omega)]
    refine ⟨_, rfl, ?_⟩
    simp only [contact_congr (emitF_sen ..)]
    rw [contact_onContact_same h1 (by simpa using hl)]
    refine ⟨rfl, (congrArg Contact.asserted (contact_congr (dueAt_sen ..) n)).trans ha, fun k hk hne => ?_⟩
    rw [contact_onContact_ne h1 hk hne, contact_congr (dueAt_sen ..)]
  · rw [exec_stuckTimeout, execStuckTimeout, if_neg (by simp [hs]), if_pos rfl, if_neg (by simp [hw, hst])]
    refine ⟨_, rfl, ?_⟩
    simp [State.onSen]
  · rw [exec_wakeNAssert, execWakeNAssert, if_neg (by simp [hw, hn])]
  · rw [exec_wakeNNegate, execWakeNNegate, if_neg (by simp [hn])]
    exact ⟨_, if_neg (by simp [hst]), rfl⟩
  · rw [exec_wakeNNegate, execWakeNNegate, if_neg (by simp [hn])]
    refine ⟨_, if_pos hst, ?_⟩
    simp [emitC, State.onSen]
  · rw [exec_canWake, execCanWake]
    rw [if_neg]
    simp [hw, hb]; omega
  · rw [exec_canWake, execCanWake]
    rw [if_pos]
    · exact ⟨_, rfl, rfl⟩
    · simp [hb]
  · rw [exec_linWake, execLinWake, if_neg]
    simp [hw]; omega

theorem beginVerify_of_free {what : VerifyFor} {ref : CmdRef} {s : State} (hp : pinnedBusy s = false) (hs : s.sec.sign = none) (hv : s.sec.verify = none) :
    beginVerify what ref s = accepted ref (s.onSec (fun x => { x with verify := some (what, ref) })) :=
  need_true (by simp [hp, hs, hv]) ..

/-- Settles O44: each begun command passes its checks in turn. -/
theorem securityCommands : Obligations.SecurityCommands := by
  unfold Obligations.SecurityCommands
  refine ⟨fun m s ref u => ⟨fun h h9 hl h0 hz hr hv ho => ?_, fun h h9 hl h0 hz hr hv ho hpos hlen => ?_, fun h hp hb hpin hs hv => ?_,
      fun h hp h1 h4 hz hb hf hpin hs hv => ?_, fun h hp hf => ?_, fun h hp hpin hs hv hk => ?_, fun h hp hpin hs hv hk => ?_⟩,
    fun m s ref u o => ⟨fun h hp h0 hz h1 hl ho hlt => ?_, fun h hp h4 hz hlt => ?_, fun h hp hh => ?_, fun h hp => ?_, fun h hp => ?_,
      fun b h hp h0 h1 hz hb hl hn => ?_, fun b h hp h0 h1 hz hb hl hn hle => ?_⟩⟩
  · rw [exec_stageWrite, execStageWrite, runCmd_begun h, need_true (by simp [h9, hl])]
    dsimp only
    rw [need_true (by simp [h0, hz]), need_true (by simp [h0, hr]), hv, need_true rfl, need_true (by simp [ho]), need_true (by simp [ho, h0]; omega)]
    simp [h0, ho, setStage]
  · rw [exec_stageWrite, execStageWrite, runCmd_begun h, need_true (by simp [h9, hl])]
    dsimp only
    rw [need_true (by simp [h0, hz]), need_true (by simp [h0, hr]), hv, need_true rfl, h0, need_true (by simp [ho, stageOf]),
      need_true (by rw [ho]; simpa using hlen)]
    have hne : u32 m.payload 4 ≠ 0 := by omega
    simp [hne, setStage, stageOf, State.onSec]
  · rw [exec_fwActivate, execFwActivate, runCmd_begun h, needLen_eq (by rw [hp]; rfl), need_true (by simpa using hb), beginVerify_of_free hpin hs hv]
  · rw [exec_grantApply, execGrantApply, runCmd_begun h, needLen_eq hp, need_true (by simp [h1, h4, hz]), need_true (by simpa using hb),
      need_true (by simpa using hf), beginVerify_of_free hpin hs hv]
  · rw [exec_grantApply, execGrantApply, runCmd_begun h, needLen_eq (by rw [hp]; rfl), hp]
    dsimp only
    rw [need_true (by rfl), need_true (by simp [u8]), need_false (by simpa [u8] using hf)]
  · rw [exec_attest, execAttest, runCmd_begun h, needLen_eq hp, need_true (by simp [hpin, hs, hv]), need_true hk]
  · rw [exec_logCheckpoint, execLogCheckpoint, runCmd_begun h, needLen_eq (by rw [hp]; rfl), need_true (by simp [hpin, hs, hv]), need_true hk]
  · rw [zeros_add _ 1 3 4, Bool.and_eq_true] at hz
    rw [exec_objectRead, execObjectRead, runCmd_begun h, needLen_eq hp]
    dsimp only
    rw [h0, need_true (by simp [hz.1, h1, hl, hz.2]), ho]
    exact congrArg _ (need_true (by simpa using hlt) ..)
  · rw [exec_logRead, execLogRead, runCmd_begun h, needLen_eq hp]
    dsimp only
    rw [h4, need_true (by simp [hz]; split <;> omega)]
    have hone : (List.range 1).filter (fun k => u32 m.payload 0 + k < u.sec.logNext || (logFind (u32 m.payload 0 + k) u).isSome) = [0] := by
      simp [List.range_succ, hlt]
    rw [hone]
    simp
    rfl
  · rw [exec_storeStatus, execStoreStatus, runCmd_begun h, needLen_eq (by rw [hp]; rfl), hh]
    dsimp only
    rw [List.append_assoc (le32 _) (le16 0) (le16 0)]
    rfl
  · rw [exec_storeStatus, execStoreStatus, runCmd_begun h, needLen_eq (by rw [hp]; rfl)]
    exact ⟨_, _, rfl⟩
  · rw [exec_tamperStatus, execTamperStatus, runCmd_begun h, needLen_eq (by rw [hp]; rfl)]
  · rw [exec_tamperMapWrite, execTamperMapWrite, runCmd_begun h, needLen_eq hp]
    dsimp only
    rw [need_true (by simp [h0, h1, hz]), need_true (by simpa using hb), hl, need_true rfl, hn]
    rfl
  · rw [exec_tamperMapWrite, execTamperMapWrite, runCmd_begun h, needLen_eq hp]
    dsimp only
    rw [need_true (by simp [h0, h1, hz]), need_true (by simpa using hb), hl, need_false]
    simp [hn, hle]

theorem getD_modAt_same {α : Type} {l : List α} {i : Nat} (h : i < l.length) (f : α → α) (d : α) : (modAt l i f).getD i d = f (l.getD i d) := by
  simp [modAt_eq_modify, List.getD_eq_getElem?_getD, h]
theorem getD_modAt_ne {α : Type} {l : List α} {i k : Nat} (h : k ≠ i) (f : α → α) (d : α) : (modAt l i f).getD k d = l.getD k d := by
  simp [modAt_eq_modify, List.getD_eq_getElem?_getD, h.symm]

/-! ### Reflectometry (R235 to R237): only its own row moves the ports -/

/-- What reflectometry has found, and which ports it still measures. -/
def reflPart (s : State) : List UwbPort × Nat := (s.uwb.ports, s.uwb.refl)
@[simp] theorem boundaryM_uwb (b : Bound) (s : State) : (boundaryM b s).uwb = s.uwb := mirror_uwb ..
@[simp] theorem soundPart_uwb (bit : Nat) (f : Bool) (s : State) : (soundPart bit f s).uwb = s.uwb := by
  unfold soundPart
  split
  · rfl
  · split
    · rfl
    · dsimp only
      split
      · rfl
      · exact emitX_uwb ..
theorem reflPart_congr {s t : State} (h : t.uwb = s.uwb) : reflPart t = reflPart s := by simp only [reflPart, h]
theorem reflPart_updateUwb (s : State) : reflPart (updateUwb s) = reflPart s := by
  unfold updateUwb
  split
  · rfl
  · have hstep : ∀ (n old : Nat) (l : List Nat) (v : State), reflPart (l.foldl (fun s r =>
        if bitSet n r && !bitSet old r then emitF evUwbUnavailable 1 [byte r] [byte r] s
        else if !bitSet n r && bitSet old r then emitC evUwbUnavailable 1 [byte r] [byte r] s else s) v) = reflPart v := by
      intro n old l
      induction l with
      | nil => exact fun _ => rfl
      | cons r l ih =>
        intro v
        rw [List.foldl_cons, ih]
        split
        · exact reflPart_congr (emitX_uwb ..)
        · split
          · exact reflPart_congr (emitX_uwb ..)
          · rfl
    exact hstep ..
/-- A port's entry with a result in it. -/
def UwbPort.measured (st d at_ : Nat) (y : UwbPort) : UwbPort :=
  { y with state := st, prevGood := if st = 1 then some d else y.prevGood, shown := some (d, at_) }
/-- A port's result stands in its entry and in no other. -/
theorem reflPart_portMeasured (port st d : Nat) (s : State) :
    reflPart (portMeasured port st d s) = (modAt s.uwb.ports (port - 1) (·.measured st d (now s)), clrBit s.uwb.refl (port - 1)) := by
  unfold portMeasured
  rw [reflPart_updateUwb]
  refine (reflPart_congr (emitX_uwb ..)).trans ?_
  split <;> rfl

theorem newestFirst_length (l : List RResult) : (newestFirst l).length = l.length := by
  have hstep : ∀ acc : List RResult, (l.foldl (fun (acc : List RResult) r =>
      acc.takeWhile (fun x => x.at_ ≥ r.at_) ++ [r] ++ acc.dropWhile (fun x => x.at_ ≥ r.at_)) acc).length = acc.length + l.length := by
    induction l with
    | nil => exact fun _ => rfl
    | cons r l ih =>
      intro acc
      rw [List.foldl_cons, ih]
      have hcut := congrArg List.length (List.takeWhile_append_dropWhile (p := fun x : RResult => decide (x.at_ ≥ r.at_)) (l := acc))
      simp only [List.length_append, List.length_cons, List.length_nil] at hcut ⊢
      omega
  exact (hstep []).trans (Nat.zero_add _)

/-- What follows a port's result leaves the ports alone, whether others are still measured or not. -/
theorem reflectometryPortDone_at {port trip : Nat} {rho : Int} {s : State} (h1 : 1 ≤ port) (hb : bitSet s.uwb.refl (port - 1) = true)
    (hs : s.uwb.sessions = []) (hd : s.uwb.due = []) (hf : s.pwr.state = .flood) (hr : riding s = false) (hx : s.clk.xtal26 = true) :
    Completes (exec (.reflectometryPortDone port rho trip) s) (fun t => reflPart t = reflPart (portMeasured port (reflState rho)
      (if reflState rho = 4 then 0 else sat 65535 (trip / 2 - (s.uwb.ports.getD (port - 1) {}).internal)) s)) := by
  rw [exec_reflectometryPortDone, execReflectometryPortDone]
  dsimp only
  rw [if_neg (by simp [hb, hs, hd, hf, hr, hx]; omega)]
  generalize portMeasured port _ _ s = v
  split
  · exact ⟨_, rfl, rfl⟩
  · split
    · exact ⟨_, rfl, by simp [reflPart, cmdDone, State.onUwb]⟩
    · exact ⟨_, rfl, by simp [reflPart, State.onUwb]⟩

/-- Settles O32: the commands pass their checks in turn; a result moves its own port's entry. -/
theorem rangingCommands : Obligations.RangingCommands := by
  unfold Obligations.RangingCommands
  refine ⟨fun m s ref u => ⟨fun h hp => ?_, fun h hp h15 hz hs hr hrun h0 => ?_, fun h hp hs hr hrun => ?_, fun h hp => ?_⟩,
    fun port trip rho s => ⟨fun h1 h4 he hf hr hp hps hs hd href hrun hst => ?_, fun h1 hl hb hs hd hf hr hx => ?_⟩⟩
  · rw [exec_uwbPortStatus, execUwbPortStatus, runCmd_begun h, needLen_eq (by rw [hp]; rfl)]
    exact ⟨_, by rw [length_flatMap_of_forall 8 (fun _ _ => rfl)]; rfl, rfl⟩
  · rw [exec_uwbReflectometry, execUwbReflectometry, runCmd_begun h, needLen_eq hp, need_true (by simp [h15, hz]), need_true (by simp [hs, hr, hrun]),
      if_neg h0]
  · rw [exec_uwbReflectometry, execUwbReflectometry, runCmd_begun h, needLen_eq (by rw [hp]; rfl), need_true (by rw [hp]; rfl),
      need_true (by simp [hs, hr, hrun]), if_pos (by rw [hp]; rfl)]
  · rw [exec_rangingStatus, execRangingStatus, runCmd_begun h, needLen_eq (by rw [hp]; rfl)]
    refine ⟨_, _, ?_, ?_, ?_, rfl⟩
    · exact List.length_take_le ..
    · rw [List.length_take, newestFirst_length]
      exact Nat.le_trans (Nat.min_le_right ..) (List.length_filterMap_le ..)
    · rw [length_flatMap_of_forall 12 (fun _ _ => by simp)]
  · rw [exec_reflectometryAuto, execReflectometryAuto]
    rw [if_neg (by simp [he, hf, hr, hp, hps, hs, hd, href, hrun]; omega), if_neg (by simp [hst])]
    exact ⟨_, rfl, rfl⟩
  · obtain ⟨t, ht, hpart⟩ := reflectometryPortDone_at (trip := trip) (rho := rho) h1 hb hs hd hf hr hx
    rw [reflPart_portMeasured] at hpart
    obtain ⟨hports, hrefl⟩ := Prod.mk.inj hpart
    have hlt : port - 1 < s.uwb.ports.length := by omega
    refine ⟨t, ht, ?_, fun hst => ?_, hrefl, fun k hk => ?_⟩
    · rw [hports, getD_modAt_same hlt]; rfl
    · rw [hports, getD_modAt_same hlt]
      simp [UwbPort.measured, hst]
    · rw [hports, getD_modAt_ne hk]

end Sys2Proof.Machine
end

section
/-! Time: what the passing of microseconds leaves of the clock and of the buses. -/

namespace Sys2Proof.Machine
open Sys2Proof

/-! ### The clock -/

@[simp] theorem advanceBase_base (us : Nat) (s : State) : (advanceBase us s).clk.base = s.clk.base + us := by
  unfold advanceBase; dsimp only; split <;> simp [State.onClk]
@[simp] theorem advanceBase_mono (us : Nat) (s : State) : (advanceBase us s).clk.mono = s.clk.mono + us := by
  unfold advanceBase; dsimp only; split <;> simp [State.onClk]
@[simp] theorem countersPass_clk (us : Nat) (s : State) : (countersPass us s).clk = s.clk := by
  unfold countersPass; split <;> rfl
@[simp] theorem budgetPass_clk (us : Nat) (s : State) : (budgetPass us s).clk = s.clk := by
  unfold budgetPass; split <;> rfl
@[simp] theorem busDiag_clk (bus kind : Nat) (clear : Bool) (s : State) : (busDiag bus kind clear s).clk = s.clk := by
  unfold busDiag; split
  · rfl
  · dsimp only; split <;> simp [emitC, emitF]
theorem relSents_clk (l : List CanFrame) (s : State) : (l.foldl relSent s).clk = s.clk := by
  induction l generalizing s with
  | nil => rfl
  | cons a l ih => rw [List.foldl_cons, ih]; simp [relSent]
@[simp] theorem canPass_clk (s : State) : (canPass s).clk = s.clk := by
  unfold canPass; split
  · rfl
  · exact relSents_clk ..
@[simp] theorem passUs_base (us : Nat) (s : State) : (passUs us s).clk.base = s.clk.base + us := by
  simp [passUs, idlePass, State.onClk]
@[simp] theorem passUs_mono (us : Nat) (s : State) : (passUs us s).clk.mono = s.clk.mono + us := by
  simp [passUs, idlePass, State.onClk]
/-- Time that is told to reach an instant has reached it, and goes no further. -/
@[simp] theorem advanceTo_base (n : Nat) (s : State) : (advanceTo n s).clk.base = max n s.clk.base := by
  unfold advanceTo; split
  · omega
  · rw [passUs_base]; omega
theorem advanceTo_of_le {n : Nat} {s : State} (h : n ≤ now s) : advanceTo n s = s := if_pos h
@[simp] theorem dueAt_base {n : Nat} {s : State} (h : s.pwr.state ≠ .neap) : (dueAt n s).clk.base = max n s.clk.base := by
  rw [dueAt, if_neg h, advanceTo_base]

/-! ### The buses -/

/-- A bus but for the diagnoses it carries. -/
def Bus.apart (b : Bus) : Bus := { b with kinds := 0 }
theorem busDiag_buses (bus kind : Nat) (clear : Bool) (s : State) : (busDiag bus kind clear s).bus.bus.map Bus.apart = s.bus.bus.map Bus.apart := by
  have hkeep : ∀ (f : Bus → Bus), (∀ b, (f b).apart = b.apart) → (modAt s.bus.bus bus f).map Bus.apart = s.bus.bus.map Bus.apart := fun f hf => by
    rw [modAt_eq_modify]
    apply List.ext_getElem?
    intro i
    simp only [List.getElem?_map, List.getElem?_modify]
    cases s.bus.bus[i]? with
    | none => rfl
    | some b => by_cases h : bus = i <;> simp [h, hf]
  unfold busDiag
  split
  · rfl
  · dsimp only
    split
    · simp only [emitC, emitX_bus]
      exact hkeep _ fun _ => rfl
    · simp only [emitF, emitX_bus]
      exact hkeep _ fun _ => rfl
theorem relSents_buses (l : List CanFrame) (s : State) : (l.foldl relSent s).bus.bus.map Bus.apart = s.bus.bus.map Bus.apart := by
  induction l generalizing s with
  | nil => rfl
  | cons f l ih => rw [List.foldl_cons, ih]; exact busDiag_buses ..
theorem canPuts_bus (l : List CanFrame) (b : Buses) : (l.foldl (fun b f => canPut f b) b).bus = b.bus := by
  induction l generalizing b with
  | nil => rfl
  | cons f l ih =>
    rw [List.foldl_cons, ih]
    unfold canPut; split <;> rfl
theorem canPass_buses (s : State) : (canPass s).bus.bus.map Bus.apart = s.bus.bus.map Bus.apart := by
  unfold canPass; split
  · rfl
  · dsimp only
    rw [relSents_buses]
    exact congrArg (List.map Bus.apart) (canPuts_bus ..)
@[simp] theorem advanceBase_bus (us : Nat) (s : State) : (advanceBase us s).bus = s.bus := by
  unfold advanceBase; dsimp only; split <;> simp
@[simp] theorem countersPass_bus (us : Nat) (s : State) : (countersPass us s).bus = s.bus := by
  unfold countersPass; split <;> rfl
@[simp] theorem budgetPass_bus (us : Nat) (s : State) : (budgetPass us s).bus = s.bus := by
  unfold budgetPass; split <;> rfl
/-- Time moves no controller but in the diagnoses it carries: a release frame that leaves clears its transmit timeout. -/
theorem advanceTo_buses (n : Nat) (s : State) : (advanceTo n s).bus.bus.map Bus.apart = s.bus.bus.map Bus.apart := by
  unfold advanceTo; split
  · rfl
  · unfold passUs idlePass
    exact (canPass_buses _).trans (by simp)
@[simp] theorem advanceTo_buses_length (n : Nat) (s : State) : (advanceTo n s).bus.bus.length = s.bus.bus.length := by
  simpa using congrArg List.length (advanceTo_buses n s)

end Sys2Proof.Machine
end

section
/-! The commands and rows of the vehicle buses (O59). -/

namespace Sys2Proof.Machine
open Sys2Proof

/-- A byte of pieces of one length, one for each number below `m`. -/
theorem getD_flatMap_range {f : Nat → Bytes} {n : Nat} (hf : ∀ k, (f k).length = n) (m : Nat) {k i : Nat} (hk : k < m) (hi : i < n) (d : Byte) :
    ((List.range m).flatMap f).getD (n * k + i) d = (f k).getD i d := by
  induction m with
  | zero => omega
  | succ m ih =>
    have hlen : ((List.range m).flatMap f).length = n * m := by rw [length_flatMap_of_forall n fun x _ => hf x, List.length_range]
    rw [List.range_succ, List.flatMap_append, List.getD_eq_getElem?_getD]
    by_cases h : k < m
    · have hlt : n * k + i < n * m := by
        calc n * k + i < n * k + n := by omega
          _ = n * (k + 1) := (Nat.mul_succ ..).symm
          _ ≤ n * m := Nat.mul_le_mul_left n h
      rw [List.getElem?_append_left (by omega), ← List.getD_eq_getElem?_getD, ih h]
    · obtain rfl : k = m := by omega
      rw [List.getElem?_append_right (by omega), hlen]
      simp

/-! ### Pins -/

/-- What a `GPIO_WRITE` makes of a pin. -/
def Pin.driven (on : Bool) (x : Pin) : Pin := { x with out := on, level := on }
/-- Writing some pins writes each of those, and no other. -/
theorem drivePins (v : Nat) (ks : List Nat) (l : List Pin) (hd : ks.Nodup) :
    (ks.foldl (fun l k => modAt l k (·.driven (bitSet v k))) l).length = l.length ∧
    ∀ k, k < l.length → (ks.foldl (fun l k => modAt l k (·.driven (bitSet v k))) l).getD k {} =
      if k ∈ ks then (l.getD k {}).driven (bitSet v k) else l.getD k {} := by
  induction ks generalizing l with
  | nil => simp
  | cons a ks ih =>
    obtain ⟨ha, hks⟩ := List.nodup_cons.1 hd
    have hlen : (modAt l a (·.driven (bitSet v a))).length = l.length := by simp [modAt_eq_modify]
    obtain ⟨h1, h2⟩ := ih (modAt l a (·.driven (bitSet v a))) hks
    refine ⟨h1.trans hlen, fun k hk => ?_⟩
    rw [List.foldl_cons, h2 k (by omega)]
    by_cases hka : k = a
    · subst hka
      rw [if_neg ha, if_pos (by simp), getD_modAt_same hk]
    · rw [getD_modAt_ne hka]
      simp [hka]
theorem mem_bitsOf {n m k : Nat} : k ∈ bitsOf n m ↔ k < n ∧ bitSet m k = true := by simp [bitsOf]
theorem bitsOf_nodup (n m : Nat) : (bitsOf n m).Nodup := List.nodup_range.filter _

/-- The mask of the pins with a property. -/
def pinMask (f : Pin → Bool) (l : List Pin) : Nat := l.zipIdx.foldl (fun n (x : Pin × Nat) => if f x.1 then setBit n x.2 else n) 0
@[simp] theorem bitSet_setBit (m n k : Nat) : bitSet (setBit m n) k = (bitSet m k || decide (n = k)) := by
  simp [bitSet, setBit, Nat.shiftLeft_eq, Nat.testBit_two_pow]
theorem bitSet_pinMask_from (f : Pin → Bool) (l : List Pin) (i n k : Nat) :
    bitSet ((l.zipIdx i).foldl (fun n (x : Pin × Nat) => if f x.1 then setBit n x.2 else n) n) k =
      (bitSet n k || (decide (i ≤ k ∧ k < i + l.length) && f (l.getD (k - i) {}))) := by
  induction l generalizing i n with
  | nil =>
    have hno : ¬(i ≤ k ∧ k < i + ([] : List Pin).length) := by
      rw [List.length_nil]
      omega
    rw [decide_eq_false hno, Bool.false_and, Bool.or_false]
    rfl
  | cons a l ih =>
    rw [List.zipIdx_cons, List.foldl_cons, ih]
    have hhead : bitSet (if f a then setBit n i else n) k = (bitSet n k || (decide (i = k) && f a)) := by
      cases f a <;> simp
    rw [hhead]
    by_cases h : i = k
    · subst h
      have hlen : i ≤ i ∧ i < i + (a :: l).length := by
        rw [List.length_cons]
        omega
      rw [decide_eq_false (show ¬(i + 1 ≤ i ∧ i < i + 1 + l.length) by omega), decide_eq_true hlen, Nat.sub_self]
      simp
    · by_cases hlt : i < k
      · obtain ⟨j, rfl⟩ : ∃ j, k = i + 1 + j := ⟨k - (i + 1), by omega⟩
        have h1 : i + 1 + j - i = j + 1 := by omega
        have h2 : (i + 1 ≤ i + 1 + j ∧ i + 1 + j < i + 1 + l.length) ↔ (i ≤ i + 1 + j ∧ i + 1 + j < i + (a :: l).length) := by
          simp only [List.length_cons]; omega
        simp only [h1, h2, h, decide_false, Bool.false_and, Bool.or_false, List.getD_cons_succ, Nat.add_sub_cancel_left]
      · have h1 : ¬(i + 1 ≤ k ∧ k < i + 1 + l.length) := by omega
        have h2 : ¬(i ≤ k ∧ k < i + (a :: l).length) := by omega
        simp only [h, h1, h2, decide_false, Bool.false_and, Bool.or_false]
theorem bitSet_pinMask {f : Pin → Bool} {l : List Pin} {k : Nat} (hk : k < l.length) : bitSet (pinMask f l) k = f (l.getD k {}) := by
  rw [pinMask, bitSet_pinMask_from]
  simp [hk, bitSet]
theorem bitSet_byte {n k : Nat} (hk : k < 8) : bitSet (byte n).toNat k = bitSet n k := by
  rw [bitSet, byte, BitVec.toNat_ofNat, Nat.testBit_mod_two_pow]
  simp [hk, bitSet]

/-! ### Commands -/

section
variable {m : MbxCmd} {s u : State} {ref : CmdRef}

theorem exec_busStatus_at (h : begun 0x0E00 m s = some (ref, u)) (hp : m.payload = []) :
    ∃ e : Bytes, e.length = 24 ∧ exec (.busStatus m) s = .next (reply ref e u) ∧
    ∀ k, k < 6 → (busKind u k ≠ 0 → e.getD (4 * k) 0 = 4) ∧ (busKind u k = 0 → e.getD (4 * k) 0 = byte (u.bus.bus.getD k {}).state) ∧
      e.getD (4 * k + 1) 0 = byte (busKind u k) ∧ e.getD (4 * k + 2) 0 = byte (min 255 (u.bus.bus.getD k {}).tec) := by
  rw [exec_busStatus, execBusStatus, runCmd_begun h, needLen_eq (by rw [hp]; rfl)]
  refine ⟨_, by rw [length_flatMap_of_forall 4 (fun _ _ => rfl), List.length_range], rfl, fun k hk => ⟨fun hb => ?_, fun hb => ?_, ?_, ?_⟩⟩
  · rw [← Nat.add_zero (4 * k), getD_flatMap_range (n := 4) (fun _ => rfl) 6 hk (by omega)]
    simp only [hb, ne_eq, not_false_eq_true, if_true]
    rfl
  · rw [← Nat.add_zero (4 * k), getD_flatMap_range (n := 4) (fun _ => rfl) 6 hk (by omega)]
    simp only [hb, ne_eq, not_true_eq_false, if_false]
    rfl
  · rw [getD_flatMap_range (n := 4) (fun _ => rfl) 6 hk (by omega)]; rfl
  · rw [getD_flatMap_range (n := 4) (fun _ => rfl) 6 hk (by omega)]; rfl
theorem exec_gpioWrite_at (h : begun 0x0E02 m s = some (ref, u)) (hl : m.payload.length = 2)
    (hk : ∀ k, k < 8 → bitSet (u8 m.payload 0) k = true → pinHeld u k = false ∧ (u.bus.pins.getD k {}).function = 0 ∧ (u.bus.pins.getD k {}).dir ≠ 0) :
    ∃ pins, exec (.gpioWrite m) s = .next (reply ref [] (u.onBus (fun b => { b with pins := pins }))) ∧ pins.length = u.bus.pins.length ∧
      ∀ k, k < 8 → k < u.bus.pins.length → pins.getD k {} = if bitSet (u8 m.payload 0) k
        then { u.bus.pins.getD k {} with out := bitSet (u8 m.payload 1) k, level := bitSet (u8 m.payload 1) k } else u.bus.pins.getD k {} := by
  obtain ⟨hlen, hget⟩ := drivePins (u8 m.payload 1) (bitsOf 8 (u8 m.payload 0)) u.bus.pins (bitsOf_nodup ..)
  refine ⟨_, ?_, hlen, fun k h8 hlt => ?_⟩
  · rw [exec_gpioWrite, execGpioWrite, runCmd_begun h, needLen_eq hl]
    dsimp only
    rw [need_true, need_true]
    · rfl
    · simp only [List.all_eq_true, mem_bitsOf]
      rintro k ⟨h8, hb⟩
      obtain ⟨-, hf, hd⟩ := hk k h8 hb
      simpa using ⟨hf, hd⟩
    · rw [Bool.not_eq_true', List.any_eq_false]
      intro k hm
      obtain ⟨h8, hb⟩ := mem_bitsOf.1 hm
      simp [(hk k h8 hb).1]
  · rw [hget k hlt]
    simp [mem_bitsOf, h8, Pin.driven]
theorem exec_gpioRead_at (h : begun 0x0E03 m s = some (ref, u)) (hp : m.payload = []) (hl : u.bus.pins.length = 8) :
    ∃ a b : Byte, exec (.gpioRead m) s = .next (reply ref [a, b] u) ∧
    ∀ k, k < 8 → (bitSet a.toNat k = true ↔ (u.bus.pins.getD k {}).level = true) ∧ (bitSet b.toNat k = true ↔ (u.bus.pins.getD k {}).dir ≠ 0) := by
  rw [exec_gpioRead, execGpioRead, runCmd_begun h, needLen_eq (by rw [hp]; rfl)]
  refine ⟨byte (pinMask (·.level) u.bus.pins), byte (pinMask (fun x => x.dir != 0) u.bus.pins), rfl, fun k hk => ?_⟩
  rw [bitSet_byte hk, bitSet_byte hk, bitSet_pinMask (by omega), bitSet_pinMask (by omega)]
  simp

end

/-! ### CAN rows -/

/-- A diagnosis that a bus may carry stands after it is found, and is gone after it cleared, whatever it was. -/
theorem busDiag_kind {bus kind : Nat} {s : State} (hb : bus < 6) (h1 : 1 ≤ kind) (h5 : kind ≤ 5) (hl : s.bus.bus.length = 6) :
    bitSet ((busDiag bus kind false s).bus.bus.getD bus {}).kinds kind = true := by
  unfold busDiag
  by_cases hk : bitSet (s.bus.bus.getD bus {}).kinds kind = true
  · rw [if_pos (by rw [hk]; simp)]; exact hk
  · rw [if_neg (by rw [Bool.eq_false_iff.2 hk]; simp; omega)]
    simp only [emitF, emitX_bus, State.onBus, Bool.false_eq_true, if_false]
    rw [getD_modAt_same (by omega)]
    simp
theorem busDiag_bus {bus kind : Nat} {clear : Bool} {s : State} (hb : bus < 6) (h1 : 1 ≤ kind) (h5 : kind ≤ 5)
    (hk : bitSet (s.bus.bus.getD bus {}).kinds kind = clear) :
    (busDiag bus kind clear s).bus.bus =
      modAt s.bus.bus bus (fun x => { x with kinds := if clear then clrBit x.kinds kind else setBit x.kinds kind }) := by
  unfold busDiag
  rw [if_neg (by rw [hk]; simp; omega)]
  cases clear <;> simp [emitF, emitC, State.onBus]
@[simp] theorem busDiag_doorBits (bus kind : Nat) (clear : Bool) (s : State) : (busDiag bus kind clear s).bus.doorBits = s.bus.doorBits := by
  unfold busDiag; split
  · rfl
  · dsimp only; split <;> simp [emitC, emitF, State.onBus]

section
variable {bus : Nat} {s : State}

theorem exec_doorStatusTimeout_at (hr : running s = true) (h1 : param s 0x0E0E ≠ 0) (h2 : param s 0x0E0E ≤ 2)
    (hk : bitSet (s.bus.bus.getD (param s 0x0E0E - 1) {}).kinds 4 = false) (hl : s.bus.bus.length = 6) :
    Completes (exec .doorStatusTimeout s) (fun t => bitSet (t.bus.bus.getD (param s 0x0E0E - 1) {}).kinds 4 = true ∧ t.bus.doorBits = s.bus.doorBits ∧
      s.bus.doorAt + 1000000 ≤ now t) := by
  rw [exec_doorStatusTimeout, execDoorStatusTimeout]
  rw [if_neg (by rw [hr, hk]; simp [h1])]
  refine ⟨_, rfl, busDiag_kind (by omega) (by omega) (by omega) (by simpa using hl), by simp, ?_⟩
  simp [now, Nat.le_max_left]

theorem onBox_box_ne {m k : Bool} (h : k ≠ m) (s : State) (f : Mbx → Mbx) : (s.onBox m f).box k = s.box k := by
  cases m <;> cases k <;> simp_all [State.onBox, State.box]
@[simp] theorem retireFrame_bus (m : Bool) (f : OutFrame) (s : State) : (retireFrame m f s).bus = s.bus := State.onBox_bus ..
@[simp] theorem isoAbandon_bus (m : Bool) (s : State) : (isoAbandon m s).bus = s.bus := by
  unfold isoAbandon; split <;> simp
theorem isoAbandon_isoTx (m : Bool) (s : State) : ((isoAbandon m s).box m).isoTx = none := by
  unfold isoAbandon
  split
  · simp [retireFrame]
  · next h => exact h
theorem isoAbandon_box_ne {m k : Bool} (h : k ≠ m) (s : State) : (isoAbandon m s).box k = s.box k := by
  unfold isoAbandon
  split
  · rw [retireFrame, onBox_box_ne h, onBox_box_ne h]
  · rfl
/-- What a bus-off drops on the bus of the host transport. -/
def isoDropBox (m : Bool) (s : State) : State := (isoAbandon m s).onBox m (fun b => { b with isoRx := none })
theorem isoDropBox_same (m : Bool) (s : State) : ((isoDropBox m s).box m).isoRx = none ∧ ((isoDropBox m s).box m).isoTx = none := by
  rw [isoDropBox, State.onBox_box]
  exact ⟨rfl, isoAbandon_isoTx ..⟩
theorem isoDropBox_ne {m k : Bool} (h : k ≠ m) (s : State) : (isoDropBox m s).box k = s.box k := by
  rw [isoDropBox, onBox_box_ne h, isoAbandon_box_ne h]
@[simp] theorem isoDropBox_bus (m : Bool) (s : State) : (isoDropBox m s).bus = s.bus := by simp [isoDropBox]

theorem onCan_same (h : bus - 1 < s.bus.bus.length) (f : Bus → Bus) :
    ((onCan bus f s).bus.bus.getD (bus - 1) {}) = f (s.bus.bus.getD (bus - 1) {}) := getD_modAt_same h ..
theorem onCan_ne {k : Nat} (h : k ≠ bus - 1) (f : Bus → Bus) : (onCan bus f s).bus.bus.getD k {} = s.bus.bus.getD k {} := getD_modAt_ne h ..

/-- The bus-off of a controller: its entry, and on the bus of the host transport the ISO-TP messages. -/
theorem busOff_leaves {f : Bus → Bus} (hf : ∀ x, (f x).state = 3) (h : bus - 1 < s.bus.bus.length) (v t : State)
    (hv : v = if transport s = bus then isoDropBox true (isoDropBox false (onCan bus f s)) else onCan bus f s) (ht : t = emit evBusOff 1 [byte bus] v) :
    (t.bus.bus.getD (bus - 1) {}).state = 3 ∧ (∀ k, k ≠ bus - 1 → t.bus.bus.getD k {} = s.bus.bus.getD k {}) ∧
    (transport s ≠ bus → t.mbx = s.mbx ∧ t.mmb = s.mmb) ∧
    (transport s = bus → t.mbx.isoRx = none ∧ t.mbx.isoTx = none ∧ t.mmb.isoRx = none ∧ t.mmb.isoTx = none) := by
  have hbus : t.bus = (onCan bus f s).bus := by
    rw [ht, hv]; split <;> simp [emit]
  have hmbx : t.mbx = v.box false := by rw [ht]; exact emitX_mbx ..
  have hmmb : t.mmb = v.box true := by rw [ht]; exact emitX_mmb ..
  refine ⟨by rw [hbus, onCan_same h, hf], fun k hk => by rw [hbus, onCan_ne hk], fun htr => ?_, fun htr => ?_⟩
  · rw [hmbx, hmmb, hv, if_neg htr]
    exact ⟨rfl, rfl⟩
  · rw [if_pos htr] at hv
    rw [hmbx, hmmb, hv, isoDropBox_ne (by decide)]
    obtain ⟨hrx, htx⟩ := isoDropBox_same true (isoDropBox false (onCan bus f s))
    obtain ⟨hrx0, htx0⟩ := isoDropBox_same false (onCan bus f s)
    exact ⟨hrx0, htx0, hrx, htx⟩
theorem exec_busOff_at (hr : running s = true) (h1 : 1 ≤ bus) (h2 : bus ≤ 2) (hx : s.clk.xtal26 = true)
    (hst : (s.bus.bus.getD (bus - 1) {}).state = 1 ∨ (s.bus.bus.getD (bus - 1) {}).state = 2) (hl : bus ≤ s.bus.bus.length) :
    Completes (exec (.busOff bus) s) (fun t =>
      (t.bus.bus.getD (bus - 1) {}).state = 3 ∧ (∀ k, k ≠ bus - 1 → t.bus.bus.getD k {} = s.bus.bus.getD k {}) ∧
      (transport s ≠ bus → t.mbx = s.mbx ∧ t.mmb = s.mmb) ∧
      (transport s = bus → t.mbx.isoRx = none ∧ t.mbx.isoTx = none ∧ t.mmb.isoRx = none ∧ t.mmb.isoTx = none)) := by
  rw [exec_busOff, execBusOff]
  dsimp only
  rw [if_neg (by rcases hst with h | h <;> rw [hr, hx, h] <;> simp <;> omega)]
  exact ⟨_, rfl, busOff_leaves (fun _ => rfl) (by omega) _ _ rfl rfl⟩

theorem exec_busRecovered_at (hr : running s = true) (h1 : 1 ≤ bus) (h2 : bus ≤ 2) (hst : (s.bus.bus.getD (bus - 1) {}).state = 3) :
    exec (.busRecovered bus) s = .next (onCan bus (fun x => { x with state := 1, delayed := false, tec := 0, rec_ := 0 })
      (if (s.bus.bus.getD (bus - 1) {}).delayed then advanceTo ((s.bus.bus.getD (bus - 1) {}).offs.getLast?.getD 0 + 1000000) s else s)) := by
  rw [exec_busRecovered, execBusRecovered]
  dsimp only
  rw [if_neg (by rw [hr, hst]; simp; omega)]

end

/-! ### LIN rows -/

theorem le_foldl_max {l : List Nat} {x : Nat} (h : x ∈ l) (a : Nat) : x ≤ l.foldl max a := by
  have hstart : ∀ (l : List Nat) (a : Nat), a ≤ l.foldl max a := fun l => by
    induction l with
    | nil => exact Nat.le_refl
    | cons b l ih => exact fun a => Nat.le_trans (Nat.le_max_left a b) (ih _)
  induction l generalizing a with
  | nil => cases h
  | cons b l ih =>
    rcases List.mem_cons.1 h with rfl | h
    · exact Nat.le_trans (Nat.le_max_right a x) (hstart ..)
    · exact ih h _

/-- Changing what a search looks for, without changing whether it does, changes what it finds. -/
theorem find_map_if {α : Type} {p : α → Bool} {f : α → α} (hp : ∀ a, p (f a) = p a) (l : List α) :
    (l.map (fun a => if p a then f a else a)).find? p = (l.find? p).map f := by
  induction l with
  | nil => rfl
  | cons a l ih =>
    rw [List.map_cons]
    cases h : p a
    · rw [if_neg Bool.false_ne_true, List.find?_cons_of_neg (by rw [h]; exact Bool.false_ne_true), List.find?_cons_of_neg (by rw [h]; exact Bool.false_ne_true), ih]
    · rw [if_pos rfl, List.find?_cons_of_pos (by rw [hp, h]), List.find?_cons_of_pos h, Option.map_some]

section
variable {bus node : Nat} {s : State}

theorem linNode_congr {t : State} (h : t.bus.nodes = s.bus.nodes) : linNode t bus node = linNode s bus node := by simp only [linNode, h]
/-- A change of a node's entry that keeps whose it is shows in that entry. -/
theorem linNode_onNode {f : LinNode → LinNode} (hbus : ∀ n, (f n).bus = n.bus) (hnode : ∀ n, (f n).node = n.node) :
    linNode (onNode bus node f s) bus node = f (linNode s bus node) := by
  have hmap := find_map_if (p := fun n : LinNode => n.bus == bus && n.node == node) (f := f) (fun n => by rw [hbus, hnode])
  unfold linNode onNode
  simp only [State.onBus]
  split
  · next hany =>
    rw [hmap s.bus.nodes]
    obtain ⟨n, hmem, hn⟩ := List.any_eq_true.1 hany
    cases hf : s.bus.nodes.find? (fun n => n.bus == bus && n.node == node) with
    | none => exact absurd hn (List.find?_eq_none.1 hf n hmem)
    | some n => rfl
  · next hany =>
    have hnone : s.bus.nodes.find? (fun n => n.bus == bus && n.node == node) = none :=
      List.find?_eq_none.2 fun n hmem hn => hany (List.any_eq_true.2 ⟨n, hmem, hn⟩)
    rw [List.find?_append, hnone]
    simp [hbus, hnode]

@[simp] theorem boundaryM_bus (b : Bound) (s : State) : (boundaryM b s).bus = s.bus := mirror_bus ..
@[simp] theorem pollOver_nodes (s : State) : (pollOver s).bus.nodes = s.bus.nodes := by
  unfold pollOver; split
  · rfl
  · simp [State.onBus]
@[simp] theorem pollOver_base (s : State) : (pollOver s).clk.base = s.clk.base := by
  unfold pollOver; split
  · rfl
  · exact congrArg Clk.base (mirror_clk ..)

theorem exec_linStatusPoll_at (hr : running s = true) (hd : drives s = true) (hv : s.pwr.vbatFull = true) (hn : linNamed s bus node = true)
    (hres : linReserved s bus = false) : Completes (exec (.linStatusPoll bus node) s) (fun t =>
    let n := linNode s bus node
    (linNode t bus node).missed = min 3 (n.missed + 1) ∧ (linNode t bus node).silent = (n.silent || decide (3 ≤ n.missed)) ∧
    (linNode t bus node).polledAt = some (now t) ∧ (∀ p, n.polledAt = some p → p + 10000 * param s 0x0E15 ≤ now t) ∧
    (∀ x p, x ∈ s.bus.nodes → x.bus = bus → x.polledAt = some p → p + 5000 ≤ now t)) := by
  rw [exec_linStatusPoll, execLinStatusPoll, if_neg (by rw [hr, hd, hv, hn, hres]; decide)]
  extract_lets others own v n w u
  have hlin : linNode v bus node = linNode s bus node := linNode_congr (by simp [v])
  have hleft : ∃ t : State, next (if (decide (n.missed ≥ 3) && !n.silent) = true then
      emitF evLinNoResponse 1 [byte bus, byte node] [byte bus, byte node] u else u) = .next t ∧ t.bus = u.bus ∧ now t = now v := by
    split
    · exact ⟨_, rfl, emitX_bus .., congrArg Clk.base (emitX_clk ..)⟩
    · exact ⟨_, rfl, rfl, rfl⟩
  obtain ⟨t, ht, hbus, hnowv⟩ := hleft
  have hnode : linNode t bus node = _ :=
    (linNode_congr (t := t) (s := u) (by rw [hbus])).trans (linNode_onNode (fun _ => rfl) (fun _ => rfl))
  have hnow : now t = max ((others ++ own).foldl max 0) (now s) := hnowv.trans (by simp [v])
  have hdue : ∀ x ∈ others ++ own, x ≤ now t := fun x hx => Nat.le_trans (le_foldl_max hx 0) (by rw [hnow]; exact Nat.le_max_left ..)
  have hw : linNode w bus node = linNode s bus node := hlin
  refine ⟨t, ht, ?_⟩
  simp only [hnode, hw]
  refine ⟨rfl, rfl, congrArg some hnowv.symm, fun p hp => ?_, fun x p hx hb hp => ?_⟩
  · exact hdue _ (List.mem_append_right _ (by simpa [own] using hp))
  · exact hdue _ (List.mem_append_left _ (List.mem_filterMap.2 ⟨x, by simp [hx, hb], by simp [hp]⟩))
end

/-- Settles O59: the commands pass their checks in turn; a CAN row moves its own controller, a LIN row its own node. -/
theorem vehicleBuses : Obligations.VehicleBuses := by
  unfold Obligations.VehicleBuses
  refine ⟨fun m s ref u => ⟨exec_busStatus_at, fun h hl h7 hh h1 h2 h3 ho hi => ?_, fun h hl h7 hh => ?_, exec_gpioWrite_at, fun h hl hk => ?_,
    exec_gpioRead_at⟩, fun bus kind node ident ovf data s hr => ⟨fun h1 h2 hb hi hl hu => ?_, exec_doorStatusTimeout_at hr, exec_busOff_at hr, fun h1 h2 hst => ?_,
      fun h5 h1 hk hl => ⟨fun hb => ?_, fun hb => ?_⟩, exec_linStatusPoll_at hr, fun hd hn hl => ?_⟩⟩
  · rw [exec_gpioConfig, execGpioConfig, runCmd_begun h, needLen_eq hl, need_true (by simpa using h7), need_true (by rw [hh]; rfl), need_true]
    simp only [h1, h2, h3, Bool.and_eq_true, Bool.or_eq_true, decide_eq_true_eq]
    exact ⟨⟨⟨⟨trivial, trivial⟩, trivial⟩, Decidable.not_or_of_imp ho⟩, Decidable.not_or_of_imp hi⟩
  · rw [exec_gpioConfig, execGpioConfig, runCmd_begun h, needLen_eq hl, need_true (by simpa using h7), need_false (by rw [hh]; rfl)]
  · obtain ⟨k, h8, hb, hh⟩ := hk
    rw [exec_gpioWrite, execGpioWrite, runCmd_begun h, needLen_eq hl, need_false]
    rw [Bool.not_eq_false', List.any_eq_true]
    exact ⟨k, mem_bitsOf.2 ⟨h8, hb⟩, hh⟩
  · rw [exec_doorStatusFrame, execDoorStatusFrame, if_neg]
    rw [hr, hu, ← hb, ← hi]
    simp; omega
  · exact ⟨_, exec_busRecovered_at hr h1 h2 hst, rfl⟩
  · have h5' : kind ≤ 5 := by split at hk <;> omega
    rw [exec_busFault, execBusFault, if_neg (by simp only [hr, Bool.not_true, Bool.false_or, Bool.or_eq_true, decide_eq_true_eq]; omega)]
    exact ⟨_, rfl, busDiag_bus (by omega) h1 h5' hb⟩
  · have h5' : kind ≤ 5 := by split at hk <;> omega
    rw [exec_busFault, execBusFault, if_neg (by simp only [hr, Bool.not_true, Bool.false_or, Bool.or_eq_true, decide_eq_true_eq]; omega)]
    exact ⟨_, rfl, busDiag_bus (by omega) h1 h5' hb⟩
  · intro v n pulled isOpen put done
    have hrun : ∀ silent heard, silent = (n.silent && !(n.silent && decide (n.heard ≥ 2))) → heard = (if silent then n.heard + 1 else 0) →
        done (if n.silent && decide (n.heard ≥ 2) then emitC evLinNoResponse 1 [byte bus, byte node] [byte bus, byte node] (put silent heard) else put silent heard) := by
      rintro silent heard rfl rfl
      show exec (.linStatus bus node data) s = _
      rw [exec_linStatus, execLinStatus, if_neg (by rw [hr, hd, hn, hl]; decide)]
    refine ⟨fun hs => ?_, fun hs hh => ?_, fun hs hh => ?_⟩
    · have := hrun false 0 (by simp [hs]) rfl
      rwa [hs, Bool.false_and, if_neg Bool.false_ne_true] at this
    · have hlt : decide (n.heard ≥ 2) = false := by simpa using hh
      have := hrun true (n.heard + 1) (by simp [hs, hlt]) rfl
      rwa [hs, hlt, Bool.and_false, if_neg Bool.false_ne_true] at this
    · have hge : decide (n.heard ≥ 2) = true := by simpa using hh
      have := hrun false 0 (by simp [hs, hge]) rfl
      rwa [hs, hge, Bool.and_true, if_pos rfl] at this

end Sys2Proof.Machine
end

section
/-! The handling of faults, the lines that read back and the erosion report (O60). -/

namespace Sys2Proof.Machine
open Sys2Proof

/-! ### SOUNDING_RUN over parts judged at once -/

/-- A part of a `SOUNDING_RUN` touches nothing but the run and the events. -/
theorem soundPart_rest (bit : Nat) (f : Bool) (s : State) :
    (soundPart bit f s).lf = s.lf ∧ (soundPart bit f s).uwb = s.uwb ∧ (soundPart bit f s).rad = s.rad := by
  unfold soundPart
  split
  · exact ⟨rfl, rfl, rfl⟩
  · split
    · exact ⟨rfl, rfl, rfl⟩
    · dsimp only
      split
      · exact ⟨rfl, rfl, rfl⟩
      · simp [cmdDone]
/-- The parts that a run has left after one is over: none, and no run, once the last is. -/
def partLeft (bit : Nat) (left : Option Nat) : Option Nat :=
  left.bind fun l => if !bitSet l bit then some l else if clrBit l bit ≠ 0 then some (clrBit l bit) else none
theorem soundPart_left (bit : Nat) (f : Bool) (s : State) :
    (soundPart bit f s).soundRun.map SoundRun.left = partLeft bit (s.soundRun.map SoundRun.left) := by
  unfold soundPart
  cases h : s.soundRun with
  | none => simp [partLeft, h]
  | some r =>
    dsimp only [Option.map_some, partLeft, Option.bind_some]
    split
    · rw [h]; rfl
    · split
      · rfl
      · simp [cmdDone]

/-- The parts judged at once end a run of which nothing else is left. -/
theorem soundParts_end {s : State} {l : Nat} (f g : Bool) (h : s.soundRun.map SoundRun.left = some l)
    (hl : partLeft 5 (partLeft 4 (partLeft 0 (some l))) = none) :
    let t := soundPart 5 false (soundPart 4 g (soundPart 0 f s))
    t.soundRun = none ∧ t.lf = s.lf ∧ t.uwb = s.uwb ∧ t.rad = s.rad := by
  obtain ⟨a1, a2, a3⟩ := soundPart_rest 5 false (soundPart 4 g (soundPart 0 f s))
  obtain ⟨b1, b2, b3⟩ := soundPart_rest 4 g (soundPart 0 f s)
  obtain ⟨c1, c2, c3⟩ := soundPart_rest 0 f s
  exact ⟨Option.map_eq_none_iff.1 (by rw [soundPart_left, soundPart_left, soundPart_left, h, hl]),
    a1.trans (b1.trans c1), a2.trans (b2.trans c2), a3.trans (b3.trans c3)⟩

theorem exec_soundingRun_at {m : MbxCmd} {k : Nat} {ref : CmdRef} {s u : State} (h : begun 0x0D00 m s = some (ref, u)) (hp : m.payload = [byte k, 0, 0, 0])
    (hk : k ∈ [0, 1, 16, 17]) (hrun : u.soundRun = none) :
    Completes (exec (.soundingRun m) s) (fun t => t.soundRun = none ∧ t.lf = u.lf ∧ t.uwb = u.uwb ∧ t.rad = u.rad) := by
  have hbits : bitSet k 1 = false ∧ bitSet k 2 = false ∧ bitSet k 3 = false ∧ k < 32 ∧ u8 m.payload 0 = k ∧
      partLeft 5 (partLeft 4 (partLeft 0 (some (k + 32)))) = none := by
    rw [hp]
    simp only [List.mem_cons, List.not_mem_nil, or_false] at hk
    rcases hk with rfl | rfl | rfl | rfl <;> decide
  obtain ⟨h1, h2, h3, hlt, hu8, hleft⟩ := hbits
  rw [exec_soundingRun, execSoundingRun, runCmd_begun h, needLen_eq (by rw [hp]; rfl)]
  dsimp only
  rw [hu8, need_true (by simp [hp, hlt, zeros, slice]), need_true (by simp [hrun, h1, h2, h3]), need_true (by simp [h1])]
  simp only [h1, h2, h3, Bool.not_false, if_true, Bool.false_eq_true, if_false]
  simp only [reduceCtorEq, if_false]
  refine ⟨_, rfl, ?_⟩
  obtain ⟨hend, hlf, huwb, hrad⟩ := soundParts_end (s := accepted ref { u with soundRun := some { ref := ref, mask := k, left := k + 32 } })
    (l := k + 32) _ _ (by simp [accepted, respond]) hleft
  exact ⟨hend, hlf.trans (by simp [accepted, respond]), huwb.trans (by simp [accepted, respond]), hrad.trans (by simp [accepted, respond])⟩

/-! ### Line readback -/

theorem tpFault_tpDiags {port code : Nat} {clear : Bool} {s : State} (h : bitSet (tpDiags port s) code = clear) :
    tpDiags port (tpFault port code clear s) = if clear then clrBit (tpDiags port s) code else setBit (tpDiags port s) code := by
  unfold tpFault
  rw [h, if_neg (by simp)]
  cases clear <;> by_cases hp : port = 1 <;> simp [tpDiags, emitF, emitC, hp]
@[simp] theorem tpFault_path (port code : Nat) (clear : Bool) (s : State) : (tpFault port code clear s).path = s.path := by
  unfold tpFault
  split
  · rfl
  · dsimp only; split <;> simp [emitF, emitC]

/-- A line of Table 21-3 that the buses read back. -/
theorem exec_signalLineFault_low {line kind : Nat} {s : State} (hr : running s = true) (hl : line ≤ 1) (hk : kind = 1 ∨ kind = 2) :
    let kinds := fun (t : State) => if line = 0 then t.pwr.lineKinds.1 else t.pwr.lineKinds.2
    (bitSet (kinds s) kind = false → Completes (exec (.signalLineFault line kind false) s) (fun t => kinds t = setBit (kinds s) kind)) ∧
    (bitSet (kinds s) kind = true → Completes (exec (.signalLineFault line kind true) s) (fun t => kinds t = clrBit (kinds s) kind)) ∧
    (bitSet (kinds s) kind = true → Completes (exec (.signalLineFault line kind false) s) (fun t => t = s)) ∧
    (bitSet (kinds s) kind = false → Completes (exec (.signalLineFault line kind true) s) (fun t => t = s)) := by
  have hskip : ∀ c, ¬ (!running s || kind = 0 || kind > 3 || (kind = 3 && !(c && line ≥ 2)) || line > 3) = true := fun c => by
    rcases hk with rfl | rfl <;> simp [hr] <;> omega
  refine ⟨fun h => ?_, fun h => ?_, fun h => ?_, fun h => ?_⟩ <;> dsimp only at h <;>
    rw [exec_signalLineFault, execSignalLineFault, if_neg (hskip _), if_neg (by omega)] <;> dsimp only <;> rw [h]
  · refine ⟨_, (if_neg (by decide)).trans (if_neg (by decide)), ?_⟩
    by_cases h0 : line = 0 <;> simp [emitF, h0]
  · refine ⟨_, (if_neg (by decide)).trans (if_pos rfl), ?_⟩
    by_cases h0 : line = 0 <;> simp [emitC, h0]
  · exact ⟨_, rfl, rfl⟩
  · exact ⟨_, rfl, rfl⟩

/-! ### The erosion sample -/

theorem erodeWarn_rest (before : Nat) (e : Erode) (s : State) : (erodeWarn before e s).eroAt = s.eroAt ∧ (erodeWarn before e s).store = s.store := by
  unfold erodeWarn
  dsimp only
  split
  · simp [emitF]
  · split
    · simp [emitC]
    · exact ⟨rfl, rfl⟩

theorem queueJob_eroAt (j : Job) (s : State) : (queueJob j s).eroAt = s.eroAt := rfl
theorem queueJob_queue_length (j : Job) (s : State) : (queueJob j s).store.queue.length = s.store.queue.length + 1 := by
  simp [queueJob]
theorem sampled_eroAt (n : Nat) (s : State) : { s with eroAt := n }.eroAt = n := rfl
theorem sampled_store (n : Nat) (s : State) : { s with eroAt := n }.store = s.store := rfl
theorem completes_next {s : State} {P : State → Prop} (h : P s) : Completes (next s) P := ⟨s, rfl, h⟩
theorem exec_erosionSample_at {s : State} (hr : running s = true) :
    Completes (exec .erosionSample s) (fun t => t.eroAt = max s.clk.mono (s.eroAt + dayUs) ∧ t.store.queue.length = s.store.queue.length + 1) := by
  rw [exec_erosionSample, execErosionSample, if_neg (by simp [hr])]
  dsimp only
  generalize hl : ((List.range 8).map (· + 1)).flatMap (fun i => (List.range (instances i)).map (fun j => (i, j + 1))) = l
  clear hl
  have hstore : (passUs (s.eroAt + dayUs - s.clk.mono) s).store = s.store := passUs_store ..
  have hmono : (passUs (s.eroAt + dayUs - s.clk.mono) s).clk.mono = max s.clk.mono (s.eroAt + dayUs) := by rw [passUs_mono]; omega
  generalize passUs (s.eroAt + dayUs - s.clk.mono) s = v at hstore hmono ⊢
  refine completes_next (And.intro ?_ ?_)
  · rw [queueJob_eroAt, foldl_keeps State.eroAt]
    · exact (sampled_eroAt _ _).trans hmono
    · intro x k
      split
      · rfl
      · exact (erodeWarn_rest ..).1
  · rw [queueJob_queue_length, foldl_keeps State.store]
    · exact congrArg (·.queue.length + 1) ((sampled_store _ _).trans hstore)
    · intro x k
      split
      · rfl
      · exact (erodeWarn_rest ..).2

/-- Settles O60, one rule per handler: a line's readback, a run's parts, the sample of the erosion report. -/
theorem faultsAndErosion : Obligations.FaultsAndErosion := by
  unfold Obligations.FaultsAndErosion
  refine ⟨fun src line kind h r f l x s v => ⟨fun hh hs => ?_, fun hh hs hq => ?_, fun hh hs hq hl => ?_, fun hh hs hq hl hr => ?_, fun hl ht => ?_,
    fun hl => ?_, fun hr hl hk => ?_, fun hr hl hk hp hb => ?_, fun hr hl h1 h3 hb => ?_⟩,
    fun m k ref e s u => ⟨exec_soundingRun_at, exec_erosionSample_at, fun h hp h3 h8 hz he => ?_, fun h hp h1 h2 hz hd he => ?_⟩⟩
  · rw [exec_faultHandlingDone, execFaultHandlingDone, hh, hs]
    exact ⟨_, rfl, rfl⟩
  · rw [exec_faultHandlingDone, execFaultHandlingDone, hh, hs, hq]
    exact ⟨_, rfl, rfl⟩
  · rw [exec_faultHandlingDone, execFaultHandlingDone, hh, hs, hq]
    exact ⟨_, if_pos (by rcases hl with h | h <;> simp [h]), rfl⟩
  · rw [exec_faultHandlingDone, execFaultHandlingDone, hh, hs, hq]
    exact if_neg (by simpa [hl] using hr)
  · rw [exec_recordToHostRing, execRecordToHostRing, if_neg (by omega), ht]
  · rw [exec_recordToHostRing, execRecordToHostRing, if_pos hl]
    exact ⟨_, rfl, rfl⟩
  · exact exec_signalLineFault_low hr hl hk
  · rw [exec_signalLineFault, execSignalLineFault, if_neg (by rcases hk with rfl | rfl <;> simp [hr] <;> omega), if_pos (by omega)]
    refine ⟨_, rfl, ?_⟩
    simp only [tpFault_path, hp]
    exact tpFault_tpDiags hb
  · rw [exec_signalLineFault, execSignalLineFault, if_neg (by simp [hr]; omega), if_pos (by omega)]
    have ht := tpFault_tpDiags (port := line - 1) hb
    refine ⟨_, rfl, Eq.trans ?_ ht⟩
    cases h : s.path <;> simp [h]
  · rw [exec_erosionRead, execErosionRead, runCmd_begun h, needLen_eq hp]
    dsimp only
    rw [need_true (by simp [hz]; omega), he]
    exact congrArg _ (if_neg (by simp; omega))
  · rw [exec_erosionRead, execErosionRead, runCmd_begun h, needLen_eq hp]
    dsimp only
    rw [need_true (by simp [hz]; omega), he]
    exact congrArg _ (if_neg (by simp [hd]))

end Sys2Proof.Machine
end

section
/-! What the machine's operations keep: the queue of commands, OFF, the link of the pair, the memories of the cores, the supplies and the
crystals. -/

namespace Sys2Proof.Machine
open Sys2Proof
/-- What OFF must keep of the supplies: nothing of it counts outside OFF. -/
def offKey (p : Pwr) : Option (Phase × Option Nat × Bool × Bool) :=
  if p.state = .off then some (p.phase, p.ride, p.neapEntry, p.neapAfter) else none
/-- The link to the partner and the role. -/
def linkKey (p : Pair) : Bool × Nat × Bool × Role := (p.up, p.partner, p.joined, p.role)
/-- The supplies and the straps: what neither the power states nor what they leave behind touches. -/
def supplyKey (p : Pwr) : Pwr :=
  { p with
    state := .off, neapEntry := false, neapAfter := false, hostRdy := false, readyAt := 0, persistWanted := false, strandedBy := 0, latched := [],
    cliffActed := false, faultN := false, alarmN := false, tripSeen := [], recovery := false, fwFailed := none, lineKinds := (0, 0), csLow := false,
    csDiscard := false, resetAfter := false, railBad := 0 }
/-- The crystals and what they drive. -/
def crystalKey (c : Clk) : Bool × Bool × Xtal32 × Bool × Nat := (c.xtal26, c.backup, c.xtal32, c.slowOnXtal, c.xtal32From)
/-- What an operation must keep to be of no concern to the queue and OFF, the pair's link, the cores, and the supplies and crystals. -/
structure Kept where
  off : List Instr × Option (Phase × Option Nat × Bool × Bool)
  link : Bool × Nat × Bool × Role
  cores : List Host.Cell × List Host.Cell × Word
  ground : Pwr × (Bool × Bool × Xtal32 × Bool × Nat) × Bool
def kept (s : State) : Kept :=
  ⟨(s.pending, offKey s.pwr), linkKey s.pair, (s.cc.mem, s.xc.mem, s.xc.pc), (supplyKey s.pwr, crystalKey s.clk, s.sec.vaultOk)⟩

@[simp] theorem kept_of_mk (s : State) (x0 : Clk) (x1 : Evt) (x2 : Flt) (x3 : Par) (x4 : Mbx) (x5 : Mbx) (x6 : Bool × Bool) (x7 : Lf) (x8 : Zon) (x9 : List PathReq) (x10 : Option Path) (x11 : List (Nat × Nat)) (x12 : List (Nat × Nat)) (x13 : List (Nat × Nat × Nat × Bool)) (x14 : Uwb) (x15 : Rel) (x16 : Rad) (x17 : Sen) (x18 : Sec) (x19 : Rng) (x20 : Store) (x21 : List Timer) (x22 : Ext) (x23 : Buses) (x24 : List Erode) (x25 : Nat) (x26 : Option SoundRun) (x27 : Nat)
    (hc : crystalKey x0 = crystalKey s.clk) (hs : x18.vaultOk = s.sec.vaultOk) : kept { pending := s.pending, clk := x0, pwr := s.pwr, evt := x1, flt := x2, par := x3, mbx := x4, mmb := x5, wasOpen := x6, lf := x7, zon := x8, paths := x9, path := x10, lastAuth := x11, raised := x12, awaited := x13, uwb := x14, rel := x15, rad := x16, sen := x17, sec := x18, rng := x19, store := x20, timers := x21, cc := s.cc, xc := s.xc, ext := x22, pair := s.pair, bus := x23, ero := x24, eroAt := x25, soundRun := x26, free := x27 } = kept s := by
  simp [kept, hc, hs]
@[simp] theorem offKey_of_mk (p : Pwr) (x0 : Nat) (x1 : Nat) (x2 : List Nat) (x3 : Nat) (x4 : Nat) (x5 : Bool) (x6 : Bool) (x7 : Bool) (x8 : List Bool) (x9 : List Bool) (x10 : Bool) (x11 : Bool) (x12 : Bool) (x13 : Nat × Nat) (x14 : Bool) (x15 : Option (Nat × Nat)) (x16 : Bool) (x17 : Bool) (x18 : Bool) (x19 : Bool) (x20 : Bool) (x21 : Nat) (x22 : Bool) (x23 : Nat) (x24 : Nat) (x25 : List Nat) (x26 : Bool) (x27 : Nat × Bool) (x28 : Nat) (x29 : List Nat) (x30 : Bool) (x31 : Bool) (x32 : Bool) (x33 : Bool) (x34 : Bool) (x35 : Bool) (x36 : Bool) (x37 : List (Nat × Nat)) (x38 : Bool) (x39 : Option (Nat × Nat)) (x40 : Nat × Nat) : offKey { state := p.state, phase := p.phase, vbat := x0, vddio := x1, vlf := x2, vrel := x3, vhold := x4, vbatValid := x5, vbatFull := x6, vbatOv := x7, vlfValid := x8, vlfOv := x9, vrelValid := x10, vddioValid := x11, charger := x12, chargeFrom := x13, holdBusy := x14, hold := x15, holdSkip := x16, ride := p.ride, shutdown := x17, neapEntry := p.neapEntry, neapAfter := p.neapAfter, hostRdy := x18, csLow := x19, csDiscard := x20, readyAt := x21, persistWanted := x22, strandedBy := x23, cause := x24, wdt := x25, resetAfter := x26, wdtSeen := x27, railBad := x28, latched := x29, cliffActed := x30, faultN := x31, alarmN := x32, cwPair := x33, cwRole := x34, testEn := x35, scanTest := x36, tripSeen := x37, recovery := x38, fwFailed := x39, lineKinds := x40 } = offKey p := (rfl)
@[simp] theorem supplyKey_of_mk (p : Pwr) (x0 : Power) (x1 : Bool) (x2 : Bool) (x3 : Bool) (x4 : Bool) (x5 : Bool) (x6 : Nat) (x7 : Bool) (x8 : Nat) (x9 : Bool) (x10 : Nat) (x11 : List Nat) (x12 : Bool) (x13 : Bool) (x14 : Bool) (x15 : List (Nat × Nat)) (x16 : Bool) (x17 : Option (Nat × Nat)) (x18 : Nat × Nat) : supplyKey { state := x0, phase := p.phase, vbat := p.vbat, vddio := p.vddio, vlf := p.vlf, vrel := p.vrel, vhold := p.vhold, vbatValid := p.vbatValid, vbatFull := p.vbatFull, vbatOv := p.vbatOv, vlfValid := p.vlfValid, vlfOv := p.vlfOv, vrelValid := p.vrelValid, vddioValid := p.vddioValid, charger := p.charger, chargeFrom := p.chargeFrom, holdBusy := p.holdBusy, hold := p.hold, holdSkip := p.holdSkip, ride := p.ride, shutdown := p.shutdown, neapEntry := x1, neapAfter := x2, hostRdy := x3, csLow := x4, csDiscard := x5, readyAt := x6, persistWanted := x7, strandedBy := x8, cause := p.cause, wdt := p.wdt, resetAfter := x9, wdtSeen := p.wdtSeen, railBad := x10, latched := x11, cliffActed := x12, faultN := x13, alarmN := x14, cwPair := p.cwPair, cwRole := p.cwRole, testEn := p.testEn, scanTest := p.scanTest, tripSeen := x15, recovery := x16, fwFailed := x17, lineKinds := x18 } = supplyKey p := (rfl)
@[simp] theorem crystalKey_of_mk (c : Clk) (x0 : Nat) (x1 : Int) (x2 : Nat) (x3 : Nat) (x4 : Nat) (x5 : Nat) (x6 : Nat) (x7 : Nat) (x8 : Nat) (x9 : Bool) (x10 : Option Nat) (x11 : Nat) (x12 : Nat) : crystalKey { base := x0, offset := x1, slew := x2, mono := x3, slowOnXtal := c.slowOnXtal, xtal32 := c.xtal32, xtal26 := c.xtal26, backup := c.backup, slowPeriod := x4, slowMeasured := x5, edges := x6, frac := x7, pBefore := x8, corrDue := x9, wakeEdge := x10, xtal32From := c.xtal32From, floodFrom := x11, neapFrom := x12 } = crystalKey c := (rfl)
@[simp] theorem linkKey_of_mk (p : Pair) (x0 : Bool) (x1 : Nat) (x2 : Option Bytes) (x3 : Option Chan) (x4 : Nat) (x5 : Nat) (x6 : List (Nat × Bytes)) (x7 : Option Bytes) (x8 : Option Nat) (x9 : Nat) (x10 : Nat) (x11 : Nat) (x12 : Nat) (x13 : Int × Nat × Nat) (x14 : Nat) (x15 : Bool) (x16 : Nat) (x17 : Nat) (x18 : Nat) (x19 : List MirrorItem) (x20 : List (Nat × Nat)) (x21 : List (Nat × Nat × Nat × Nat)) (x22 : List (Nat × QCmd)) (x23 : List (Nat × QCmd)) (x24 : List OutFrame) (x25 : Option (Nat × Path)) (x26 : List MirSession) (x27 : List EvRec) (x28 : List (Nat × QCmd)) (x29 : List Nat) (x30 : Option (Nat × Nat)) (x31 : Option Bytes) (x32 : Option Nat) (x33 : Option (CmdRef × Nat × Bytes × Nat)) (x34 : Option (CmdRef × Nat)) (x35 : Nat) (x36 : Bool × Nat) (x37 : Nat) : linkKey { role := p.role, partner := p.partner, locked := x0, up := p.up, version := x1, nonce := x2, link := x3, tx := x4, rx := x5, sent := x6, serial := x7, headFrom := x8, missed := x9, misses := x10, lastBeat := x11, lastSent := x12, beat := x13, beatTick := x14, neapOk := x15, mirrorTx := x16, mirrorAck := x17, mirrorRx := x18, partial_ := x19, backlog := x20, commits := x21, mirrored := x22, heard := x23, responses := x24, path := x25, sessions := x26, ring := x27, accepted := x28, taken := x29, transfer := x30, reportDue := x31, freshness := x32, joined := p.joined, admission := x33, switch_ := x34, takeovers := x35, alive := x36, aliveOut := x37 } = linkKey p := (rfl)
@[simp] theorem kept_ite (c : Prop) [Decidable c] (a b : State) : kept (if c then a else b) = if c then kept a else kept b := apply_ite ..
@[simp] theorem kept_onPwr (s : State) (f : Pwr → Pwr) (h : ∀ p, offKey (f p) = offKey p ∧ supplyKey (f p) = supplyKey p) : kept (s.onPwr f) = kept s := by
  simp [kept, h]
@[simp] theorem kept_onPair (s : State) (f : Pair → Pair) (h : ∀ p, linkKey (f p) = linkKey p) : kept (s.onPair f) = kept s := by
  simp [kept, h]
@[simp] theorem kept_onClk (s : State) (f : Clk → Clk) (h : ∀ c, crystalKey (f c) = crystalKey c) : kept (s.onClk f) = kept s := by
  simp [kept, h]
@[simp] theorem kept_onSec (s : State) (f : Sec → Sec) (h : ∀ x, (f x).vaultOk = x.vaultOk) : kept (s.onSec f) = kept s := by
  simp [kept, h]
@[simp] theorem kept_onEvt (s : State) (f : Evt → Evt) : kept (s.onEvt f) = kept s := (rfl)
@[simp] theorem kept_onFlt (s : State) (f : Flt → Flt) : kept (s.onFlt f) = kept s := (rfl)
@[simp] theorem kept_onPar (s : State) (f : Par → Par) : kept (s.onPar f) = kept s := (rfl)
@[simp] theorem kept_onLf (s : State) (f : Lf → Lf) : kept (s.onLf f) = kept s := (rfl)
@[simp] theorem kept_onZon (s : State) (f : Zon → Zon) : kept (s.onZon f) = kept s := (rfl)
@[simp] theorem kept_onUwb (s : State) (f : Uwb → Uwb) : kept (s.onUwb f) = kept s := (rfl)
@[simp] theorem kept_onRel (s : State) (f : Rel → Rel) : kept (s.onRel f) = kept s := (rfl)
@[simp] theorem kept_onRad (s : State) (f : Rad → Rad) : kept (s.onRad f) = kept s := (rfl)
@[simp] theorem kept_onSen (s : State) (f : Sen → Sen) : kept (s.onSen f) = kept s := (rfl)
@[simp] theorem kept_onRng (s : State) (f : Rng → Rng) : kept (s.onRng f) = kept s := (rfl)
@[simp] theorem kept_onStore (s : State) (f : Store → Store) : kept (s.onStore f) = kept s := (rfl)
@[simp] theorem kept_onExt (s : State) (f : Ext → Ext) : kept (s.onExt f) = kept s := (rfl)
@[simp] theorem kept_onBus (s : State) (f : Buses → Buses) : kept (s.onBus f) = kept s := (rfl)
@[simp] theorem kept_onPath (s : State) (f : Path → Path) : kept (s.onPath f) = kept s := (rfl)
@[simp] theorem kept_onBox (s : State) (m : Bool) (f : Mbx → Mbx) : kept (s.onBox m f) = kept s := by cases m <;> rfl
@[simp] theorem kept_foldl {α : Type} {f : State → α → State} (h : ∀ s x, kept (f s x) = kept s) (l : List α) (s : State) : kept (l.foldl f s) = kept s := by
  induction l generalizing s with
  | nil => rfl
  | cons x l ih => exact (ih _).trans (h s x)
@[simp] theorem kept_ite_off (c : Prop) [Decidable c] (a b : Kept) : (if c then a else b).off = if c then a.off else b.off := apply_ite ..
theorem kept_snd {α : Type} {p : α × State} {a : α} {t : State} (h : p = (a, t)) : kept t = kept p.2 := by rw [h]

/-! ### Params -/

@[simp] theorem kept_boundary (b : Bound) (s : State) : kept (boundary b s) = kept s := (rfl)
@[simp] theorem kept_writeParam (s0 : State) (id v : Nat) (s : State) : kept (writeParam s0 id v s) = kept s := (rfl)
@[simp] theorem kept_writeParams (entries : List (Nat × Nat)) (s : State) : kept (writeParams entries s) = kept s := by unfold writeParams; simp

/-! ### Ops -/

@[simp] theorem kept_drawFree (s : State) : kept (drawFree s).2 = kept s := (rfl)
@[simp] theorem kept_queueJob (j : Job) (s : State) : kept (queueJob j s) = kept s := (rfl)
@[simp] theorem kept_erodeAdd (item inst : Nat) (x : Int) (s : State) : kept (erodeAdd item inst x s) = kept s := by unfold erodeAdd; simp
@[simp] theorem kept_wires (s : State) : kept (wires s) = kept s := (rfl)
@[simp] theorem kept_backlogPush (pinned : Bool) (entry : Bytes) (s : State) : kept (backlogPush pinned entry s) = kept s := (rfl)
@[simp] theorem kept_logOnly (code : Nat) (params : Bytes) (s : State) : kept (logOnly code params s) = kept s := (rfl)
@[simp] theorem kept_handleFault (code cls : Nat) (s : State) : kept (handleFault code cls s).2 = kept s := by
  unfold handleFault
  (repeat' split) <;> simp
@[simp] theorem kept_holdFault (src code cls seq : Nat) (inst : Bytes) (s : State) : kept (holdFault src code cls seq inst s) = kept s := by unfold holdFault; simp
@[simp] theorem kept_dropFault (code : Nat) (inst : Bytes) (s : State) : kept (dropFault code inst s) = kept s := (rfl)
@[simp] theorem kept_stampFor (src found : Nat) (s : State) : kept (stampFor src found s).2.2 = kept s := (rfl)
@[simp] theorem kept_flushLost (src : Nat) (s : State) : kept (flushLost src s) = kept s := by unfold flushLost; split <;> simp
@[simp] theorem kept_placeRecord (r : EvRec) (s : State) : kept (placeRecord r s) = kept s := (rfl)
@[simp] theorem kept_raiseX (code cls : Nat) (params : Bytes) (o : EvOpt) (s : State) : kept (raiseX code cls params o s) = kept s := by unfold raiseX; simp
@[simp] theorem kept_emitX (code cls : Nat) (params : Bytes) (o : EvOpt) (s : State) : kept (emitX code cls params o s) = kept s := by unfold emitX; simp
@[simp] theorem kept_emit (code cls : Nat) (params : Bytes) (s : State) : kept (emit code cls params s) = kept s := by unfold emit; simp
@[simp] theorem kept_emitF (code cls : Nat) (inst params : Bytes) (s : State) : kept (emitF code cls inst params s) = kept s := by unfold emitF; simp
@[simp] theorem kept_emitC (code cls : Nat) (inst params : Bytes) (s : State) : kept (emitC code cls inst params s) = kept s := by unfold emitC; simp
@[simp] theorem kept_emitT (tag : Option Nat) (code cls : Nat) (params : Bytes) (s : State) : kept (emitT tag code cls params s) = kept s := by unfold emitT; simp
@[simp] theorem kept_queueOverflow (row n : Nat) (s : State) : kept (queueOverflow row n s) = kept s := by unfold queueOverflow; simp
@[simp] theorem kept_rateLimit (key us : Nat) (s : State) : kept (rateLimit key us s).2 = kept s := by
  unfold rateLimit
  (repeat' split) <;> simp
@[simp] theorem kept_timersPass (us : Nat) (s : State) : kept (timersPass us s) = kept s := (rfl)
@[simp] theorem kept_advanceBase (us : Nat) (s : State) : kept (advanceBase us s) = kept s := by unfold advanceBase; simp
@[simp] theorem kept_countersPass (us : Nat) (s : State) : kept (countersPass us s) = kept s := by
  unfold countersPass
  split
  · exact (kept_timersPass ..).trans rfl
  · rfl
@[simp] theorem kept_budgetPass (us : Nat) (s : State) : kept (budgetPass us s) = kept s := by unfold budgetPass; simp
@[simp] theorem kept_idlePass (s0 s : State) : kept (idlePass s0 s) = kept s := (rfl)
@[simp] theorem kept_busDiag (bus kind : Nat) (clear : Bool) (s : State) : kept (busDiag bus kind clear s) = kept s := by unfold busDiag; simp
@[simp] theorem kept_relSent (s : State) (f : CanFrame) : kept (relSent s f) = kept s := by unfold relSent; simp
@[simp] theorem kept_canPass (s : State) : kept (canPass s) = kept s := by unfold canPass; simp
@[simp] theorem kept_passUs (us : Nat) (s : State) : kept (passUs us s) = kept s := by unfold passUs; simp
@[simp] theorem kept_passSlowEdge (s : State) : kept (passSlowEdge s) = kept s := by unfold passSlowEdge; simp
@[simp] theorem kept_advanceTo (t : Nat) (s : State) : kept (advanceTo t s) = kept s := by unfold advanceTo; simp
@[simp] theorem kept_dueAt (t : Nat) (s : State) : kept (dueAt t s) = kept s := by unfold dueAt; simp
@[simp] theorem kept_monoAt (t : Nat) (s : State) : kept (monoAt t s) = kept s := by unfold monoAt; simp
@[simp] theorem kept_passTime (s : State) : kept (passTime s) = kept s := by unfold passTime; split <;> simp

/-! ### ExtOps -/

@[simp] theorem kept_onSlot (i : Nat) (f : Slot → Slot) (s : State) : kept (onSlot i f s) = kept s := (rfl)
@[simp] theorem kept_queueInvoc (v : Invoc) (s : State) : kept (queueInvoc v s).2 = kept s := by unfold queueInvoc; split <;> simp
@[simp] theorem kept_notifySlots (event : Nat) (body : Bytes) (s : State) : kept (notifySlots event body s) = kept s := kept_foldl (fun _ _ => kept_queueInvoc ..) _ _
@[simp] theorem kept_timerEvent (n : Nat) (s : State) : kept (timerEvent n s) = kept s := by
  unfold timerEvent
  (repeat' split) <;> simp
@[simp] theorem kept_countTrouble (i : Nat) (overrun : Bool) (s : State) : kept (countTrouble i overrun s) = kept s := (rfl)
@[simp] theorem kept_eraseVol (s : State) : kept (eraseVol s) = kept s := (rfl)

/-! ### PairOps -/

@[simp] theorem kept_sendFlagged (flags type : Nat) (payload : Bytes) (s : State) : kept (sendFlagged flags type payload s) = kept s := by unfold sendFlagged; simp
@[simp] theorem kept_sendBlock (type : Nat) (payload : Bytes) (s : State) : kept (sendBlock type payload s) = kept s := by unfold sendBlock; simp
@[simp] theorem kept_mirror (items : List MirrorItem) (s : State) : kept (mirror items s) = kept s := by unfold mirror; simp
@[simp] theorem kept_askCommit (id value : Nat) (s : State) : kept (askCommit id value s) = kept s := by unfold askCommit; simp
@[simp] theorem kept_boundaryM (b : Bound) (s : State) : kept (boundaryM b s) = kept s := by unfold boundaryM; simp
@[simp] theorem kept_mirrorSessions (ended : List Nat) (s : State) : kept (mirrorSessions ended s) = kept s := by unfold mirrorSessions; simp
@[simp] theorem kept_mirrorPath (point : Nat) (s : State) : kept (mirrorPath point s) = kept s := by unfold mirrorPath; split <;> simp
@[simp] theorem kept_mirrorLocated (s : State) : kept (mirrorLocated s) = kept s := by unfold mirrorLocated; simp

/-! ### MbxOps -/

@[simp] theorem kept_mirrorLink (s : State) : kept (mirrorLink s) = kept s := by unfold mirrorLink; simp
@[simp] theorem kept_closeSecure (member : Bool) (reason : Nat) (s : State) : kept (closeSecure member reason s) = kept s := by unfold closeSecure; simp
@[simp] theorem kept_rekeyDue (member : Bool) (space seq : Nat) (s : State) : kept (rekeyDue member space seq s) = kept s := by unfold rekeyDue; simp
@[simp] theorem kept_takeSeq (member : Bool) (space : Nat) (s : State) : kept (takeSeq member space s).2 = kept s := by
  unfold takeSeq
  dsimp only
  (repeat' split) <;> simp
@[simp] theorem kept_sendCtl (member : Bool) (op : Nat) (b0 : Bytes) (v : Nat) (s : State) : kept (sendCtl member op b0 v s) = kept s := by
  have hk := kept_takeSeq member 8 s
  unfold sendCtl
  generalize takeSeq member 8 s = p at hk ⊢
  obtain ⟨_ | q, t⟩ := p <;> replace hk : kept t = _ := hk <;> split <;> simp [hk]
@[simp] theorem kept_frameError (member : Bool) (reason lane seq : Nat) (s : State) : kept (frameError member reason lane seq s) = kept s := by unfold frameError; simp
@[simp] theorem kept_sendResponse (flags : Nat) (fin : Bool) (ref : CmdRef) (status : Nat) (fields : Bytes) (s : State) : kept (sendResponse flags fin ref status fields s) = kept s := by
  have hk := kept_takeSeq ref.member ref.lane s
  unfold sendResponse
  generalize takeSeq ref.member ref.lane s = p at hk ⊢
  obtain ⟨_ | q, t⟩ := p <;> replace hk : kept t = _ := hk
  · exact hk
  · dsimp only; split <;> simp [hk]
@[simp] theorem kept_refuse (flags : Nat) (ref : CmdRef) (status : Nat) (fields : Bytes) (s : State) : kept (refuse flags ref status fields s) = kept s := by unfold refuse; simp
@[simp] theorem kept_endCommand (retire : Bool) (ref : CmdRef) (s : State) : kept (endCommand retire ref s) = kept s := by unfold endCommand; simp
@[simp] theorem kept_respondWith (flags : Nat) (ref : CmdRef) (status : Nat) (fields : Bytes) (s : State) : kept (respondWith flags ref status fields s) = kept s := by
  unfold respondWith
  dsimp only
  (repeat' split) <;> simp
@[simp] theorem kept_respond (ref : CmdRef) (status : Nat) (fields : Bytes) (s : State) : kept (respond ref status fields s) = kept s := by unfold respond; simp
@[simp] theorem kept_reply (ref : CmdRef) (fields : Bytes) (s : State) : kept (reply ref fields s) = kept s := by unfold reply; simp
@[simp] theorem kept_cmdDone (ref : CmdRef) (status : Nat) (result : Bytes) (s : State) : kept (cmdDone ref status result s) = kept s := by unfold cmdDone; simp
@[simp] theorem kept_cmdDoneO (ref : Option CmdRef) (status : Nat) (result : Bytes) (s : State) : kept (cmdDoneO ref status result s) = kept s := by unfold cmdDoneO; split <;> simp
@[simp] theorem kept_pumpEvents (s : State) : kept (pumpEvents s) = kept s := by
  have hk := kept_takeSeq (eventBox s) 7 s
  unfold pumpEvents
  dsimp only
  split
  · rfl
  · generalize takeSeq (eventBox s) 7 s = p at hk ⊢
    obtain ⟨_ | q, t⟩ := p <;> replace hk : kept t = _ := hk <;> simp [hk]
@[simp] theorem kept_reoffer (member : Bool) (s : State) : kept (reoffer member s) = kept s := by unfold reoffer; simp
@[simp] theorem kept_activity (s : State) : kept (activity s) = kept s := (rfl)
@[simp] theorem kept_neapStir (s : State) : kept (neapStir s) = kept s := (rfl)
@[simp] theorem kept_unlinkedAnswer (member : Bool) (lane tag op : Nat) (s : State) : kept (unlinkedAnswer member lane tag op s) = kept s := by unfold unlinkedAnswer; simp
@[simp] theorem kept_takeExpected (member : Bool) (lane seq : Nat) (s : State) : kept (takeExpected member lane seq s) = kept s := by unfold takeExpected; simp

/-! ### Mailbox -/

@[simp] theorem kept_takeRx (member : Bool) (s : State) : kept (takeRx member s) = kept s := by unfold takeRx; simp
@[simp] theorem kept_renumber (member : Bool) (s : State) : kept (renumber member s) = kept s := by
  have one : ∀ (lane : Nat) (u : State) (g : Nat → State → State) , (∀ q t, kept (g q t) = kept t) →
      kept (match takeSeq member lane u with | (some q, t) => g q t | (none, t) => t) = kept u := by
    intro lane u g hg
    have hk := kept_takeSeq member lane u
    generalize takeSeq member lane u = p at hk ⊢
    obtain ⟨_ | q, t⟩ := p <;> replace hk : kept t = _ := hk <;> simp [hk, hg]
  unfold renumber
  refine (kept_foldl (fun u (f : OutFrame) => one f.lane u _ ?_) _ _).trans ((kept_foldl (fun u f => one 8 u _ ?_) _ _).trans (kept_onBox ..)) <;> simp
@[simp] theorem kept_openChannel (member : Bool) (tag : Nat) (s : State) : kept (openChannel member tag s) = kept s := by unfold openChannel; split <;> simp
@[simp] theorem kept_frameHeld (member : Bool) (f : OutFrame) (s : State) : kept (frameHeld member f s) = kept s := by unfold frameHeld; simp
@[simp] theorem kept_retireFrame (member : Bool) (f : OutFrame) (s : State) : kept (retireFrame member f s) = kept s := by unfold retireFrame; simp
@[simp] theorem kept_resend (member : Bool) (f : OutFrame) (s : State) : kept (resend member f s) = kept s := by unfold resend; simp
@[simp] theorem kept_helloEffects (member : Bool) (tag : Option Nat) (s : State) : kept (helloEffects member tag s) = kept s := by unfold helloEffects; simp
@[simp] theorem kept_helloRefused (member : Bool) (ref : Option CmdRef) (tag status : Nat) (s : State) : kept (helloRefused member ref tag status s) = kept s := by
  have hk := kept_takeSeq member 0 s
  unfold helloRefused
  generalize takeSeq member 0 s = p at hk ⊢
  obtain ⟨_ | q, t⟩ := p <;> replace hk : kept t = _ := hk <;> dsimp only <;> (repeat' split) <;> simp [hk]
@[simp] theorem kept_hello (member : Bool) (ref : Option CmdRef) (tag : Nat) (p : Bytes) (s : State) : kept (hello member ref tag p s) = kept s := by unfold hello; simp
@[simp] theorem kept_authFailure (member : Bool) (s : State) : kept (authFailure member s) = kept s := by unfold authFailure; simp
@[simp] theorem kept_seqGap (member : Bool) (lane : Nat) (s : State) : kept (seqGap member lane s) = kept s := by unfold seqGap; simp
@[simp] theorem kept_commandFrame (member : Bool) (lane flags tag ifv op seq : Nat) (payload : Bytes) (s : State) : kept (commandFrame member lane flags tag ifv op seq payload s) = kept s := by
  unfold commandFrame
  dsimp only
  (repeat' split) <;> simp
@[simp] theorem kept_ctlResend (member : Bool) (lane first : Nat) (s : State) : kept (ctlResend member lane first s) = kept s := by unfold ctlResend; simp
@[simp] theorem kept_ctlEvtAck (member : Bool) (upTo : Nat) (s : State) : kept (ctlEvtAck member upTo s) = kept s := by unfold ctlEvtAck; simp
@[simp] theorem kept_ctlAccept (member : Bool) (seq : Nat) (s : State) (k : State → State) (h : ∀ t, kept (k t) = kept t) : kept (ctlAccept member seq s k) = kept s := by
  unfold ctlAccept
  split
  · rfl
  · simp [h]
@[simp] theorem kept_controlFrame (member : Bool) (lane flags tag op seq : Nat) (p : Bytes) (s : State) : kept (controlFrame member lane flags tag op seq p s) = kept s := by
  unfold controlFrame
  extract_lets okOp okBody
  (repeat' split) <;> simp
@[simp] theorem kept_clearFrame (member : Bool) (hdr payload : Bytes) (s : State) : kept (clearFrame member hdr payload s) = kept s := by unfold clearFrame; simp
@[simp] theorem kept_inbound (member : Bool) (bytes : Bytes) (s : State) : kept (inbound member bytes s) = kept s := by
  unfold inbound
  dsimp only
  (repeat' split) <;> simp
@[simp] theorem kept_csEnds (s : State) : kept (csEnds s) = kept s := (rfl)
@[simp] theorem kept_spiRow (member : Bool) (n : Nat) (s : State) (k : State → State) (h : ∀ t, kept (k t) = kept t) : kept (spiRow member n s k) = kept s := by
  unfold spiRow
  dsimp only
  split <;> simp [h]
@[simp] theorem kept_overhear (bytes : Bytes) (s : State) : kept (overhear bytes s) = kept s := by unfold overhear; simp
@[simp] theorem kept_canSend (f : CanFrame) (s : State) : kept (canSend f s) = kept s := (rfl)
@[simp] theorem kept_isoSend (member : Bool) (b : Bytes) (s : State) : kept (isoSend member b s) = kept s := (rfl)
@[simp] theorem kept_isoFlow (member : Bool) (st : Nat) (s : State) : kept (isoFlow member st s) = kept s := (rfl)
@[simp] theorem kept_isoAbandon (member : Bool) (s : State) : kept (isoAbandon member s) = kept s := by unfold isoAbandon; split <;> simp

/-! ### Store -/

@[simp] theorem kept_copyADone (s : State) : kept (copyADone s) = kept s := by unfold copyADone; split <;> simp
@[simp] theorem kept_noteDeferral (j : Job) (s : State) : kept (noteDeferral j s) = kept s := by unfold noteDeferral; simp
@[simp] theorem kept_reuseLogPage (s : State) : kept (reuseLogPage s) = kept s := by unfold reuseLogPage; split <;> simp
@[simp] theorem kept_pumpLog (s : State) : kept (pumpLog s) = kept s := by
  unfold pumpLog
  (repeat' split) <;> simp
@[simp] theorem kept_logCommitted (s : State) : kept (logCommitted s) = kept s := by unfold logCommitted; split <;> simp
@[simp] theorem kept_retire (i : Nat) (failed : Bool) (s : State) : kept (retire i failed s) = kept s := by
  unfold retire
  dsimp only
  (repeat' split) <;> simp
@[simp] theorem kept_copyTime (w : Writing) (s : State) : kept (copyTime w s) = kept s := by unfold copyTime; simp
@[simp] theorem kept_cellEnds (s : State) : kept (cellEnds s) = kept s := by unfold cellEnds; split <;> simp
@[simp] theorem kept_cutWrite (w : Writing) (s : State) : kept (cutWrite w s) = kept s := by
  unfold cutWrite
  dsimp only
  (repeat' split) <;> simp
@[simp] theorem kept_cutStore (s : State) : kept (cutStore s) = kept s := by
  unfold cutStore
  dsimp only
  (repeat' split) <;> simp

/-! ### RngOps -/

@[simp] theorem kept_tryReseed (s : State) : kept (tryReseed s) = kept s := by
  unfold tryReseed
  (repeat' split) <;> simp
@[simp] theorem kept_tryInstantiate (s : State) : kept (tryInstantiate s) = kept s := by
  unfold tryInstantiate
  split
  · rfl
  · split
    · refine (kept_emit ..).trans ?_
      split
      · exact kept_emitC ..
      · rfl
    · rfl
@[simp] theorem kept_generate (n : Nat) (s : State) : kept (generate n s).2 = kept s := by
  unfold generate
  (repeat' split) <;> simp
@[simp] theorem kept_draw (u : RngUser) (n : Nat) (s : State) : kept (draw u n s).2 = kept s := by
  have hk := kept_generate n s
  unfold draw
  generalize generate n s = p at hk ⊢
  obtain ⟨_ | b, t⟩ := p <;> replace hk : kept t = _ := hk <;> simpa using hk
@[simp] theorem kept_drawKey (n : Nat) (s : State) : kept (drawKey n s).2 = kept s := by
  unfold drawKey
  dsimp only
  (repeat' split) <;> simp
@[simp] theorem kept_zeroiseRng (s : State) : kept (zeroiseRng s) = kept s := (rfl)
@[simp] theorem kept_onRngPort (o : CoreId) (f : RngPort → RngPort) (s : State) : kept (onRngPort o f s) = kept s := (rfl)
@[simp] theorem kept_refillPort (o : CoreId) (s : State) : kept (refillPort o s) = kept s := by
  have hk := kept_generate 64 s
  unfold refillPort
  generalize generate 64 s = p at hk ⊢
  obtain ⟨_ | b, t⟩ := p <;> replace hk : kept t = _ := hk <;> split <;> simp [hk]
@[simp] theorem kept_readRngData (o : CoreId) (s : State) : kept (readRngData o s).2 = kept s := by
  unfold readRngData
  dsimp only
  (repeat' split) <;> simp
@[simp] theorem kept_readRngReg (o : CoreId) (off : Nat) (s : State) : kept (readRngReg o off s).2 = kept s := by unfold readRngReg; split <;> simp
@[simp] theorem kept_askReseed (o : CoreId) (s : State) : kept (askReseed o s) = kept s := by unfold askReseed; simp
@[simp] theorem kept_flushPort (o : CoreId) (s : State) : kept (flushPort o s) = kept s := by unfold flushPort; simp
@[simp] theorem kept_writeRngTest (v : Word) (s : State) : kept (writeRngTest v s) = kept s := by unfold writeRngTest; simp
@[simp] theorem kept_writeRngReg (o : CoreId) (off : Nat) (v : Word) (s : State) : kept (writeRngReg o off v s) = kept s := by
  unfold writeRngReg
  (repeat' split) <;> simp
@[simp] theorem kept_answerOpen (ref : CmdRef) (nH nD : Bytes) (s : State) : kept (answerOpen ref nH nD s) = kept s := by unfold answerOpen; split <;> simp
@[simp] theorem kept_serveOpens (s : State) : kept (serveOpens s) = kept s := by
  refine kept_foldl (fun s m => ?_) _ _
  have hk := kept_draw .nonce 32 s
  generalize draw .nonce 32 s = p at hk ⊢
  obtain ⟨_ | b, t⟩ := p <;> replace hk : kept t = _ := hk <;> split <;> simp [hk]

/-! ### RelOps -/

@[simp] theorem kept_reserveBlock (s : State) : kept (reserveBlock s) = kept s := by unfold reserveBlock; simp
@[simp] theorem kept_takeFresh (s : State) : kept (takeFresh s).2 = kept s := by
  unfold takeFresh
  (repeat' split) <;> simp
@[simp] theorem kept_sendRel (bus ident ver type session permit : Nat) (key : Option Bytes) (s : State) : kept (sendRel bus ident ver type session permit key s) = kept s := by
  have hk := kept_takeFresh s
  unfold sendRel
  split
  · rfl
  · split
    · rfl
    · generalize takeFresh s = p at hk ⊢
      obtain ⟨_ | f, t⟩ := p <;> replace hk : kept t = _ := hk <;> simp [hk]
@[simp] theorem kept_startFrame (permit : Bool) (s : State) : kept (startFrame permit s) = kept s := by unfold startFrame; split <;> simp
@[simp] theorem kept_doorFrames (session : Nat) (s : State) : kept (doorFrames session s) = kept s := by unfold doorFrames; simp
@[simp] theorem kept_linCommand (bus node : Nat) (unlock : Bool) (s : State) : kept (linCommand bus node unlock s) = kept s := by
  have hk := kept_takeFresh s
  unfold linCommand
  generalize takeFresh s = p at hk ⊢
  obtain ⟨_ | f, t⟩ := p <;> replace hk : kept t = _ := hk <;> dsimp only <;> (repeat' split) <;> simp [hk]
@[simp] theorem kept_relPin (pin : Nat) (on : Bool) (s : State) : kept (relPin pin on s) = kept s := (rfl)
@[simp] theorem kept_pinJoin (record : Bytes) (joins : Bool) (s : State) : kept (pinJoin record joins s) = kept s := by unfold pinJoin; simp
@[simp] theorem kept_doorLeaves (d : DoorHold) (s : State) : kept (doorLeaves d s) = kept s := by unfold doorLeaves; simp
@[simp] theorem kept_takeId (s : State) : kept (takeId s).2 = kept s := (rfl)
@[simp] theorem kept_forgetDoorFmt (s : State) : kept (forgetDoorFmt s) = kept s := by unfold forgetDoorFmt; simp
@[simp] theorem kept_closeAccess (id reason : Nat) (tag : Option Nat) (s : State) : kept (closeAccess id reason tag s) = kept s := by unfold closeAccess; split <;> simp
@[simp] theorem kept_dropDoor (door : Nat) (s : State) : kept (dropDoor door s) = kept s := by unfold dropDoor; split <;> simp
@[simp] theorem kept_tpFault (port code : Nat) (clear : Bool) (s : State) : kept (tpFault port code clear s) = kept s := by unfold tpFault; simp
@[simp] theorem kept_energise (s : State) : kept (energise s) = kept s := by unfold energise; split <;> simp
@[simp] theorem kept_withdrawOutputs (s : State) : kept (withdrawOutputs s) = kept s := (rfl)
@[simp] theorem kept_closeStart (reason : Nat) (tag : Option Nat) (s : State) : kept (closeStart reason tag s) = kept s := by unfold closeStart; split <;> simp
@[simp] theorem kept_closeAll (reason : Nat) (tag : Option Nat) (s : State) : kept (closeAll reason tag s) = kept s := by unfold closeAll; simp
@[simp] theorem kept_doorReads (door : Nat) (isOpen : Bool) (s : State) : kept (doorReads door isOpen s) = kept s := by
  unfold doorReads
  dsimp only
  (repeat' split) <;> simp
@[simp] theorem kept_doorSource (isSrc : Bytes → Bool) (isOpen : Bool) (s : State) : kept (doorSource isSrc isOpen s) = kept s := by
  refine kept_foldl (fun s d => ?_) _ _
  (repeat' split) <;> simp
@[simp] theorem kept_ignitionReads (on : Bool) (s : State) : kept (ignitionReads on s) = kept s := (rfl)
@[simp] theorem kept_grantStart (cands : List (Nat × Nat × Nat)) (pick : List (Nat × Nat × Nat) → Nat) (tp : Bool) (ref : Nat × Nat) (tag : Option Nat) (s : State) : kept (grantStart cands pick tp ref tag s) = kept s := by unfold grantStart; split <;> simp
@[simp] theorem kept_grantAccess (token : Nat) (doors : List Nat) (authRef : Nat × Nat) (commitSeq : Nat) (tag : Option Nat) (s : State) : kept (grantAccess token doors authRef commitSeq tag s).2 = kept s := by
  unfold grantAccess
  dsimp only
  (repeat' split) <;> simp

/-! ### LfOps -/

@[simp] theorem kept_onChan (c : Nat) (f : LfChan → LfChan) (s : State) : kept (onChan c f s) = kept s := (rfl)
@[simp] theorem kept_addEth (uj : Nat) (s : State) : kept (addEth uj s) = kept s := (rfl)
@[simp] theorem kept_settleEth (s : State) : kept (settleEth s) = kept s := by unfold settleEth; simp
@[simp] theorem kept_addLfDuty (ms : Nat) (s : State) : kept (addLfDuty ms s) = kept s := (rfl)
@[simp] theorem kept_addDrive (a b : Nat) (s : State) : kept (addDrive a b s) = kept s := (rfl)
@[simp] theorem kept_setLfDiag (c bit : Nat) (s : State) : kept (setLfDiag c bit s) = kept s := by unfold setLfDiag; simp
@[simp] theorem kept_clrLfDiag (c bit : Nat) (s : State) : kept (clrLfDiag c bit s) = kept s := by unfold clrLfDiag; simp
@[simp] theorem kept_clrDriveDiags (c : Nat) (s : State) : kept (clrDriveDiags c s) = kept s := by unfold clrDriveDiags; simp
@[simp] theorem kept_retune (s : State) : kept (retune s) = kept s := by
  refine (kept_foldl (fun s c => ?_) _ _).trans (kept_onLf ..)
  split <;> simp
@[simp] theorem kept_modelCommit (s : State) : kept (modelCommit s) = kept s := by unfold modelCommit; simp
@[simp] theorem kept_applyEnable (c : Nat) (on : Bool) (s : State) : kept (applyEnable c on s) = kept s := by unfold applyEnable; simp
@[simp] theorem kept_takeLfRecord (s : State) : kept (takeLfRecord s) = kept s := by unfold takeLfRecord; simp
@[simp] theorem kept_lfLive (s : State) : kept (lfLive s) = kept s := by unfold lfLive; simp
@[simp] theorem kept_lfStopped (s : State) : kept (lfStopped s) = kept s := by unfold lfStopped; simp
@[simp] theorem kept_postponeScan (s : State) : kept (postponeScan s) = kept s := (rfl)
@[simp] theorem kept_lfBoundary (s : State) : kept (lfBoundary s) = kept s := by unfold lfBoundary; simp
@[simp] theorem kept_burstDuty (b : Burst) (s : State) : kept (burstDuty b s) = kept s := by unfold burstDuty; simp
@[simp] theorem kept_finishBurst (uj : Nat) (s : State) : kept (finishBurst uj s) = kept s := by unfold finishBurst; split <;> simp
@[simp] theorem kept_cutBurst (s : State) : kept (cutBurst s) = kept s := by unfold cutBurst; split <;> simp
@[simp] theorem kept_degrade (c : Nat) (afterWindow : Bool) (s : State) : kept (degrade c afterWindow s) = kept s := (rfl)
@[simp] theorem kept_countImplausible (failed : Bool) (c : Nat) (s : State) : kept (countImplausible failed c s) = kept s := by unfold countImplausible; simp
@[simp] theorem kept_validateBurst (b : Burst) (recs : List WinRec) (s : State) : kept (validateBurst b recs s) = kept s := by unfold validateBurst; simp
@[simp] theorem kept_soundPart (bit : Nat) (failed : Bool) (s : State) : kept (soundPart bit failed s) = kept s := by unfold soundPart; split <;> simp
@[simp] theorem kept_beginSounding (mask : Nat) (ref : Option CmdRef) (s : State) : kept (beginSounding mask ref s) = kept s := (rfl)
@[simp] theorem kept_soundOver (status : Nat) (s : State) : kept (soundOver status s) = kept s := by
  unfold soundOver
  dsimp only
  (repeat' split) <;> simp
@[simp] theorem kept_soundDrove (c : Nat) (s : State) : kept (soundDrove c s) = kept s := (rfl)

/-! ### Synth -/

@[simp] theorem kept_cliffReads (temp : Int) (s : State) : kept (cliffReads temp s) = kept s := (rfl)

/-! ### RadOps -/

@[simp] theorem kept_calGone (n : Nat) (s : State) : kept (calGone n s) = kept s := by unfold calGone; simp
@[simp] theorem kept_invalidateAll (s : State) : kept (invalidateAll s) = kept s := by unfold invalidateAll; simp
@[simp] theorem kept_takeRadioRecords (s : State) : kept (takeRadioRecords s) = kept s := by
  unfold takeRadioRecords
  dsimp only
  (repeat' split) <;> simp
@[simp] theorem kept_addAir (us : Nat) (s : State) : kept (addAir us s) = kept s := (rfl)
@[simp] theorem kept_dutyEvent (s : State) : kept (dutyEvent s) = kept s := by unfold dutyEvent; simp
@[simp] theorem kept_radChecks (freq asked airUs prec : Nat) (s : State) : kept (radChecks freq asked airUs prec s).2 = kept s := by
  unfold radChecks
  (repeat' split) <;> simp
@[simp] theorem kept_strandReads (temp : Int) (s : State) : kept (strandReads temp s) = kept s := (rfl)
@[simp] theorem kept_storeCal (r : CalRun) (s : State) : kept (storeCal r s) = kept s := by unfold storeCal; simp
@[simp] theorem kept_invalidateCal (n : Nat) (s : State) : kept (invalidateCal n s) = kept s := by unfold invalidateCal; simp
@[simp] theorem kept_coexRaise (prec : Nat) (s : State) : kept (coexRaise prec s) = kept s := by unfold coexRaise; simp
@[simp] theorem kept_coexDrop (s : State) : kept (coexDrop s) = kept s := (rfl)
@[simp] theorem kept_coexLead (prec : Nat) (s : State) : kept (coexLead prec s) = kept s := by unfold coexLead; simp
@[simp] theorem kept_mandatoryCal (n : Nat) (s : State) : kept (mandatoryCal n s) = kept s := (rfl)
@[simp] theorem kept_hopTo (n : Nat) (s : State) : kept (hopTo n s) = kept s := (rfl)
@[simp] theorem kept_rxSync (s : State) : kept (rxSync s) = kept s := (rfl)
@[simp] theorem kept_radiate (s : State) : kept (radiate s) = kept s := by unfold radiate; split <;> simp
@[simp] theorem kept_packetBoundary (s : State) : kept (packetBoundary s) = kept s := by unfold packetBoundary; simp
@[simp] theorem kept_rxFrame (s : State) : kept (rxFrame s) = kept s := by unfold rxFrame; simp
@[simp] theorem kept_endTx (s : State) : kept (endTx s) = kept s := by unfold endTx; split <;> simp
@[simp] theorem kept_makeWay (prec n : Nat) (s : State) : kept (makeWay prec n s) = kept s := by
  unfold makeWay
  dsimp only
  (repeat' split) <;> simp
@[simp] theorem kept_txGo (s : State) : kept (txGo s) = kept s := by unfold txGo; split <;> simp
@[simp] theorem kept_txRequest (t : Tx) (s : State) : kept (txRequest t s).2 = kept s := by
  have hk := kept_radChecks t.freq t.asked t.airUs t.prec s
  unfold txRequest
  generalize radChecks t.freq t.asked t.airUs t.prec s = p at hk ⊢
  obtain ⟨_ | ⟨n, e⟩, u⟩ := p <;> replace hk : kept u = _ := hk <;> dsimp only <;> (repeat' split) <;> simp [hk]
@[simp] theorem kept_txAfterCal (s : State) : kept (txAfterCal s).2 = kept s := by
  unfold txAfterCal
  split
  · rfl
  · next t _ =>
    have hk := kept_radChecks t.freq t.asked t.airUs t.prec s
    generalize radChecks t.freq t.asked t.airUs t.prec s = p at hk ⊢
    obtain ⟨_ | ⟨n, e⟩, u⟩ := p <;> replace hk : kept u = _ := hk <;> simpa using hk
@[simp] theorem kept_rxOpen (freq prec : Nat) (s : State) : kept (rxOpen freq prec s).2 = kept s := by unfold rxOpen; split <;> simp
@[simp] theorem kept_rxClose (s : State) : kept (rxClose s) = kept s := by unfold rxClose; simp
@[simp] theorem kept_radioStop (s : State) : kept (radioStop s) = kept s := by unfold radioStop; simp
@[simp] theorem kept_onTuner (b : Nat) (f : Tuner → Tuner) (s : State) : kept (onTuner b f s) = kept s := (rfl)
@[simp] theorem kept_paMeasured (t : Tx) (fwd : Int) (s : State) : kept (paMeasured t fwd s) = kept s := by unfold paMeasured; simp
@[simp] theorem kept_drawCodes (s : State) : kept (drawCodes s).2 = kept s := (rfl)
@[simp] theorem kept_tunerPacket (band vswr : Nat) (s : State) : kept (tunerPacket band vswr s) = kept s := by unfold tunerPacket; simp

/-! ### UwbOps -/

@[simp] theorem kept_updateUwb (s : State) : kept (updateUwb s) = kept s := by unfold updateUwb; simp
@[simp] theorem kept_rangeEvent (r : RResult) (s : State) : kept (rangeEvent r s) = kept s := by unfold rangeEvent; simp
@[simp] theorem kept_crystalSample (token : Nat) (x : Int) (s : State) : kept (crystalSample token x s) = kept s := by unfold crystalSample; simp

/-! ### ZoneOps -/

@[simp] theorem kept_setMask (idx mask : Nat) (s : State) : kept (setMask idx mask s) = kept s := by unfold setMask; split <;> simp
@[simp] theorem kept_leaveLocated (idx : Nat) (s : State) : kept (leaveLocated idx s) = kept s := by unfold leaveLocated; split <;> simp
@[simp] theorem kept_joinLocated (idx trigger : Nat) (kS : Option Bytes) (report : Option (Nat × Nat × List Nat × Nat × List Window)) (s : State) : kept (joinLocated idx trigger kS report s) = kept s := by
  unfold joinLocated
  (repeat' split) <;> simp

/-! ### PathOps -/

@[simp] theorem kept_pushPath (r : PathReq) (s : State) : kept (pushPath r s).2 = kept s := by
  unfold pushPath
  dsimp only
  (repeat' split) <;> simp
@[simp] theorem kept_stopPathWork (s : State) : kept (stopPathWork s) = kept s := by
  unfold stopPathWork
  dsimp only
  (repeat' split) <;> simp
@[simp] theorem kept_closePath (outcome : Nat) (denied : Option Nat) (s : State) : kept (closePath outcome denied s) = kept s := by unfold closePath; simp
@[simp] theorem kept_denyPathBy (why : Nat × Nat) (reason : Nat) (s : State) : kept (denyPathBy why reason s) = kept s := by
  unfold denyPathBy
  (repeat' split) <;> simp
@[simp] theorem kept_denyPath (reason : Nat) (s : State) : kept (denyPath reason s) = kept s := by unfold denyPath; simp
@[simp] theorem kept_deadlinePath (s : State) : kept (deadlinePath s) = kept s := by unfold deadlinePath; split <;> simp
theorem kept_rngDenies (s t : State) : rngDenies s = some t → kept t = kept s := by
  unfold rngDenies
  split
  · intro h
    cases h
    simp
  · simp
theorem kept_rngDenies_getD (s d : State) (h : kept d = kept s) : kept ((rngDenies s).getD d) = kept s := by
  cases hr : rngDenies s with
  | none => exact h
  | some t => exact kept_rngDenies s t hr
@[simp] theorem kept_pathTx (frame : Bytes) (s : State) : kept (pathTx frame s).2 = kept s := by unfold pathTx; split <;> simp
@[simp] theorem kept_wakeSent (marks : List Window) (s : State) : kept (wakeSent marks s) = kept s := by unfold wakeSent; simp
@[simp] theorem kept_transmitChallenge (a : Ans) (cDev pDev : Bytes) (s : State) : kept (transmitChallenge a cDev pDev s) = kept s := by unfold transmitChallenge; simp
@[simp] theorem kept_sendChallenge (s : State) : kept (sendChallenge s) = kept s := by
  have hk := kept_draw .challenge 8 s
  unfold sendChallenge
  split
  · rfl
  · split
    · rfl
    · split
      · rfl
      · generalize draw .challenge 8 s = p at hk ⊢
        obtain ⟨_ | c, t⟩ := p <;> replace hk : kept t = _ := hk <;> simp [hk, kept_rngDenies_getD]
@[simp] theorem kept_afterAuths (missed : Bool) (s : State) : kept (afterAuths missed s) = kept s := by unfold afterAuths; split <;> simp
@[simp] theorem kept_nextAuthFrom (missed : Bool) (l : List Ans) (s : State) : kept (nextAuthFrom missed l s) = kept s := by
  induction l generalizing missed s with
  | nil => unfold nextAuthFrom; simp
  | cons a l ih =>
    unfold nextAuthFrom
    (repeat' split) <;> simp [ih]
@[simp] theorem kept_nextAuth (s : State) : kept (nextAuth s) = kept s := by unfold nextAuth; split <;> simp
@[simp] theorem kept_authGone (a : Ans) (s : State) : kept (authGone a s) = kept s := by unfold authGone; simp
@[simp] theorem kept_beginAuths (s : State) : kept (beginAuths s) = kept s := by unfold beginAuths; split <;> simp
@[simp] theorem kept_transmitRepoll (s : State) : kept (transmitRepoll s) = kept s := by unfold transmitRepoll; split <;> simp
@[simp] theorem kept_sendRepoll (s : State) : kept (sendRepoll s) = kept s := by
  have hk := kept_draw .challenge 4 s
  unfold sendRepoll
  generalize draw .challenge 4 s = p at hk ⊢
  obtain ⟨_ | c, t⟩ := p <;> replace hk : kept t = _ := hk <;> simp [hk, kept_rngDenies_getD]
@[simp] theorem kept_windowEnd (s : State) : kept (windowEnd s) = kept s := by unfold windowEnd; split <;> simp
@[simp] theorem kept_resendRepoll (s : State) : kept (resendRepoll s) = kept s := by unfold resendRepoll; split <;> simp
@[simp] theorem kept_resumePath (s : State) : kept (resumePath s) = kept s := by
  unfold resumePath
  (repeat' split) <;> simp
@[simp] theorem kept_raiseVersion (idx ver : Nat) (s : State) : kept (raiseVersion idx ver s) = kept s := by unfold raiseVersion; split <;> simp
@[simp] theorem kept_commitCounter (idx value authSeq : Nat) (far : Bool) (s : State) : kept (commitCounter idx value authSeq far s) = kept s := by unfold commitCounter; simp
@[simp] theorem kept_authenticated (a : Ans) (kS : Option Bytes) (proofNs : Int) (ver slotByte : Nat) (s : State) : kept (authenticated a kS proofNs ver slotByte s) = kept s := by
  unfold authenticated
  split
  · rfl
  · extract_lets u seq w v
    have hw : kept w = kept s := kept_emitX ..
    have hv : kept v = kept s := (kept_joinLocated ..).trans ((kept_raiseVersion ..).trans hw)
    split
    · exact (kept_deadlinePath ..).trans hv
    · split
      · exact (kept_commitCounter ..).trans ((kept_mirrorPath ..).trans hv)
      · exact (kept_onUwb ..).trans ((kept_commitCounter ..).trans ((kept_mirrorPath ..).trans hv))
@[simp] theorem kept_logOldCounter (idx got stored : Nat) (s : State) : kept (logOldCounter idx got stored s) = kept s := (rfl)
@[simp] theorem kept_askAttribution (p : Path) (s : State) : kept (askAttribution p s) = kept s := by unfold askAttribution; simp
@[simp] theorem kept_releasePath (session : Nat) (s : State) : kept (releasePath session s) = kept s := by unfold releasePath; simp
@[simp] theorem kept_decideAccess (p : Path) (fs : List Finding) (s : State) : kept (decideAccess p fs s) = kept s := by
  unfold decideAccess
  dsimp only
  split
  · simp
  · refine (kept_releasePath ..).trans ?_
    refine foldl_keeps (fun p : List Nat × State => kept p.2) (fun p c => ?_) _ _
    exact kept_grantAccess ..
@[simp] theorem kept_decideStart (p : Path) (fs : List Finding) (s : State) : kept (decideStart p fs s) = kept s := by unfold decideStart; simp
@[simp] theorem kept_decideAttribution (p : Path) (fs : List Finding) (s : State) : kept (decideAttribution p fs s) = kept s := by
  unfold decideAttribution
  dsimp only
  (repeat' split) <;> simp
@[simp] theorem kept_pathMasks (fs : List Finding) (s : State) : kept (pathMasks fs s) = kept s := by unfold pathMasks; simp
@[simp] theorem kept_decidePath (s : State) : kept (decidePath s) = kept s := by
  unfold decidePath
  dsimp only
  (repeat' split) <;> simp
@[simp] theorem kept_transponderGrant (s : State) : kept (transponderGrant s) = kept s := by unfold transponderGrant; split <;> simp
@[simp] theorem kept_counterDone (idx value : Nat) (ok both : Bool) (s : State) : kept (counterDone idx value ok both s) = kept s := by
  unfold counterDone
  extract_lets mine ref u seq far v w x y
  have hu : kept u = kept s := by unfold u; simp
  have hv : kept v = kept s := by unfold v; simp [hu]
  have hw : kept w = kept s := hv
  split
  · exact hw
  · split
    · exact hw
    · have hx : kept x = kept s := (kept_onPath ..).trans hw
      have hy : kept y = kept s := by
        unfold y
        split
        · exact (kept_mirrorPath ..).trans hx
        · exact hx
      split
      · split
        · exact (kept_transponderGrant ..).trans hy
        · exact (kept_denyPath ..).trans hy
      · exact hy
@[simp] theorem kept_transmitDone (buffer result : Nat) (s : State) : kept (transmitDone buffer result s) = kept s := by unfold transmitDone; split <;> simp
@[simp] theorem kept_txEnded (t : Tx) (status : Nat) (s : State) : kept (txEnded t status s) = kept s := by
  unfold txEnded
  extract_lets u v
  have hk : kept v = kept s := by
    simp only [v, u]
    split <;> simp
  clear_value v
  rw [← hk]
  split
  · rfl
  · split
    · simp
    · split
      · split
        · rfl
        · split
          · split
            · have hr := kept_rxOpen (Path.freq ‹_›) 1 v
              generalize rxOpen _ _ _ = p at hr ⊢
              obtain ⟨_ | _, w⟩ := p <;> replace hr : kept w = _ := hr <;> simp [hr]
            · simp
          · split <;> simp
      · rfl
@[simp] theorem kept_serveTx (s : State) : kept (serveTx s) = kept s := by
  refine kept_foldl (fun s x => ?_) _ _
  split
  · rfl
  · next t _ =>
    split
    · rfl
    · have hk := kept_txRequest t (s.onRad (fun r => { r with waits := r.waits.erase t }))
      generalize txRequest _ _ = p at hk ⊢
      obtain ⟨st, v⟩ := p
      replace hk : kept v = kept s := hk.trans (kept_onRad ..)
      dsimp only
      split <;> simp [hk]
@[simp] theorem kept_txResume (s : State) : kept (txResume s) = kept s := by unfold txResume; split <;> simp
@[simp] theorem kept_txRecheck (s : State) : kept (txRecheck s) = kept s := by unfold txRecheck; split <;> simp
@[simp] theorem kept_txAgain (s : State) : kept (txAgain s) = kept s := by unfold txAgain; split <;> simp

/-! ### SlotOps -/

@[simp] theorem kept_stepFails (s : State) : kept (stepFails s) = kept s := by
  unfold stepFails
  dsimp only
  (repeat' split) <;> simp
@[simp] theorem kept_trouble (i : Nat) (overrun : Bool) (s : State) : kept (trouble i overrun s) = kept s := by unfold trouble; simp
@[simp] theorem kept_unloadSlot (i : Nat) (s : State) : kept (unloadSlot i s) = kept s := by unfold unloadSlot; simp

/-! ### Timers -/

@[simp] theorem kept_onTimer (n : Nat) (f : Timer → Timer) (s : State) : kept (onTimer n f s) = kept s := (rfl)
@[simp] theorem kept_applyLink (n : Nat) (s : State) : kept (applyLink n s) = kept s := by
  unfold applyLink
  dsimp only
  (repeat' split) <;> simp
@[simp] theorem kept_captureMatch (n : Nat) (s : State) : kept (captureMatch n s) = kept s := (rfl)
@[simp] theorem kept_compensateTimers (edges baseAdvance : Nat) (s : State) : kept (compensateTimers edges baseAdvance s) = kept s := by unfold compensateTimers; simp

/-! ### Operands -/

@[simp] theorem kept_fxWrite (id : Word) (s : State) : kept (fxWrite id s) = kept s := (rfl)
@[simp] theorem kept_aesStart (op dkey : Nat) (s : State) : kept (aesStart op dkey s) = kept s := by
  unfold aesStart
  dsimp only
  (repeat' split) <;> simp
@[simp] theorem kept_writeReg (r : RegAddr) (v : Word) (s : State) : kept (writeReg r v s) = kept s := by unfold writeReg; split <;> simp

/-! ### PowerOps -/

@[simp] theorem kept_endWrite (a : After) (status : Nat) (s : State) : kept (endWrite a status s) = kept s := by unfold endWrite; split <;> simp
@[simp] theorem kept_dropPaths (why : Nat × Nat) (s : State) : kept (dropPaths why s) = kept s := by unfold dropPaths; simp
@[simp] theorem kept_lfHalts (s : State) : kept (lfHalts s) = kept s := by
  unfold lfHalts
  dsimp only
  (repeat' split) <;> simp
@[simp] theorem kept_safeOutputs (s : State) : kept (safeOutputs s) = kept s := by unfold safeOutputs; simp
@[simp] theorem kept_stopAll (s : State) : kept (stopAll s) = kept s := (kept_closeAll ..).trans (kept_safeOutputs ..)
@[simp] theorem kept_persistStranded (s : State) : kept (persistStranded s) = kept s := by unfold persistStranded; simp
@[simp] theorem kept_endService (s : State) : kept (endService s) = kept s := by unfold endService; simp
@[simp] theorem kept_countDriven (s : State) : kept (countDriven s) = kept s := by
  unfold countDriven
  dsimp only
  (repeat' split) <;> simp
@[simp] theorem kept_wipeTokens (s : State) : kept (wipeTokens s) = kept s := by unfold wipeTokens; simp

/-! ### Power -/

@[simp] theorem kept_dropBurst (status reason : Nat) (s : State) : kept (dropBurst status reason s) = kept s := by unfold dropBurst; split <;> simp
@[simp] theorem kept_soundLoses (lost : Nat → Bool) (s : State) : kept (soundLoses lost s) = kept s := by
  unfold soundLoses
  dsimp only
  (repeat' split) <;> simp
@[simp] theorem kept_bridgesOff (s : State) : kept (bridgesOff s) = kept s := by unfold bridgesOff; simp
@[simp] theorem kept_suspendBurst (s : State) : kept (suspendBurst s) = kept s := by
  unfold suspendBurst
  dsimp only
  (repeat' split) <;> simp
@[simp] theorem kept_suspendTx (s : State) : kept (suspendTx s) = kept s := by unfold suspendTx; split <;> simp
@[simp] theorem kept_reportLow (c : Bool) (code cls num mv : Nat) (s : State) : kept (reportLow c code cls num mv s) = kept s := by unfold reportLow; simp
@[simp] theorem kept_readMonitors (s : State) : kept (readMonitors s) = kept s := by unfold readMonitors; simp
@[simp] theorem kept_crossing (code cls num mv : Nat) (bad : Bool) (s : State) : kept (crossing code cls num mv bad s) = kept s := by unfold crossing; simp
@[simp] theorem kept_groupLost (g : Nat) (s : State) : kept (groupLost g s) = kept s := by unfold groupLost; simp
@[simp] theorem kept_cliffAct (s : State) : kept (cliffAct s) = kept s := by unfold cliffAct; simp

/-! ### SysCmds -/

@[simp] theorem kept_applyParams (entries : List (Nat × Nat)) (s : State) : kept (applyParams entries s) = kept s := by unfold applyParams; simp

/-! ### Lf -/

@[simp] theorem kept_burstSent (b : Burst) (measured : Bool) (recs : List WinRec) (s : State) : kept (burstSent b measured recs s) = kept s := by unfold burstSent; split <;> simp

/-! ### Paths -/

@[simp] theorem kept_pathDone (p : Path) (s : State) : kept (pathDone p s) = kept s := by
  refine kept_foldl (fun s r => ?_) _ _
  split <;> exact kept_cmdDone ..
@[simp] theorem kept_openPollWindow (q : LocPoll) (s : State) : kept (openPollWindow q s) = kept s := by
  unfold openPollWindow
  dsimp only
  have hk := kept_rxOpen (freqOf (advanceTo (q.at_ + 500) (coexLead 2 (advanceTo (q.at_ + 460) s))) q.nDev) 2
    (advanceTo (q.at_ + 500) (coexLead 2 (advanceTo (q.at_ + 460) s)))
  simp only [kept_advanceTo, kept_coexLead] at hk
  generalize rxOpen _ _ _ = p at hk ⊢
  obtain ⟨_ | _, t⟩ := p <;> replace hk : kept t = _ := hk <;> simp [hk]
@[simp] theorem kept_pollSlotEnd (q : LocPoll) (s : State) : kept (pollSlotEnd q s) = kept s := by
  unfold pollSlotEnd
  dsimp only
  split <;> simp
@[simp] theorem kept_foreignAnswer (id slot : Nat) (s : State) : kept (foreignAnswer id slot s) = kept s := by unfold foreignAnswer; simp
@[simp] theorem kept_tpFail (s : State) : kept (tpFail s) = kept s := by unfold tpFail; simp
@[simp] theorem kept_tpChallenge (s : State) : kept (tpChallenge s) = kept s := by
  have hk := kept_draw .challenge 16 s
  unfold tpChallenge
  generalize draw .challenge 16 s = p at hk ⊢
  obtain ⟨_ | c, t⟩ := p <;> replace hk : kept t = _ := hk <;> split <;> simp [hk, kept_rngDenies_getD]
@[simp] theorem kept_resumeTp (s : State) : kept (resumeTp s) = kept s := by unfold resumeTp; split <;> simp

/-! ### Ranging -/

@[simp] theorem kept_markRanged (token : Nat) (s : State) : kept (markRanged token s) = kept s := (rfl)
@[simp] theorem kept_onSess (num : Nat) (f : RSess → RSess) (s : State) : kept (onSess num f s) = kept s := (rfl)
@[simp] theorem kept_endRanging (x : RSess) (s : State) : kept (endRanging x s) = kept s := by unfold endRanging; simp
@[simp] theorem kept_onRound (token : Nat) (f : RSess → Round → Round) (s : State) : kept (onRound token f s) = kept s := by unfold onRound; split <;> simp

/-! ### Radio -/

@[simp] theorem kept_mandatoryDone (chan : Nat) (s : State) : kept (mandatoryDone chan s) = kept s := by unfold mandatoryDone; split <;> simp
@[simp] theorem kept_coexEarly (r : CalRun) (from_ : Nat) (s : State) : kept (coexEarly r from_ s) = kept s := by unfold coexEarly; split <;> simp
@[simp] theorem kept_acquired (band vswr : Nat) (s : State) : kept (acquired band vswr s) = kept s := (rfl)

/-! ### Sense -/

@[simp] theorem kept_onCap (c : Nat) (f : CapChan → CapChan) (s : State) : kept (onCap c f s) = kept s := (rfl)
@[simp] theorem kept_onContact (n : Nat) (f : Contact → Contact) (s : State) : kept (onContact n f s) = kept s := (rfl)
@[simp] theorem kept_rebaseline (c : Nat) (s : State) : kept (rebaseline c s) = kept s := (rfl)
@[simp] theorem kept_setCapDiag (c code : Nat) (s : State) : kept (setCapDiag c code s) = kept s := by unfold setCapDiag; simp
@[simp] theorem kept_clrCapDiag (c : Nat) (s : State) : kept (clrCapDiag c s) = kept s := by unfold clrCapDiag; simp
@[simp] theorem kept_guardTest (g : Nat) (ok : Bool) (s : State) : kept (guardTest g ok s) = kept s := by unfold guardTest; split <;> simp
@[simp] theorem kept_scanConv (few : Bool) (s : State) (k : Conv) : kept (scanConv few s k) = kept s := by
  unfold scanConv
  dsimp only
  (repeat' split) <;> simp
@[simp] theorem kept_capLeaves (s : State) (c : Nat) : kept (capLeaves s c) = kept s := by unfold capLeaves; simp
@[simp] theorem kept_eolLeaves (s : State) (n : Nat) : kept (eolLeaves s n) = kept s := by unfold eolLeaves; simp
@[simp] theorem kept_scanEnd (s : State) : kept (scanEnd s) = kept s := by unfold scanEnd; simp
@[simp] theorem kept_scanBegins (s : State) : kept (scanBegins s) = kept s := by unfold scanBegins; simp
@[simp] theorem kept_scanOrder (convs : List Conv) (s : State) : kept (scanOrder convs s).2 = kept s := by
  unfold scanOrder
  refine foldl_keeps (fun p : List Conv × State => kept p.2) (fun p c => ?_) _ _
  dsimp only
  split <;> simp
@[simp] theorem kept_eolOrder (eol : List EolSample) (s : State) : kept (eolOrder eol s).2 = kept s := by
  unfold eolOrder
  refine foldl_keeps (fun p : List EolSample × State => kept p.2) (fun p c => ?_) _ _
  dsimp only
  split <;> simp

/-! ### Security -/

@[simp] theorem kept_setStage (area : Nat) (b : Bytes) (s : State) : kept (setStage area b s) = kept s := by
  unfold setStage
  (repeat' split) <;> simp
@[simp] theorem kept_queueGrant (items : List Item) (after : After) (seq : Nat) (s : State) : kept (queueGrant items after seq s) = kept s := (rfl)
@[simp] theorem kept_grantEnds (ref : CmdRef) (status : Nat) (s : State) : kept (grantEnds ref status s) = kept s := by unfold grantEnds; simp
theorem kept_lifecycleGrant (ref : CmdRef) (e : Bytes) (s t : State) : lifecycleGrant ref e s = some t → kept t = kept s := by
  unfold lifecycleGrant
  dsimp only
  have hk := kept_draw .vault 32
  intro h
  split at h
  · cases h; simp
  · split at h
    · split at h
      · cases h; simp
      · split at h
        · cases h; simp
        · split at h
          · cases h
          · next b v hb =>
            cases h
            have hv := (kept_snd hb).trans (hk _)
            simp only [kept_queueGrant, hv]
            split <;> simp
    · split at h
      · cases h; simp
      · split at h <;> · cases h; simp
    · split at h
      · cases h; simp
      · split at h <;> · cases h; simp
    · cases h; simp
@[simp] theorem kept_serviceGrant (ref : CmdRef) (e : Bytes) (s : State) : kept (serviceGrant ref e s) = kept s := by unfold serviceGrant; simp
theorem kept_reprovisionGrant (ref : CmdRef) (e : Bytes) (s t : State) : reprovisionGrant ref e s = some t → kept t = kept s := by
  unfold reprovisionGrant
  dsimp only
  intro h
  split at h
  · cases h; simp
  · split at h
    · cases h; simp
    · split at h
      · cases h
      · next b v hb =>
        cases h
        simp [(kept_snd hb).trans (kept_drawKey 32 s)]
@[simp] theorem kept_keyGrant (ref : CmdRef) (e : Bytes) (s : State) : kept (keyGrant ref e s) = kept s := by
  unfold keyGrant
  dsimp only
  (repeat' split) <;> simp
@[simp] theorem kept_firmwareVerified (ref : CmdRef) (fail : Option (Nat × Nat)) (e : Bytes) (s : State) : kept (firmwareVerified ref fail e s) = kept s := by unfold firmwareVerified; split <;> simp
@[simp] theorem kept_failGrant (s : State) : kept (failGrant s) = kept s := by unfold failGrant; split <;> simp
@[simp] theorem kept_transitionDone (ref : CmdRef) (from_ to_ : Nat) (s : State) : kept (transitionDone ref from_ to_ s) = kept s := by unfold transitionDone; simp
@[simp] theorem kept_lifecycleCommit (ref : CmdRef) (from_ to_ : Nat) (service : Option (Nat × Nat)) (tkek cert : Option Bytes) (s : State) : kept (lifecycleCommit ref from_ to_ service tkek cert s) = kept s := by unfold lifecycleCommit; simp
@[simp] theorem kept_keysCommit (ref : CmdRef) (entries : List (Nat × Nat × Bytes)) (root : Option Bytes) (s : State) : kept (keysCommit ref entries root s) = kept s := by unfold keysCommit; simp
@[simp] theorem kept_sendReport (env : Bytes) (s : State) : kept (sendReport env s) = kept s := by unfold sendReport; simp
@[simp] theorem kept_startReport (s : State) : kept (startReport s) = kept s := by unfold startReport; split <;> simp

/-! ### Pair -/

@[simp] theorem kept_drawLinkNonce (s : State) : kept (drawLinkNonce s) = kept s := by
  have hk := kept_draw .nonce 16 s
  unfold drawLinkNonce
  generalize draw .nonce 16 s = p at hk ⊢
  obtain ⟨_ | n, t⟩ := p <;> replace hk : kept t = _ := hk <;> simp [hk]
@[simp] theorem kept_commitFailed (id value : Nat) (s : State) : kept (commitFailed id value s) = kept s := by unfold commitFailed; simp
@[simp] theorem kept_sendAdmit (s : State) : kept (sendAdmit s) = kept s := by
  have hk := kept_draw .nonce 32 s
  unfold sendAdmit
  split
  · generalize draw .nonce 32 s = p at hk ⊢
    obtain ⟨_ | n, t⟩ := p <;> replace hk : kept t = _ := hk <;> simp [hk]
  · rfl
@[simp] theorem kept_resumeLink (s : State) : kept (resumeLink s) = kept s := by unfold resumeLink; simp

/-! ### RngRows -/

@[simp] theorem kept_onNoise (n : Nat) (f : Noise → Noise) (s : State) : kept (onNoise n f s) = kept s := (rfl)
@[simp] theorem kept_rngFatal (reason : Nat) (s : State) : kept (rngFatal reason s) = kept s := by
  unfold rngFatal
  dsimp only
  split
  · rfl
  · simp only [kept_updateUwb, kept_onRng, kept_failGrant]
    refine (kept_foldl (fun u m => ?_) _ _).trans ?_
    · split <;> simp
    · split
      · simp [kept_rngDenies_getD]
      · simp

/-! ### StoreRows -/

@[simp] theorem kept_deferWrite (j : Job) (rest : List Job) (s : State) : kept (deferWrite j rest s) = kept s := by
  unfold deferWrite
  dsimp only
  (repeat' split) <;> simp
@[simp] theorem kept_radioCommitted (j : Job) (s : State) : kept (radioCommitted j s) = kept s := by unfold radioCommitted; simp
@[simp] theorem kept_revokeCommit (ref : CmdRef) (idx id : Nat) (s : State) : kept (revokeCommit ref idx id s) = kept s := by
  unfold revokeCommit
  dsimp only
  (repeat' split) <;> simp
@[simp] theorem kept_pathCounterCommit (idx v : Nat) (s : State) : kept (pathCounterCommit idx v s) = kept s := by unfold pathCounterCommit; split <;> simp
@[simp] theorem kept_freshnessCommit (n : Nat) (s : State) : kept (freshnessCommit n s) = kept s := by unfold freshnessCommit; simp

/-! ### BusRows -/

@[simp] theorem kept_pollOver (s : State) : kept (pollOver s) = kept s := by unfold pollOver; simp

/-! ### Extension -/

@[simp] theorem kept_takeRequest (req : Bytes) (s : State) : kept (takeRequest req s).2 = kept s := by
  unfold takeRequest
  (repeat' split) <;> simp
@[simp] theorem kept_refuseTx (slot buffer result : Nat) (s : State) : kept (refuseTx slot buffer result s) = kept s := by unfold refuseTx; simp
@[simp] theorem kept_applyVerdict (slot : Nat) (b : Bytes) (a : Ans) (s : State) : kept (applyVerdict slot b a s) = kept s := by
  unfold applyVerdict
  (repeat' split) <;> simp

/-! ### Faults -/

theorem kept_takeRecord (src : Nat) (s : State) (t : EvRec × State) : takeRecord src s = some t → kept t.2 = kept s := by
  unfold takeRecord
  dsimp only
  intro h
  split at h
  · cases h
  · cases h; rfl
  · split at h
    · cases h; rfl
    · cases h; rfl

end Sys2Proof.Machine
end

section
/-! Core instructions and the form of the memories (O4, O13). -/

namespace Sys2Proof.Machine
open Sys2Proof

/-! ### What core instructions keep -/

/-- The queue stays, and what is canonical or word aligned stays so. -/
structure KeepsForm (s t : State) : Prop where
  queue : t.pending = s.pending
  cc : Memory.wf s.cc.mem = true → Memory.wf t.cc.mem = true
  xc : Memory.wf s.xc.mem = true → Memory.wf t.xc.mem = true
  pc : s.xc.pc.toNat % 4 = 0 → t.xc.pc.toNat % 4 = 0

theorem KeepsForm.refl (s : State) : KeepsForm s s := ⟨rfl, id, id, id⟩
theorem KeepsForm.trans {s t u : State} (h : KeepsForm s t) (k : KeepsForm t u) : KeepsForm s u :=
  ⟨k.queue.trans h.queue, k.cc ∘ h.cc, k.xc ∘ h.xc, k.pc ∘ h.pc⟩
theorem keepsForm_of_cores {s t : State} (hq : t.pending = s.pending) (hc : (kept t).cores = (kept s).cores) : KeepsForm s t := by
  simp only [kept, Prod.mk.injEq] at hc
  obtain ⟨hcc, hxc, hpc⟩ := hc
  exact ⟨hq, fun h => by rwa [hcc], fun h => by rwa [hxc], fun h => by rwa [hpc]⟩
theorem keepsForm_of_kept {s t : State} (h : kept t = kept s) : KeepsForm s t :=
  keepsForm_of_cores (congrArg (·.off.1) h) (congrArg Kept.cores h)
theorem keepsForm_foldl {α : Type} {f : State → α → State} (h : ∀ s x, KeepsForm s (f s x)) (l : List α) (s : State) : KeepsForm s (l.foldl f s) := by
  induction l generalizing s with
  | nil => exact .refl s
  | cons x l ih => exact (h s x).trans (ih _)

/-! ### The extension core's memory -/

theorem keepsForm_onExtMem {f : List Host.Cell → List Host.Cell} (hf : ∀ m, Memory.wf m = true → Memory.wf (f m) = true) (s : State) : KeepsForm s (onExtMem f s) :=
  ⟨rfl, id, hf _, id⟩
theorem keepsForm_relayout (new : Nat) (s : State) : KeepsForm s (relayout new s) := by
  unfold relayout
  refine (keepsForm_of_kept (kept_onExt ..)).trans (keepsForm_onExtMem (fun m hm => ?_) _)
  have put : ∀ (l : List (Slot × Nat)) (f : List Host.Cell → Slot × Nat → List Host.Cell), (∀ m x, Memory.wf m = true → Memory.wf (f m x) = true) →
      ∀ m, Memory.wf m = true → Memory.wf (l.foldl f m) = true := by
    intro l f hf
    induction l with
    | nil => exact fun _ h => h
    | cons x l ih => exact fun m h => ih _ (hf m x h)
  refine put _ _ (fun m x h => ?_) _ (wf_memClear hm _ _)
  split
  · exact h
  · exact wf_memPut (wf_memPut h _ _) _ _
theorem keepsForm_applySlot (i : Nat) (x : Slot) (ref : Option CmdRef) (s : State) : KeepsForm s (applySlot i x ref s) := by
  unfold applySlot
  dsimp only
  split
  · exact (keepsForm_of_kept (kept_unloadSlot i s)).trans ((keepsForm_relayout 4 _).trans (keepsForm_of_kept (by simp)))
  · refine (keepsForm_of_kept ((kept_onSlot i (fun _ => x) _).trans (kept_unloadSlot i s))).trans ((keepsForm_relayout i _).trans (keepsForm_of_kept ?_))
    simp
theorem keepsForm_applyPending (s : State) : KeepsForm s (applyPending s) :=
  (keepsForm_of_kept (kept_onExt ..)).trans (keepsForm_foldl (fun _ _ => keepsForm_applySlot ..) _ _)
theorem keepsForm_stopExtCore (s : State) : KeepsForm s (stopExtCore s) := by
  unfold stopExtCore
  refine KeepsForm.trans ?_ (keepsForm_applyPending _)
  refine KeepsForm.trans (t := { s with xc := { s.xc with stopped := true, idle := false } }) ⟨rfl, id, id, id⟩ (keepsForm_of_kept ?_)
  simp
theorem keepsForm_aesDone (s : State) : KeepsForm s (aesDone s) := by
  unfold aesDone
  split
  · exact keepsForm_of_kept (by simp)
  · exact keepsForm_of_kept (by simp)
  · exact (keepsForm_of_kept (kept_onExt ..)).trans (keepsForm_onExtMem (fun m h => wf_memPut h _ _) _)

/-! ### Stranded -/

theorem keepsForm_abortWork (why : Nat × Nat) (breach : Bool) (refs : List CmdRef) (s : State) : KeepsForm s (abortWork why breach refs s) := by
  unfold abortWork
  refine KeepsForm.trans (keepsForm_of_kept ?_) (keepsForm_stopExtCore _)
  simp
theorem keepsForm_haltWork (why : Nat × Nat) (s : State) : KeepsForm s (haltWork why s) :=
  (keepsForm_of_kept (kept_stopAll s)).trans (keepsForm_abortWork ..)
theorem keepsForm_onPwr (f : Pwr → Pwr) (s : State) : KeepsForm s (s.onPwr f) := ⟨rfl, id, id, id⟩
theorem keepsForm_onPair (f : Pair → Pair) (s : State) : KeepsForm s (s.onPair f) := ⟨rfl, id, id, id⟩
theorem keepsForm_setPower (o : EvOpt) (p : Power) (s : State) : KeepsForm s (setPower o p s) :=
  (keepsForm_onPwr ..).trans (keepsForm_of_kept ((kept_mirror ..).trans ((kept_wires _).trans (kept_emitX ..))))
theorem keepsForm_takeRole (r : Role) (s : State) : KeepsForm s (takeRole r s) :=
  (keepsForm_onPair ..).trans (keepsForm_of_kept (kept_emitT ..))
theorem keepsForm_enterStrandedBy (ref : Nat × Nat) (f3 : Bool) (sensors : Nat) (tell : Bool) (s : State) : KeepsForm s (enterStrandedBy ref f3 sensors tell s) := by
  unfold enterStrandedBy
  extract_lets u p v w yields x y
  have hv : kept v = kept s := by
    simp only [v, p, u]
    (repeat' split) <;> simp
  have hx : kept x = kept s := by
    simp only [x, w]
    (repeat' split) <;> simp [hv]
  have hy : KeepsForm s y := by
    simp only [y]
    split
    · exact (keepsForm_of_kept hx).trans ((keepsForm_haltWork ..).trans ((keepsForm_onPwr ..).trans (keepsForm_setPower ..)))
    · exact keepsForm_of_kept hx
  split
  · exact hy.trans (keepsForm_takeRole ..)
  · exact hy.trans (keepsForm_of_kept (kept_wires _))
theorem keepsForm_f3Fault (code : Nat) (params : Bytes) (s : State) : KeepsForm s (f3Fault code params s) :=
  (keepsForm_of_kept (kept_emit ..)).trans (keepsForm_enterStrandedBy ..)
theorem keepsForm_lockstep (c : CoreId) (kind : Option Nat) (s : State) : KeepsForm s (lockstep c kind s) := by
  unfold lockstep
  split
  · exact keepsForm_f3Fault ..
  · exact .refl s

/-! ### Instructions of the cores -/

theorem mod4_next {p : Word} (h : p.toNat % 4 = 0) : (p + 4).toNat % 4 = 0 := by
  bv_omega
theorem mod4_wordOff {n : Nat} {p : Word} (i : BitVec n) (h : p.toNat % 4 = 0) : (p + wordOff i).toNat % 4 = 0 := by
  unfold wordOff
  generalize sx i = w
  bv_omega

theorem keepsForm_onCore {f : Core → Core} (hm : ∀ k, (f k).mem = k.mem) (hp : ∀ k, (f k).pc = k.pc) (c : CoreId) (s : State) : KeepsForm s (onCore c f s) := by
  cases c with
  | cc => exact ⟨rfl, fun h => (congrArg Memory.wf (hm _)).trans h, id, id⟩
  | ext => exact ⟨rfl, id, fun h => (congrArg Memory.wf (hm _)).trans h, fun h => (congrArg (·.toNat % 4) (hp _)).trans h⟩
/-- On the control complex the pc is free. -/
theorem keepsForm_onCore_cc {f : Core → Core} (hm : ∀ k, (f k).mem = k.mem) (s : State) : KeepsForm s (onCore .cc f s) :=
  ⟨rfl, fun h => (congrArg Memory.wf (hm _)).trans h, id, id⟩
theorem keepsForm_spend (c : CoreId) (n : Nat) (s : State) : KeepsForm s (spend c n s) := by
  have h : KeepsForm s (onCore c (fun k => { k with cycle := k.cycle + BitVec.ofNat 64 n }) s) := by
    refine keepsForm_onCore ?_ ?_ c s <;> exact fun _ => rfl
  cases c with
  | cc => exact h
  | ext => exact h.trans (keepsForm_of_kept (kept_onExt ..))
theorem keepsForm_finish {c : CoreId} {s t : State} (n : Nat) {pc : Word} (h : KeepsForm s t) (hp : c = .ext → s.xc.pc.toNat % 4 = 0 → pc.toNat % 4 = 0) :
    KeepsForm s (finish c n pc t) := by
  have hs := h.trans (keepsForm_spend c n t)
  unfold finish
  cases c with
  | cc => exact ⟨hs.queue, hs.cc, hs.xc, hs.pc⟩
  | ext => exact ⟨hs.queue, hs.cc, hs.xc, hp rfl⟩
/-- A core goes on at the next word. -/
theorem keepsForm_finish_next {c : CoreId} {s t : State} (n : Nat) (h : KeepsForm s t) : KeepsForm s (finish c n ((coreOf s c).pc + 4) t) := by
  refine keepsForm_finish n h fun hc hs => ?_
  subst hc
  exact mod4_next hs

@[simp] theorem Core.put_mem (k : Core) (r : Reg) (v : Word) : (k.put r v).mem = k.mem := by unfold Core.put; split <;> rfl
@[simp] theorem Core.put_pc (k : Core) (r : Reg) (v : Word) : (k.put r v).pc = k.pc := by unfold Core.put; split <;> rfl

theorem keepsForm_ccEntry (cause tval tpc : Word) (s : State) : KeepsForm s (ccEntry cause tval tpc s) := by
  refine KeepsForm.trans (keepsForm_onCore_cc ?_ s) (keepsForm_spend ..)
  exact fun _ => rfl
theorem keepsForm_ccTrap (cause tval tpc : Word) (s : State) : KeepsForm s (ccTrap cause tval tpc s) := by
  unfold ccTrap
  split
  · refine keepsForm_onCore_cc ?_ s
    exact fun _ => rfl
  · exact keepsForm_ccEntry ..
theorem keepsForm_endInvocation (s : State) : KeepsForm s (endInvocation s) := by
  unfold endInvocation
  split
  · exact .refl s
  · exact (keepsForm_of_kept (kept_onExt ..)).trans (keepsForm_applyPending _)
theorem keepsForm_extTrap (code kind : Nat) (tval tpc : Word) (s : State) : KeepsForm s (extTrap code kind tval tpc s) := by
  unfold extTrap
  extract_lets u
  have hu : KeepsForm s u := by
    refine KeepsForm.trans (keepsForm_onCore ?_ ?_ .ext s) (keepsForm_spend ..) <;> exact fun _ => rfl
  clear_value u
  split
  · exact hu
  · split
    · exact hu.trans ((keepsForm_of_kept (kept_onExt ..)).trans (keepsForm_endInvocation _))
    · refine hu.trans (KeepsForm.trans (keepsForm_of_kept ?_) (keepsForm_endInvocation _))
      simp
theorem keepsForm_trapAt (c : CoreId) (code kind : Nat) (tval tpc : Word) (s : State) : KeepsForm s (trapAt c code kind tval tpc s) := by
  cases c with
  | cc => exact keepsForm_ccTrap ..
  | ext => exact keepsForm_extTrap ..
theorem keepsForm_takeIrq (s : State) : KeepsForm s (takeIrq s) := by
  unfold takeIrq
  split
  · exact .refl s
  · refine KeepsForm.trans (keepsForm_onCore_cc ?_ s) (keepsForm_ccEntry ..)
    exact fun _ => rfl
theorem keepsForm_aluStep (c : CoreId) (n : Nat) (gd : Reg) (f : Core → Word × Sticky) (s : State) : KeepsForm s (aluStep c n gd f s) := by
  refine keepsForm_finish_next n (keepsForm_onCore (fun k => ?_) (fun k => ?_) c s)
  · exact Core.put_mem ..
  · exact Core.put_pc ..

/-- Only a read of the AES status writes memory: it ends an operation that is over. -/
theorem keepsForm_readReg (r : RegAddr) (s : State) : KeepsForm s (readReg r s).2 := by
  unfold readReg
  split
  case h_1 =>
    dsimp only
    split
    · exact keepsForm_of_kept (kept_onTimer ..)
    · exact .refl s
  case h_2 => exact keepsForm_of_kept (kept_readRngReg ..)
  case h_10 =>
    dsimp only
    split
    · exact keepsForm_aesDone s
    · exact .refl s
  all_goals exact .refl s
theorem keepsForm_load (c : CoreId) (a n : Nat) (s : State) : KeepsForm s (load c a n s).2 := by
  unfold load
  split
  · split
    · exact keepsForm_of_kept (kept_drawFree s)
    · exact .refl s
  · split
    · exact .refl s
    · split
      · exact keepsForm_readReg ..
      · exact .refl s
theorem keepsForm_store (c : CoreId) (a n : Nat) (v : Word) (s : State) : KeepsForm s (store c a n v s) := by
  unfold store
  dsimp only
  split
  · split
    · exact .refl s
    · exact ⟨rfl, fun h => wf_memPut h _ _, id, id⟩
  · split
    · exact ⟨rfl, id, fun h => wf_memPut h _ _, id⟩
    · split
      · exact keepsForm_of_kept (kept_writeReg ..)
      · exact .refl s
theorem keepsForm_loadStep (c : CoreId) (gd ga : Reg) (imm : BitVec 16) (n : Nat) (ext : Word → Word) (s : State) : KeepsForm s (loadStep c gd ga imm n ext s) := by
  unfold loadStep
  dsimp only
  split
  · exact keepsForm_trapAt ..
  · refine keepsForm_finish_next 2 ((keepsForm_load ..).trans (keepsForm_onCore (fun k => ?_) (fun k => ?_) c _))
    · exact Core.put_mem ..
    · exact Core.put_pc ..
theorem keepsForm_storeStep (c : CoreId) (data base : Reg) (imm : BitVec 16) (n : Nat) (s : State) : KeepsForm s (storeStep c data base imm n s) := by
  unfold storeStep
  dsimp only
  split
  · exact keepsForm_trapAt ..
  · exact keepsForm_finish_next 1 (keepsForm_store ..)

/-- What an instruction does at a boundary, it may also be kept from doing: by its budget, an interrupt or a forbidden fetch. -/
theorem keepsForm_instr {c : CoreId} {k : State → State} {s t : State} (hk : KeepsForm s (k s)) (h : instr c k s = .next t) : KeepsForm s t := by
  unfold instr at h
  dsimp only at h
  split at h
  · cases h; exact .refl s
  · split at h
    · cases h; exact keepsForm_extTrap ..
    · split at h
      · cases h; exact keepsForm_takeIrq s
      · split at h
        · cases h; exact keepsForm_trapAt ..
        · cases h; exact hk
theorem keepsForm_compute {c : CoreId} {n : Nat} {gd : Reg} {f : Core → Word × Sticky} {s t : State} (h : compute c n gd f s = .next t) : KeepsForm s t :=
  keepsForm_instr (keepsForm_aluStep ..) h
theorem keepsForm_branch {c : CoreId} {ga gb : Reg} {o : BitVec 16} {taken : Word → Word → Bool} {s t : State} (h : branch c ga gb o taken s = .next t) : KeepsForm s t := by
  refine keepsForm_instr ?_ h
  dsimp only
  split
  · refine keepsForm_finish 2 (.refl s) fun hc hs => ?_
    subst hc
    exact mod4_wordOff _ hs
  · exact keepsForm_finish_next 1 (.refl s)
theorem keepsForm_ccOnly {c : CoreId} {w : Word} {k : State → State} {s t : State} (hk : KeepsForm s (k s)) (h : ccOnly c w k s = .next t) : KeepsForm s t := by
  refine keepsForm_instr ?_ h
  cases c with
  | cc => exact hk
  | ext => exact keepsForm_trapAt ..
theorem keepsForm_cc_next {f : Core → Core} {s t : State} {w : Word} (c : CoreId) (hm : ∀ k, (f k).mem = k.mem)
    (h : ccOnly c w (fun s => finish .cc 1 (s.cc.pc + 4) (onCore .cc f s)) s = .next t) : KeepsForm s t :=
  keepsForm_ccOnly (k := fun s => finish .cc 1 (s.cc.pc + 4) (onCore .cc f s))
    (keepsForm_finish_next (c := .cc) (s := s) (t := onCore .cc f s) 1 (keepsForm_onCore_cc hm s)) h
theorem keepsForm_readSpecial {fn : BitVec 11} {c : CoreId} {gd : Reg} {f : Core → Word} {s t : State} (h : readSpecial fn c gd f s = .next t) : KeepsForm s t :=
  keepsForm_cc_next c (fun _ => Core.put_mem ..) h
theorem keepsForm_jlnk {c : CoreId} {gd : Reg} {o : BitVec 21} {s t : State} (h : execJlnk c gd o s = .next t) : KeepsForm s t := by
  refine keepsForm_instr ?_ h
  refine keepsForm_finish 2 (keepsForm_onCore (fun k => ?_) (fun k => ?_) c s) fun hc hs => ?_
  · exact Core.put_mem ..
  · exact Core.put_pc ..
  · subst hc
    exact mod4_wordOff _ hs
theorem keepsForm_jlnkr {c : CoreId} {gd ga : Reg} {imm : BitVec 16} {s t : State} (h : execJlnkr c gd ga imm s = .next t) : KeepsForm s t := by
  refine keepsForm_instr ?_ h
  dsimp only
  split
  · exact keepsForm_trapAt ..
  · next ha =>
    refine keepsForm_finish 2 (keepsForm_onCore (fun k => ?_) (fun k => ?_) c s) fun _ _ => by simpa using ha
    · exact Core.put_mem ..
    · exact Core.put_pc ..
theorem keepsForm_shift {c : CoreId} {n : Nat} {gd : Reg} {f : Core → Word × Sticky} {w : Word} {p : Prop} [Decidable p] {s t : State}
    (h : (if p then compute c n gd f s else instr c (illegal c w) s) = .next t) : KeepsForm s t := by
  split at h
  · exact keepsForm_compute h
  · exact keepsForm_instr (keepsForm_trapAt ..) h
theorem keepsForm_add {c : CoreId} {gd ga gb : Reg} {x : Word} {s t : State} (h : execAdd c gd ga gb x s = .next t) : KeepsForm s t := by
  refine keepsForm_instr ?_ h
  exact (keepsForm_aluStep ..).trans (keepsForm_lockstep ..)
theorem keepsForm_lw {c : CoreId} {gd ga : Reg} {imm : BitVec 16} {x : Word} {s t : State} (h : execLw c gd ga imm x s = .next t) : KeepsForm s t := by
  refine keepsForm_instr ?_ h
  exact (keepsForm_loadStep ..).trans (keepsForm_lockstep ..)
theorem keepsForm_sw {c : CoreId} {data base : Reg} {imm : BitVec 16} {x : Word} {s t : State} (h : execSw c data base imm x s = .next t) : KeepsForm s t := by
  refine keepsForm_instr ?_ h
  exact (keepsForm_storeStep ..).trans (keepsForm_lockstep ..)
theorem keepsForm_brkpt {c : CoreId} {s t : State} (h : execBrkpt c s = .next t) : KeepsForm s t := by
  refine keepsForm_instr ?_ h
  extract_lets debug
  clear_value debug
  split
  · exact keepsForm_of_kept (kept_onSec _ _ (fun _ => rfl))
  · exact keepsForm_trapAt ..
theorem keepsForm_tret {c : CoreId} {s t : State} (h : execTret c s = .next t) : KeepsForm s t := by
  refine keepsForm_ccOnly ?_ h
  dsimp only
  split
  · exact keepsForm_ccTrap ..
  · refine keepsForm_finish 2 (keepsForm_onCore_cc (fun k => ?_) s) (fun hc => nomatch hc)
    rfl
theorem keepsForm_wrstatus {c : CoreId} {ga : Reg} {s t : State} (h : execWrstatus c ga s = .next t) : KeepsForm s t := by
  refine keepsForm_instr ?_ h
  refine keepsForm_finish_next 1 (keepsForm_onCore (fun k => ?_) (fun k => ?_) c s) <;> rfl
theorem keepsForm_rdcycle {c : CoreId} {gd : Reg} {s t : State} (h : execRdcycle c gd s = .next t) : KeepsForm s t := by
  refine keepsForm_instr ?_ h
  refine keepsForm_finish_next 1 (keepsForm_onCore (fun k => ?_) (fun k => ?_) c s)
  · exact Core.put_mem ..
  · exact Core.put_pc ..

/-- Every instruction of the cores keeps the queue and the form. -/
theorem keepsForm_exec {i : Instr} {s t : State} (hi : (auhamWord i).isSome = true) (h : exec i s = .next t) : KeepsForm s t := by
  cases i with
  | addi | andi | ori | xori | cmplti | cmpltiu | movu | leapc | sub | and | or | xor | sll | srl | sra | cmplt | cmpltu | neg | addsat | subsat
  | negsat | mul | mulhs | mulhu | divs | divu | rems | remu | rdstatus | rdcycleh => exact keepsForm_compute h
  | slli | srli | srai => exact keepsForm_shift h
  | lb | lbu | lh | lhu => exact keepsForm_instr (keepsForm_loadStep ..) h
  | lw => exact keepsForm_lw h
  | sb | sh => exact keepsForm_instr (keepsForm_storeStep ..) h
  | sw => exact keepsForm_sw h
  | beq => rw [exec_beq] at h; exact keepsForm_branch h
  | bne => rw [exec_bne] at h; exact keepsForm_branch h
  | blt => rw [exec_blt] at h; exact keepsForm_branch h
  | bge => rw [exec_bge] at h; exact keepsForm_branch h
  | bltu => rw [exec_bltu] at h; exact keepsForm_branch h
  | bgeu => rw [exec_bgeu] at h; exact keepsForm_branch h
  | jlnk => exact keepsForm_jlnk h
  | jlnkr => exact keepsForm_jlnkr h
  | add => exact keepsForm_add h
  | srvc => exact keepsForm_instr (keepsForm_trapAt ..) h
  | brkpt => exact keepsForm_brkpt h
  | tret => exact keepsForm_tret h
  | idle =>
    refine keepsForm_cc_next _ ?_ h
    exact fun _ => rfl
  | wrstatus => exact keepsForm_wrstatus h
  | rdcause | rdtval | rdtpc => exact keepsForm_readSpecial h
  | wrtpc =>
    refine keepsForm_cc_next _ ?_ h
    exact fun _ => rfl
  | rdcycle => exact keepsForm_rdcycle h
  | _ => simp [auhamWord] at hi

/-! ### An empty queue -/

theorem keepsForm_neapDecide (s : State) : KeepsForm s (neapDecide s) := by
  unfold neapDecide
  extract_lets u v
  have hu : KeepsForm s u := keepsForm_onPwr ..
  have hv : KeepsForm s v := by
    simp only [v]
    split
    · exact hu.trans ((keepsForm_onPwr ..).trans (keepsForm_of_kept (kept_mirror ..)))
    · exact hu
  split
  · exact hu
  · exact hv.trans (keepsForm_onPwr ..)
theorem keepsForm_frameSent (member : Bool) (f : OutFrame) (s : State) : KeepsForm s (frameSent member f s) := by
  unfold frameSent
  extract_lets u v w
  have hv : KeepsForm s v := by
    simp only [v]
    split
    · exact (keepsForm_of_kept (kept_retireFrame ..)).trans (keepsForm_neapDecide _)
    · exact keepsForm_of_kept (kept_retireFrame ..)
  refine hv.trans (keepsForm_of_kept ?_)
  simp only [w]
  split <;> simp
theorem keepsForm_isoPump (member : Bool) (s : State) : KeepsForm s (isoPump member s) := by
  unfold isoPump
  dsimp only
  split
  · exact .refl s
  · split
    · exact .refl s
    · split
      · exact (keepsForm_of_kept (by simp)).trans (keepsForm_frameSent ..)
      · exact keepsForm_of_kept (by simp)
theorem keepsForm_isoStep (member : Bool) (s : State) : KeepsForm s (isoStep member s) := by
  unfold isoStep
  split
  · dsimp only
    split
    · exact (keepsForm_of_kept (by simp)).trans (keepsForm_frameSent ..)
    · exact keepsForm_of_kept (by simp)
  · exact .refl s
theorem keepsForm_isoBlock (member : Bool) (n : Nat) (s : State) : KeepsForm s (isoBlock member n s) := by
  induction n generalizing s with
  | zero => exact .refl s
  | succ n ih =>
    unfold isoBlock
    split
    · exact (keepsForm_isoStep ..).trans (ih _)
    · exact .refl s
theorem keepsForm_isoIdle (member : Bool) (s : State) : KeepsForm s (isoIdle member s) := (keepsForm_isoBlock ..).trans (keepsForm_isoPump ..)
theorem keepsForm_idle (s : State) : KeepsForm s (idle s) := by
  unfold idle
  extract_lets u v
  have hv : kept v = kept s := by
    simp only [v, u]
    split <;> simp
  split
  · exact keepsForm_of_kept hv
  · exact (keepsForm_of_kept hv).trans ((keepsForm_isoIdle ..).trans (keepsForm_isoIdle ..))

/-- Settles O4: every instruction of a core keeps the form, and so does the time that passes on an empty queue. -/
theorem coreStepsKeepForm : Obligations.CoreStepsKeepForm := by
  unfold Obligations.CoreStepsKeepForm
  intro s t ⟨hq, hform⟩ hstep
  obtain ⟨hcc, hxc, hpc⟩ := hform
  cases hp : s.pending with
  | nil =>
    rw [step, hp] at hstep
    cases hstep
    have hk := keepsForm_idle s
    exact ⟨by simp [hk.queue, hp], hk.cc hcc, hk.xc hxc, hk.pc hpc⟩
  | cons c rest =>
    rw [step, hp] at hstep
    rw [hp] at hq
    have hk := keepsForm_exec (hq c (List.mem_cons_self ..)) hstep
    have hrest : t.pending = rest := hk.queue
    exact ⟨fun d hd => hq d (List.mem_cons_of_mem _ (hrest ▸ hd)), hk.cc hcc, hk.xc hxc, hk.pc hpc⟩

/-- Settles O13: a load or a store is an instruction of a core. -/
theorem auhamMemoryForm : Obligations.AuhamMemoryForm := by
  unfold Obligations.AuhamMemoryForm
  intro c data base imm second s t hcc hxc _
  refine ⟨fun i n hi _ _ h => ?_, fun i n hi _ _ h => ?_⟩ <;>
  · have hw : (auhamWord i).isSome = true := by
      simp only [List.mem_cons, Prod.mk.injEq, List.not_mem_nil, or_false] at hi
      rcases hi with ⟨rfl, _⟩ | ⟨rfl, _⟩ | ⟨rfl, _⟩ | ⟨rfl, _⟩ | ⟨rfl, _⟩ <;> rfl
    exact ⟨(keepsForm_exec hw h).cc hcc, (keepsForm_exec hw h).xc hxc⟩

end Sys2Proof.Machine
end

section
/-! The pair's link, its liveness and its commands (O52, O53, O55). -/

namespace Sys2Proof.Machine
open Sys2Proof

/-! ### Blocks -/

/-- A block in sequence is counted and clears the misses. -/
theorem recvBlock_inSeq {seq : Nat} {k : State → State} {s : State} (hl : linkLive s = true) (hu : s.pair.up = true) (hq : seq = s.pair.rx) :
    recvBlock seq s k = .next (k (s.onPair (fun p => { p with rx := p.rx + 1, missed := 0 }))) := by
  rw [recvBlock, if_neg (by simp [hl, hu]), if_neg (by simp [hq])]
theorem recvBlock_outOfSeq {seq : Nat} {k : State → State} {s : State} (hl : linkLive s = true) (hu : s.pair.up = true) (hq : seq ≠ s.pair.rx) :
    recvBlock seq s k = .next (s.onPair (fun p => { p with sent := lastN 256 (p.sent ++ [(p.tx, linkBlock p 0 0x11 (le32 p.rx))]), tx := p.tx + 1 })) := by
  rw [recvBlock, if_neg (by simp [hl, hu]), if_pos hq, sendBlock, sendFlagged, if_neg (by simp [hu])]
  simp only [State.onPair]

@[simp] theorem dueAt_pair (n : Nat) (s : State) : (dueAt n s).pair = s.pair := by unfold dueAt; split <;> simp
@[simp] theorem dueAt_pwr_state (n : Nat) (s : State) : (dueAt n s).pwr.state = s.pwr.state := by unfold dueAt; split <;> simp

/-! ### The last block of an empty state transfer -/

theorem updateUwb_rest (s : State) : (updateUwb s).pair = s.pair ∧ (updateUwb s).store = s.store := by
  unfold updateUwb
  split
  · exact ⟨rfl, rfl⟩
  · have one : ∀ (a b : Bool) (r : Nat) (t : State),
        let w := if a then emitF evUwbUnavailable 1 [byte r] [byte r] t else if b then emitC evUwbUnavailable 1 [byte r] [byte r] t else t
        w.pair = t.pair ∧ w.store = t.store := by
      intro a b r t
      cases a <;> cases b <;> simp [emitF, emitC]
    dsimp only
    exact ⟨foldl_keeps State.pair (fun t r => (one _ _ r t).1) _ _, foldl_keeps State.store (fun t r => (one _ _ r t).2) _ _⟩
theorem applyItems_nil (s : State) : applyItems [] s = updateUwb s := rfl

/-- Settles O55: the commands pass their checks in turn; the last step of a switchover and of an admission ends what waited for it. -/
theorem pairCommands : Obligations.PairCommands := by
  unfold Obligations.PairCommands
  refine ⟨fun m s ref u => ⟨fun h hp => ?_, fun h hp hpd hm hpath hsw => ?_, fun h hp hpd => ?_, fun h hp hr hup hpt hj hv hm ha ht => ?_⟩,
    fun seq last t0 k ref nonce n rep items s => ?_⟩
  · rw [exec_pairStatus, execPairStatus, runCmd_begun h, needLen_eq (by rw [hp]; rfl)]
  · rw [exec_pairSwitchover, execPairSwitchover, runCmd_begun h, needLen_eq (by rw [hp]; rfl), need_true (by simp [hpd, hm]),
      need_true (by simp [hpath, hsw])]
  · rw [exec_pairSwitchover, execPairSwitchover, runCmd_begun h, needLen_eq (by rw [hp]; rfl), need_false (by simp [hpd])]
  · rw [exec_pairAdmit, execPairAdmit, runCmd_begun h, needLen_eq (by rw [hp]; rfl), need_true (by simp [hr, hup, hpt, hj, hv, hm]),
      need_true (by simp [ha, ht])]
  · dsimp only
    refine ⟨fun hl hu hq hr hj hlast => ?_, fun hl hu hq hr hsw => ?_, fun hsw => ?_, fun ha => ?_, fun hl hu hq hr hj hsg hv hk => ?_,
      fun hl hu hq ha hn => ?_, fun hl hu hq hr => ?_, fun hl hu hq hr hpt => ?_⟩
    · rw [exec_handover, execHandover, recvBlock_inSeq hl hu hq]
      exact congrArg _ ((if_pos hr).trans (if_pos (by simp [hj, hlast])))
    · rw [exec_handover, execHandover, recvBlock_inSeq hl hu hq]
      exact congrArg _ ((if_neg (by simp [hr])).trans (if_pos (by simp [hsw])))
    · rw [exec_switchoverTimeout, execSwitchoverTimeout, hsw]
      exact ⟨_, rfl, by simp [cmdDone]⟩
    · rw [exec_admitTimeout, execAdmitTimeout, ha]
      exact ⟨_, rfl, by simp [cmdDone]⟩
    · rw [exec_attestationRequest, execAttestationRequest, recvBlock_inSeq hl hu hq]
      refine ⟨_, congrArg _ ((if_pos (by simp [hr, hj])).trans (if_neg ?_)), ⟨_, rfl⟩, rfl, rfl⟩
      simp [hsg, hv]
      exact Option.ne_none_iff_isSome.2 hk
    · rw [exec_attestationReport, execAttestationReport, recvBlock_inSeq hl hu hq]
      simp only [State.onPair, ha]
      exact congrArg _ (if_neg (by simpa using hn))
    · rw [exec_stateTransfer, execStateTransfer, recvBlock_inSeq hl hu hq]
      exact ⟨_, congrArg _ (if_neg (by simp [hr])), rfl⟩
    · rw [exec_stateTransfer, execStateTransfer, recvBlock_inSeq hl hu hq]
      refine ⟨_, congrArg _ (if_neg (by simp [hr])), ?_⟩
      simp [hpt, applyItems_nil, updateUwb_rest, queueJob]

/-! ### The link comes up -/

theorem ne_neap_of_linkLive {s : State} (h : linkLive s = true) : s.pwr.state ≠ .neap := by
  simp only [linkLive, Bool.and_eq_true, decide_eq_true_eq] at h
  exact h.2

/-- Settles O52: a block that fails its check leaves the partner unknown; one that passes gives both members the key of the two nonces. -/
theorem pairLink : Obligations.PairLink := by
  unfold Obligations.PairLink
  refine fun b n key s v => ⟨fun hl hd => ?_, fun hl hk hv => ?_, fun hl hk hv hc => ?_, fun hl hk hv hc hlo hhi hn hu => ?_, fun hl hu hr hj => ?_⟩
  · rw [exec_causewayLock, execCausewayLock, if_neg (by simp [hl]), drawLinkNonce, hd]
    exact ⟨_, rfl, rfl⟩
  · rw [exec_negotiate, execNegotiate, if_neg (by simp [hl, hk]), hv]
    exact ⟨_, rfl, rfl⟩
  · rw [exec_negotiate, execNegotiate, if_neg (by simp [hl, hk]), hv]
    exact ⟨_, if_pos (by simp [hc]), rfl⟩
  · rw [exec_negotiate, execNegotiate, if_neg (by simp [hl, hk]), hv]
    dsimp only
    rw [if_neg (by simp [hc]; omega), if_neg (by simp [hn]), hn]
    refine ⟨_, if_pos hu, rfl, rfl, ?_, rfl, rfl, rfl, rfl⟩
    split <;> rfl
  · rw [exec_partnerAbsentTimeout, execPartnerAbsentTimeout, if_neg (by simp [hl, hu, hr, hj])]
    refine ⟨_, rfl, ?_, ?_, ?_⟩
    · simp [takeRole, emitT]
    · simp [takeRole, emitT, now]
    · simp [takeRole, emitT, dueAt_base (ne_neap_of_linkLive hl), Nat.max_comm]

end Sys2Proof.Machine
end

section
/-! Rows that keep OFF, the queue, the link, the memories and the supplies whatever the state is. -/

namespace Sys2Proof.Machine
open Sys2Proof

/-- What is kept of the state that a command leaves. -/
def keptOf (o : Host.Outcome State Fault Refusal) : Option Kept := match o with | .next t => some (kept t) | _ => none
@[simp] theorem keptOf_next (t : State) : keptOf (next t) = some (kept t) := (rfl)
@[simp] theorem keptOf_ite (c : Prop) [Decidable c] (a b : Host.Outcome State Fault Refusal) : keptOf (if c then a else b) = if c then keptOf a else keptOf b := apply_ite ..

theorem keptOf_execIsthmusWatchdogExpiry (s : State) :
    keptOf (execIsthmusWatchdogExpiry s) = some (kept s) := by unfold execIsthmusWatchdogExpiry; simp
theorem keptOf_execSpiWriteFrame (member : Bool) (bytes : Bytes) (s : State) :
    keptOf (execSpiWriteFrame member bytes s) = some (kept s) := by unfold execSpiWriteFrame; simp
theorem keptOf_execSeqGapHoldoffEnd (member : Bool) (lane : Nat) (s : State) :
    keptOf (execSeqGapHoldoffEnd member lane s) = some (kept s) := by unfold execSeqGapHoldoffEnd; split <;> simp
theorem keptOf_execIsotpFirstFrame (member : Bool) (len : Nat) (bytes : Bytes) (s : State) :
    keptOf (execIsotpFirstFrame member len bytes s) = some (kept s) := by unfold execIsotpFirstFrame; simp
theorem keptOf_execIsotpWaitTimer (member : Bool) (s : State) :
    keptOf (execIsotpWaitTimer member s) = some (kept s) := by unfold execIsotpWaitTimer; split <;> simp
theorem keptOf_execIsotpNCrTimeout (member : Bool) (s : State) :
    keptOf (execIsotpNCrTimeout member s) = some (kept s) := by unfold execIsotpNCrTimeout; split <;> simp
theorem keptOf_execSecureOpenExpiry (member : Bool) (s : State) :
    keptOf (execSecureOpenExpiry member s) = some (kept s) := by unfold execSecureOpenExpiry; split <;> simp
theorem keptOf_execAuthStormHoldEnd (member : Bool) (s : State) :
    keptOf (execAuthStormHoldEnd member s) = some (kept s) := by unfold execAuthStormHoldEnd; split <;> simp
theorem keptOf_execPathDeadlineExpiry (s : State) :
    keptOf (execPathDeadlineExpiry s) = some (kept s) := by unfold execPathDeadlineExpiry; split <;> simp
theorem keptOf_execLfBurstEnd (energyUj overflow : Nat) (recs : List WinRec) (temp : Int) (s : State) :
    keptOf (execLfBurstEnd energyUj overflow recs temp s) = some (kept s) := by
  unfold execLfBurstEnd
  dsimp only
  (repeat' split) <;> simp
theorem keptOf_execLfValidationDone (s : State) :
    keptOf (execLfValidationDone s) = some (kept s) := by unfold execLfValidationDone; split <;> simp
theorem keptOf_execLfDriveFault (chan bit : Nat) (s : State) :
    keptOf (execLfDriveFault chan bit s) = some (kept s) := by unfold execLfDriveFault; split <;> simp
theorem keptOf_execSlotEnd (energy sync : Bool) (overflow : Nat) (s : State) :
    keptOf (execSlotEnd energy sync overflow s) = some (kept s) := by unfold execSlotEnd; split <;> simp
theorem keptOf_execAnswerReceived (slot : Nat) (body : Bytes) (offsetNs carrier : Int) (s : State) :
    keptOf (execAnswerReceived slot body offsetNs carrier s) = some (kept s) := by
  unfold execAnswerReceived
  dsimp only
  (repeat' split) <;> simp
theorem keptOf_execProofReceived (body : Bytes) (offsetNs : Int) (s : State) :
    keptOf (execProofReceived body offsetNs s) = some (kept s) := by
  unfold execProofReceived
  (repeat' split) <;> simp
theorem keptOf_execProofTimeout (s : State) :
    keptOf (execProofTimeout s) = some (kept s) := by
  unfold execProofTimeout
  (repeat' split) <;> simp
theorem keptOf_execLocateReportReceived (slot : Nat) (body : Bytes) (s : State) :
    keptOf (execLocateReportReceived slot body s) = some (kept s) := by
  unfold execLocateReportReceived
  dsimp only
  (repeat' split) <;> simp
theorem keptOf_execPathZoneDecision (s : State) :
    keptOf (execPathZoneDecision s) = some (kept s) := by unfold execPathZoneDecision; split <;> simp
theorem keptOf_execRangingRoundStart (token port : Nat) (s : State) :
    keptOf (execRangingRoundStart token port s) = some (kept s) := by unfold execRangingRoundStart; split <;> simp
theorem keptOf_execUwbResponseReceived (token quality fpPs tround1 treply2 : Nat) (phase : Option Int) (s : State) :
    keptOf (execUwbResponseReceived token quality fpPs tround1 treply2 phase s) = some (kept s) := by unfold execUwbResponseReceived; simp
theorem keptOf_execUwbReportReceived (token : Nat) (psdu : Bytes) (s : State) :
    keptOf (execUwbReportReceived token psdu s) = some (kept s) := by unfold execUwbReportReceived; simp
theorem keptOf_execRangingRoundEnd (token overflow : Nat) (s : State) :
    keptOf (execRangingRoundEnd token overflow s) = some (kept s) := by
  unfold execRangingRoundEnd
  dsimp only
  (repeat' split) <;> simp
theorem keptOf_execPathEnd (s : State) :
    keptOf (execPathEnd s) = some (kept s) := by unfold execPathEnd; split <;> simp
theorem keptOf_execDoorTimeout (door : Nat) (opening : Bool) (s : State) :
    keptOf (execDoorTimeout door opening s) = some (kept s) := by unfold execDoorTimeout; split <;> simp
theorem keptOf_execStartTimeout (s : State) :
    keptOf (execStartTimeout s) = some (kept s) := by unfold execStartTimeout; split <;> simp
theorem keptOf_execGpioPulseEnd (pin : Nat) (s : State) :
    keptOf (execGpioPulseEnd pin s) = some (kept s) := by unfold execGpioPulseEnd; split <;> simp
theorem keptOf_execReleaseRepeat (s : State) :
    keptOf (execReleaseRepeat s) = some (kept s) := by unfold execReleaseRepeat; split <;> simp
theorem keptOf_execTpChargeEnd (s : State) :
    keptOf (execTpChargeEnd s) = some (kept s) := by unfold execTpChargeEnd; split <;> simp
theorem keptOf_execTpOpenCheck (currentMa : Nat) (s : State) :
    keptOf (execTpOpenCheck currentMa s) = some (kept s) := by unfold execTpOpenCheck; split <;> simp
theorem keptOf_execTpIdentReceived (frame : Bytes) (s : State) :
    keptOf (execTpIdentReceived frame s) = some (kept s) := by
  unfold execTpIdentReceived
  dsimp only
  (repeat' split) <;> simp
theorem keptOf_execTpResponseReceived (frame : Bytes) (s : State) :
    keptOf (execTpResponseReceived frame s) = some (kept s) := by
  unfold execTpResponseReceived
  dsimp only
  (repeat' split) <;> simp
theorem keptOf_execTpSyncTimeout (s : State) :
    keptOf (execTpSyncTimeout s) = some (kept s) := by unfold execTpSyncTimeout; split <;> simp
theorem keptOf_execRadioBgCalStep (temp : Int) (s : State) :
    keptOf (execRadioBgCalStep temp s) = some (kept s) := by
  unfold execRadioBgCalStep
  dsimp only
  (repeat' split) <;> simp
theorem keptOf_execRadioCalStepDone (value : Nat) (dc : List Nat) (s : State) :
    keptOf (execRadioCalStepDone value dc s) = some (kept s) := by
  unfold execRadioCalStepDone
  (repeat' split) <;> simp
theorem keptOf_execHopLockFail (chan : Nat) (s : State) :
    keptOf (execHopLockFail chan s) = some (kept s) := by
  unfold execHopLockFail
  (repeat' split) <;> simp
theorem keptOf_execRadioPacketEnd (vswr : Nat) (fwd : Int) (s : State) :
    keptOf (execRadioPacketEnd vswr fwd s) = some (kept s) := by
  unfold execRadioPacketEnd
  (repeat' split) <;> simp
theorem keptOf_execRadioTestTxEnd (vswr : Nat) (fwd : Int) (s : State) :
    keptOf (execRadioTestTxEnd vswr fwd s) = some (kept s) := by unfold execRadioTestTxEnd; split <;> simp
theorem keptOf_execTunerAcquire (band : Nat) (temp : Int) (s : State) :
    keptOf (execTunerAcquire band temp s) = some (kept s) := by
  unfold execTunerAcquire
  dsimp only
  (repeat' split) <;> simp
theorem keptOf_execCoexGrantAssert (s : State) :
    keptOf (execCoexGrantAssert s) = some (kept s) := by
  unfold execCoexGrantAssert
  dsimp only
  (repeat' split) <;> simp
theorem keptOf_execCoexGrantNegate (s : State) :
    keptOf (execCoexGrantNegate s) = some (kept s) := by
  unfold execCoexGrantNegate
  dsimp only
  (repeat' split) <;> simp
theorem keptOf_execCoexWaitExpiry (s : State) :
    keptOf (execCoexWaitExpiry s) = some (kept s) := by unfold execCoexWaitExpiry; split <;> simp
theorem keptOf_execBaselineDrift (chan : Nat) (s : State) :
    keptOf (execBaselineDrift chan s) = some (kept s) := by
  unfold execBaselineDrift
  dsimp only
  (repeat' split) <;> simp
theorem keptOf_execMaxTouchExpiry (chan : Nat) (s : State) :
    keptOf (execMaxTouchExpiry chan s) = some (kept s) := by unfold execMaxTouchExpiry; simp
theorem keptOf_execStuckTimeout (input : Nat) (s : State) :
    keptOf (execStuckTimeout input s) = some (kept s) := by unfold execStuckTimeout; simp
theorem keptOf_execTamperHoldEnd (sensor : Nat) (s : State) :
    keptOf (execTamperHoldEnd sensor s) = some (kept s) := by unfold execTamperHoldEnd; simp
theorem keptOf_execServiceExpiry (s : State) :
    keptOf (execServiceExpiry s) = some (kept s) := by unfold execServiceExpiry; split <;> simp
theorem keptOf_execSignatureDone (s : State) :
    keptOf (execSignatureDone s) = some (kept s) := by
  unfold execSignatureDone
  (repeat' split) <;> simp
theorem keptOf_execCounterWriteRetry (s : State) :
    keptOf (execCounterWriteRetry s) = some (kept s) := by unfold execCounterWriteRetry; simp
theorem keptOf_execRngStartupTestPass (source : Nat) (s : State) :
    keptOf (execRngStartupTestPass source s) = some (kept s) := by unfold execRngStartupTestPass; simp
theorem keptOf_execRngHealthFail (source test : Nat) (s : State) :
    keptOf (execRngHealthFail source test s) = some (kept s) := by unfold execRngHealthFail; simp
theorem keptOf_execRngNoBlockTimeout (s : State) :
    keptOf (execRngNoBlockTimeout s) = some (kept s) := by unfold execRngNoBlockTimeout; split <;> simp
theorem keptOf_execRngFatalRestart (s : State) :
    keptOf (execRngFatalRestart s) = some (kept s) := by unfold execRngFatalRestart; split <;> simp
theorem keptOf_execRngDataRead (owner : CoreId) (s : State) :
    keptOf (execRngDataRead owner s) = some (kept s) := by unfold execRngDataRead; simp
theorem keptOf_execRngReseedRequest (owner : CoreId) (s : State) :
    keptOf (execRngReseedRequest owner s) = some (kept s) := by unfold execRngReseedRequest; simp
theorem keptOf_execRngFlush (owner : CoreId) (s : State) :
    keptOf (execRngFlush owner s) = some (kept s) := by unfold execRngFlush; simp
theorem keptOf_execRngTestWrite (value : Word) (s : State) :
    keptOf (execRngTestWrite value s) = some (kept s) := by unfold execRngTestWrite; simp
theorem keptOf_execStoreWriteBegin (s : State) :
    keptOf (execStoreWriteBegin s) = some (kept s) := by
  unfold execStoreWriteBegin
  dsimp only
  (repeat' split) <;> simp
theorem keptOf_execStoreCopyDone (s : State) :
    keptOf (execStoreCopyDone s) = some (kept s) := by unfold execStoreCopyDone; split <;> simp
theorem keptOf_execStoreDeferredRetry (s : State) :
    keptOf (execStoreDeferredRetry s) = some (kept s) := by unfold execStoreDeferredRetry; simp
theorem keptOf_execPageEraseDone (page : Nat) (ok : Bool) (s : State) :
    keptOf (execPageEraseDone page ok s) = some (kept s) := by unfold execPageEraseDone; simp
theorem keptOf_execPairCommitTimeout (s : State) :
    keptOf (execPairCommitTimeout s) = some (kept s) := by unfold execPairCommitTimeout; split <;> simp
theorem keptOf_execPluginStepEnd (s : State) :
    keptOf (execPluginStepEnd s) = some (kept s) := by unfold execPluginStepEnd; split <;> simp
theorem keptOf_execFxLookup (tokenId : Word) (s : State) :
    keptOf (execFxLookup tokenId s) = some (kept s) := by unfold execFxLookup; simp
theorem keptOf_execAesEncrypt (s : State) :
    keptOf (execAesEncrypt s) = some (kept s) := by unfold execAesEncrypt; simp
theorem keptOf_execAesDecrypt (s : State) :
    keptOf (execAesDecrypt s) = some (kept s) := by unfold execAesDecrypt; simp
theorem keptOf_execAesCmac (s : State) :
    keptOf (execAesCmac s) = some (kept s) := by unfold execAesCmac; simp
theorem keptOf_execAesCmacDkey (dkey : Nat) (s : State) :
    keptOf (execAesCmacDkey dkey s) = some (kept s) := by unfold execAesCmacDkey; simp
theorem keptOf_execSwitchoverTimeout (s : State) :
    keptOf (execSwitchoverTimeout s) = some (kept s) := by unfold execSwitchoverTimeout; split <;> simp
theorem keptOf_execAdmitTimeout (s : State) :
    keptOf (execAdmitTimeout s) = some (kept s) := by unfold execAdmitTimeout; split <;> simp
theorem keptOf_execFaultHandlingDone (s : State) :
    keptOf (execFaultHandlingDone s) = some (kept s) := by unfold execFaultHandlingDone; split <;> simp
theorem keptOf_execWakeNNegate (s : State) :
    keptOf (execWakeNNegate s) = some (kept s) := by
  unfold execWakeNNegate
  split
  · rfl
  · dsimp only
    split <;> simp
theorem keptOf_execTamperSensorClear (sensor : Nat) (s : State) :
    keptOf (execTamperSensorClear sensor s) = some (kept s) := by unfold execTamperSensorClear; simp
theorem keptOf_execZoneDropAgeExpiry (token : Nat) (s : State) :
    keptOf (execZoneDropAgeExpiry token s) = some (kept s) := by unfold execZoneDropAgeExpiry; split <;> simp

end Sys2Proof.Machine
end

section
/-! An unpowered machine stays in OFF (O3). -/

namespace Sys2Proof.Machine
open Sys2Proof

/-! ### OFF -/

/-- The supplies' share of an unpowered machine. -/
def IsOff (s : State) : Prop := (kept s).off.2 = some (.none, none, false, false)
theorem isOff_iff (s : State) : IsOff s ↔
    s.pwr.state = .off ∧ s.pwr.phase = .none ∧ s.pwr.ride = none ∧ s.pwr.neapEntry = false ∧ s.pwr.neapAfter = false := by
  unfold IsOff kept offKey
  split <;> simp [*]
theorem isOff_congr {s t : State} (h : (kept t).off = (kept s).off) : IsOff t ↔ IsOff s := by
  unfold IsOff
  rw [h]

/-- What an unpowered machine is not. -/
theorem IsOff.idle {s : State} (h : IsOff s) : running s = false ∧ started s = false ∧ awake s = false ∧ coreClock s = false ∧ linkLive s = false ∧
    sensing s = false ∧ watching s = false ∧ riding s = false ∧ (∀ c, coreRuns s c = false) ∧ ∀ m, canServed m s = false := by
  obtain ⟨hs, hp, hr, _, _⟩ := (isOff_iff s).1 h
  have hrun : running s = false := by simp [running, hp]
  simp [hrun, started, awake, coreClock, linkLive, sensing, watching, riding, coreRuns, canServed, hs, hp, hr]

/-! ### What keeps OFF but moves something else -/

@[simp] theorem kept_onClk_off (f : Clk → Clk) (s : State) : (kept (s.onClk f)).off = (kept s).off := (rfl)
@[simp] theorem kept_onPwr_off (s : State) (f : Pwr → Pwr) (h : ∀ p, offKey (f p) = offKey p) : (kept (s.onPwr f)).off = (kept s).off := by
  simp [kept, h]
@[simp] theorem kept_onExtMem_off (f : List Host.Cell → List Host.Cell) (s : State) : (kept (onExtMem f s)).off = (kept s).off := rfl
@[simp] theorem kept_onCore_off (c : CoreId) (f : Core → Core) (s : State) : (kept (onCore c f s)).off = (kept s).off := by cases c <;> rfl
@[simp] theorem kept_relayout_off (new : Nat) (s : State) : (kept (relayout new s)).off = (kept s).off := by unfold relayout; simp
@[simp] theorem kept_applySlot_off (i : Nat) (x : Slot) (ref : Option CmdRef) (s : State) : (kept (applySlot i x ref s)).off = (kept s).off := by
  unfold applySlot
  simp
@[simp] theorem kept_changeSlot_off (i : Nat) (x : Slot) (ref : Option CmdRef) (s : State) : (kept (changeSlot i x ref s)).off = (kept s).off := by
  unfold changeSlot
  simp
@[simp] theorem kept_aesDone_off (s : State) : (kept (aesDone s)).off = (kept s).off := by unfold aesDone; split <;> simp
@[simp] theorem kept_loadPlugin_off (slot : Nat) (ref : CmdRef) (e : Bytes) (s : State) : (kept (loadPlugin slot ref e s)).off = (kept s).off := by
  unfold loadPlugin
  split <;> simp
@[simp] theorem kept_applyVerified_off (what : VerifyFor) (ref : CmdRef) (s : State) : (kept (applyVerified what ref s)).off = (kept s).off := by
  unfold applyVerified
  extract_lets e fail over_ waits fresh
  have hover : ∀ u, kept (over_ u) = kept u := fun u => by simp [over_]
  have hwaits : ∀ u, kept (waits u) = kept u := fun u => by simp [waits, hover]
  clear_value over_ waits fresh fail
  split
  · simp [hover]
  · split <;> simp [hover]
  · split
    · simp [hover]
    · split
      · split
        · next u hu => simp [hover, kept_lifecycleGrant _ _ _ _ hu]
        · simp [hwaits]
      · simp [hover]
      · split
        · next u hu => simp [hover, kept_reprovisionGrant _ _ _ _ hu]
        · simp [hwaits]
      · simp [hover]
@[simp] theorem kept_resumeGrant_off (s : State) : (kept (resumeGrant s)).off = (kept s).off := by unfold resumeGrant; split <;> simp
@[simp] theorem kept_serveRng_off (s : State) : (kept (serveRng s)).off = (kept s).off := by
  unfold serveRng
  dsimp only
  split <;> simp
@[simp] theorem kept_joinerDone_off (s : State) : (kept (joinerDone s)).off = (kept s).off := by
  unfold joinerDone
  simp only [kept_sendBlock]
  rfl
@[simp] theorem kept_takeRole_off (r : Role) (s : State) : (kept (takeRole r s)).off = (kept s).off := by
  unfold takeRole
  simp only [kept_emitT]
  rfl
@[simp] theorem kept_readReg_off (r : RegAddr) (s : State) : (kept (readReg r s).2).off = (kept s).off := by
  unfold readReg
  split <;> simp

/-! ### What leaves other power states, and not OFF -/

theorem resetBy_off {cause : Nat} {s : State} (h : IsOff s) : resetBy cause s = s := if_pos (by simp [((isOff_iff s).1 h).1])
theorem leaveNeap_off {wake : Option Nat} {flood : Bool} {s : State} (h : IsOff s) : leaveNeap wake flood s = s := by
  obtain ⟨hs, _, _, hn, _⟩ := (isOff_iff s).1 h
  exact if_pos (by simp [hs, hn])

/-! ### Rows -/

/-- The outcome of a row that leaves OFF and the queue as they are. -/
def StaysOff (s : State) (o : Host.Outcome State Fault Refusal) : Prop := ∀ t, o = .next t → (kept t).off = (kept s).off
theorem staysOff_next {s t : State} (h : (kept t).off = (kept s).off) : StaysOff s (next t) := by
  rintro _ ⟨⟩
  exact h
theorem staysOff_of_eq {s : State} {o : Host.Outcome State Fault Refusal} (h : o = next s) : StaysOff s o := h ▸ staysOff_next rfl
theorem runCmd_of_not_running {op : Nat} {m : MbxCmd} {s : State} {k : CmdRef → Bytes → State → State} (h : running s = false) : runCmd op m s k = s := by
  simp [runCmd, begun, takeCmd, h]
theorem staysOff_of_keptOf {s : State} {o : Host.Outcome State Fault Refusal} (h : keptOf o = some (kept s)) : StaysOff s o := by
  rintro t rfl
  exact congrArg Kept.off (Option.some.inj h)

theorem staysOff_execVbatLoss {mv : Nat} {s : State} (h : IsOff s) : StaysOff s (execVbatLoss mv s) := by
  obtain ⟨-, hp, -, -, -⟩ := (isOff_iff s).1 h
  by_cases hv : !s.pwr.vbatValid || mv ≥ 4500
  · exact staysOff_of_eq (if_pos hv)
  · rw [execVbatLoss, if_neg hv, if_pos hp]
    exact staysOff_next (by simp)
theorem staysOff_execVbatReturn {mv : Nat} {s : State} (h : IsOff s) : StaysOff s (execVbatReturn mv s) := by
  obtain ⟨hs, hp, hr, hn, hna⟩ := (isOff_iff s).1 h
  unfold execVbatReturn
  split
  · exact staysOff_next rfl
  · simp only [hr]
    refine staysOff_next ?_
    split
    · simp
    · simp only [kept_crossing]
      simp [kept, offKey, State.onPwr, hs, hr]
theorem staysOff_execVholdFloor {s : State} (h : IsOff s) : StaysOff s (execVholdFloor s) := by
  unfold execVholdFloor
  split
  · exact staysOff_next rfl
  · have hq : (kept (countDriven (cutStore s))).off.1 = s.pending :=
      congrArg (fun k : Kept => k.off.1) ((kept_countDriven ..).trans (kept_cutStore ..))
    exact staysOff_next (Prod.ext hq h.symm)
theorem isoPump_of_not_served {m : Bool} {s : State} (h : canServed m s = false) : isoPump m s = s := if_pos (by simp [h])
theorem isoPump_off {m : Bool} {s t : State} (h : IsOff s) (ht : (kept t).off = (kept s).off) : isoPump m t = t := by
  obtain ⟨-, -, -, -, -, -, -, -, -, hca⟩ := ((isOff_congr ht).2 h).idle
  exact isoPump_of_not_served (hca m)
theorem kept_frameSent_off {m : Bool} {f : OutFrame} {s : State} (h : IsOff s) : (kept (frameSent m f s)).off = (kept s).off := by
  obtain ⟨-, -, -, -, hna⟩ := (isOff_iff _).1 ((isOff_congr (congrArg Kept.off (kept_retireFrame m f s))).2 h)
  unfold frameSent
  simp [hna]
theorem kept_isoStep_off {m : Bool} {s : State} (h : IsOff s) : (kept (isoStep m s)).off = (kept s).off := by
  unfold isoStep
  split
  · dsimp only
    split
    · rw [kept_frameSent_off]
      · simp
      · exact (isOff_congr (by simp)).2 h
    · simp
  · rfl
theorem kept_isoBlock_off {m : Bool} {n : Nat} {s : State} (h : IsOff s) : (kept (isoBlock m n s)).off = (kept s).off := by
  induction n generalizing s with
  | zero => rfl
  | succ n ih =>
    unfold isoBlock
    split
    · have hstep := kept_isoStep_off (m := m) h
      exact (ih ((isOff_congr hstep).2 h)).trans hstep
    · rfl
theorem kept_idle_off {s : State} (h : IsOff s) : (kept (idle s)).off = (kept s).off := by
  have hidle : ∀ m t, IsOff t → (kept (isoIdle m t)).off = (kept t).off := fun m t ht => by
    unfold isoIdle
    rw [isoPump_off ht (kept_isoBlock_off ht), kept_isoBlock_off ht]
  unfold idle
  extract_lets u v
  have hu : (kept u).off = (kept s).off := congrArg Kept.off (kept_passTime s)
  have hv : (kept v).off = (kept u).off := by simp only [v, kept_ite, kept_pollOver, ite_self]
  have hoff := (isOff_congr (hv.trans hu)).2 h
  clear_value v
  split
  · rw [hv, hu]
  · rw [hidle _ _ ((isOff_congr (hidle _ _ hoff)).2 hoff), hidle _ _ hoff, hv, hu]
theorem staysOff_execIsotpNBsTimeout {m : Bool} {s : State} (h : IsOff s) : StaysOff s (execIsotpNBsTimeout m s) := by
  unfold execIsotpNBsTimeout
  split
  · next x _ =>
    split
    · exact staysOff_next rfl
    · have hk : (kept (isoAbandon m (advanceTo (x.at_ + 1000000) s))).off = (kept s).off := by simp
      rw [isoPump_off h hk]
      exact staysOff_next hk
  · exact staysOff_next rfl
theorem kept_spiRow_off {m : Bool} {n : Nat} {s : State} {k : State → State} (h : IsOff s) : (kept (spiRow m n s k)).off = (kept s).off := by
  obtain ⟨hrun, -⟩ := h.idle
  rw [spiRow, if_neg (by simp [spiServed, hrun])]
  simp
theorem staysOff_execSpiReadFrame {m : Bool} {n : Nat} {s : State} (h : IsOff s) : StaysOff s (execSpiReadFrame m n s) := staysOff_next (kept_spiRow_off h)
theorem staysOff_execSpiStatusOnly {m : Bool} {k n : Nat} {s : State} (h : IsOff s) : StaysOff s (execSpiStatusOnly m k n s) := by
  unfold execSpiStatusOnly
  split
  · exact staysOff_of_keptOf (keptOf_execSpiWriteFrame ..)
  · split
    · exact staysOff_execSpiReadFrame h
    · exact staysOff_next (kept_spiRow_off h)
theorem staysOff_execResponseWindowOpen {temp : Int} {s : State} : StaysOff s (execResponseWindowOpen temp s) := by
  refine staysOff_of_keptOf ?_
  unfold execResponseWindowOpen
  dsimp only
  split
  · next p _ =>
    split
    · simp
    · split
      · simp
      · generalize hu : advanceTo p.windowAt (coexLead 1 (advanceTo (p.windowAt - 40) (strandReads temp s))) = u
        have hk := kept_rxOpen p.freq 1 u
        have hs : kept u = kept s := by simp [← hu]
        clear hu
        generalize rxOpen p.freq 1 u = q at hk ⊢
        obtain ⟨_ | _, t⟩ := q <;> replace hk : kept t = _ := hk <;> simp [hk, hs]
  · split <;> simp
  · simp
theorem staysOff_execRngWaitTimeout {user : RngUser} {s : State} : StaysOff s (execRngWaitTimeout user s) := by
  refine staysOff_of_keptOf ?_
  unfold execRngWaitTimeout
  split
  · rfl
  · extract_lets drop
    have hd : ∀ t, kept (drop t) = kept t := fun t => kept_onRng ..
    clear_value drop
    split
    · rw [keptOf_next, hd, kept_foldl]
      intro t m
      split <;> simp
    · simp [hd]
    · (repeat' split) <;> simp [hd]
    · simp [hd]
theorem staysOff_execAnswerRequest {serial id : Nat} {s : State} : StaysOff s (execAnswerRequest serial id s) := by
  refine staysOff_of_keptOf ?_
  have hk := kept_takeRequest ([1, 0] ++ le16 serial ++ le32 id ++ zeroBytes 8) s
  unfold execAnswerRequest
  generalize takeRequest ([1, 0] ++ le16 serial ++ le32 id ++ zeroBytes 8) s = q at hk ⊢
  obtain ⟨_ | a, t⟩ := q <;> replace hk : kept t = _ := hk <;> dsimp only
  · simp [hk]
  · (repeat' split) <;> simp [hk]
theorem staysOff_execVerdict {address : Word} {s : State} : StaysOff s (execVerdict address s) := by
  refine staysOff_of_keptOf ?_
  have hk := kept_takeRequest ([3, 0, 0, 0] ++ le32 address.toNat ++ zeroBytes 8) s
  unfold execVerdict
  generalize takeRequest ([3, 0, 0, 0] ++ le32 address.toNat ++ zeroBytes 8) s = q at hk ⊢
  obtain ⟨_ | a, t⟩ := q <;> replace hk : kept t = _ := hk <;> dsimp only
  · simp [hk]
  · split <;> simp [hk]
theorem staysOff_execTransmitRequest {buffer preamble start : Nat} {s : State} : StaysOff s (execTransmitRequest buffer preamble start s) := by
  refine staysOff_of_keptOf ?_
  have hk := kept_takeRequest ([2, byte buffer, byte preamble, 0] ++ le48 start ++ zeroBytes 6) s
  unfold execTransmitRequest
  generalize takeRequest ([2, byte buffer, byte preamble, 0] ++ le48 start ++ zeroBytes 6) s = q at hk ⊢
  obtain ⟨_ | a, t⟩ := q <;> replace hk : kept t = _ := hk <;> dsimp only
  · simp [hk]
  · split
    · simp only [keptOf_ite, keptOf_next, kept_refuseTx, kept_transmitDone, kept_txRequest, kept_onExt, kept_ite, kept_advanceTo, ite_self, hk]
    · simp [hk]
theorem staysOff_execRecordToHostRing {src : Nat} {s : State} : StaysOff s (execRecordToHostRing src s) := by
  refine staysOff_of_keptOf ?_
  unfold execRecordToHostRing
  split
  · rfl
  · split
    · rfl
    · next r u hu => simp [kept_takeRecord _ _ _ hu]
theorem staysOff_execEnvelopeVerifyDone {s : State} : StaysOff s (execEnvelopeVerifyDone s) := by
  unfold execEnvelopeVerifyDone
  split
  · split <;> exact staysOff_next (by simp)
  · exact staysOff_next rfl
theorem staysOff_execRngBlockReady {n : Nat} {x : Bytes} {s : State} : StaysOff s (execRngBlockReady n x s) := by
  unfold execRngBlockReady
  split
  · exact staysOff_next rfl
  · by_cases hb : s.rng.test.getLsbD 0 <;> simp only [hb] <;> exact staysOff_next (by simp)
theorem staysOff_execInterrupt {line : Nat} {s : State} (h : IsOff s) : StaysOff s (execInterrupt line s) := by
  unfold execInterrupt
  split
  · exact staysOff_next rfl
  · extract_lets u
    have hk : (kept u).off = (kept s).off := kept_onCore_off ..
    obtain ⟨-, -, -, -, -, -, -, -, hco, -⟩ := ((isOff_congr hk).2 h).idle
    rw [if_neg (by simp [hco])]
    exact staysOff_next hk
theorem staysOff_execCcWatchdogWarning {s : State} (h : IsOff s) : StaysOff s (execCcWatchdogWarning s) := by
  unfold execCcWatchdogWarning
  extract_lets u
  have hk : (kept u).off = (kept s).off := kept_onCore_off ..
  obtain ⟨-, -, -, -, -, -, -, -, hco, -⟩ := ((isOff_congr hk).2 h).idle
  rw [if_neg (by simp [hco])]
  exact staysOff_next hk
theorem execTamperTrip_off {n : Nat} {s : State} (h : IsOff s) : execTamperTrip n s = next s := by
  obtain ⟨-, hp, -, -, -⟩ := (isOff_iff s).1 h
  simp [execTamperTrip, hp]
theorem staysOff_execDebugHalt {c : CoreId} {s : State} (h : IsOff s) : StaysOff s (execDebugHalt c s) := by
  unfold execDebugHalt
  split
  · exact staysOff_of_eq (execTamperTrip_off h)
  · split <;> exact staysOff_next (by simp)
theorem staysOff_execDebugResume {c : CoreId} {s : State} (h : IsOff s) : StaysOff s (execDebugResume c s) := by
  unfold execDebugResume
  split
  · exact staysOff_of_eq (execTamperTrip_off h)
  · exact staysOff_next (by simp)
theorem staysOff_execHeartbeat {seq tick : Nat} {temp : Int} {power cls last : Nat} {ok : Bool} {ovf : Nat} {s : State} (h : IsOff s) :
    StaysOff s (execHeartbeat seq tick temp power cls last ok ovf s) := by
  have hk : (kept (queueOverflow 7 ovf s)).off = (kept s).off := by simp
  obtain ⟨-, -, -, -, hll, -⟩ := ((isOff_congr hk).2 h).idle
  rw [execHeartbeat, recvBlock, if_pos (by simp [hll])]
  exact staysOff_next hk
theorem staysOff_execPairWake {s : State} (h : IsOff s) : StaysOff s (execPairWake s) := by
  unfold execPairWake
  split
  · exact staysOff_of_eq (congrArg next (leaveNeap_off h))
  · exact staysOff_next rfl
theorem staysOff_execHoldMeasureEnd {step fall : Nat} {s : State} : StaysOff s (execHoldMeasureEnd step fall s) := by
  unfold execHoldMeasureEnd
  split
  · exact staysOff_next rfl
  · exact staysOff_next (by simp)
theorem staysOff_execSupplyMonitorCrossing {m : Monitor} {mv : Nat} {s : State} : StaysOff s (execSupplyMonitorCrossing m mv s) := by
  refine staysOff_next ?_
  cases m <;> simp
theorem staysOff_execXtal32Qualified {s : State} : StaysOff s (execXtal32Qualified s) := by
  unfold execXtal32Qualified
  split
  · exact staysOff_next rfl
  · exact staysOff_next (by simp)
theorem staysOff_execXtal32Absent {s : State} : StaysOff s (execXtal32Absent s) := by
  unfold execXtal32Absent
  split
  · exact staysOff_next rfl
  · exact staysOff_next (by simp)
theorem staysOff_execXtal32Fail {s : State} : StaysOff s (execXtal32Fail s) := by
  unfold execXtal32Fail
  split
  · exact staysOff_next rfl
  · exact staysOff_next (by simp)

/-! ### Every row but POWER_ON -/

theorem staysOff_exec {i : Instr} {s : State} (h : IsOff s) (hi : ∀ a b, i ≠ .powerOn a b) : StaysOff s (exec i s) := by
  obtain ⟨hrun, hst, haw, hcc, hll, hse, hwa, hri, hco, hca⟩ := h.idle
  obtain ⟨hs, hp, hr, hn, hna⟩ := (isOff_iff s).1 h
  cases i with
  | caps | ping | secureOpen | secureConfirm | sysStatus | powerRequest | resetCause | sysReset | paramGet | paramSet | strandedExit
  | faultList | lfBurst | lfChannelStatus | lfChannelEnable | lfSounding | zoneWrite | zoneRead | synthGroupWrite | couplingRead
  | zoneState | tokenLearn | tokenRevoke | tokenRead | uwbPortStatus | uwbReflectometry | rangingStatus | pathStart | sessionEnd
  | sessionStatus | transponderStart | startWithdraw | doorMapWrite | radioStatus | powerTableWrite | regRecordWrite | regRecordRead
  | radioCalRun | radioTestTx | senseStatus | wakeMapWrite | contactStatus | senseRebase | evtFetch | logRead | logCheckpoint | storeStatus
  | stageWrite | fwActivate | grantApply | attest | objectRead | tamperStatus | tamperMapWrite | pairStatus | pairSwitchover | pairAdmit
  | pluginLoad | pluginUnload | extStatus | soundingRun | erosionRead | busStatus | gpioConfig | gpioWrite | gpioRead => exact staysOff_of_eq (congrArg next (runCmd_of_not_running hrun))
  | yield | handover | mirror | mirrorAcknowledge | counterCommitRequest | counterCommitAcknowledge | triggerForward | breachBlock
  | tamperStrandedBlock | attestationReport | stateTransfer => exact staysOff_of_eq (if_pos (by simp [hll]))
  | addi | andi | ori | xori | cmplti | cmpltiu | movu | leapc | lb | lbu | lh | lhu | lw | sb | sh | sw | beq | bne | blt | bge | bltu
  | bgeu | jlnk | jlnkr | add | sub | and | or | xor | sll | srl | sra | cmplt | cmpltu | neg | addsat | subsat | negsat | mul | mulhs
  | mulhu | divs | divu | rems | remu | srvc | brkpt | tret | idle | rdstatus | wrstatus | rdcause | rdtval | rdtpc | wrtpc | rdcycle
  | rdcycleh => exact staysOff_of_eq (if_pos (by simp [hco]))
  | timerArm | timerStop | timerCompareWrite | timerCaptureRead | registerWrite => exact staysOff_of_eq (congrArg _ (if_neg (by simp [hcc, hst])))
  | resetRelease | firmwareStart | mailboxReady | vholdCharged | overvoltageTrip | watchdogExpiry | isthmusTransferFail | xtal26Fail
  | xtal26Recovered | slowPeriodMeasure | tideCorrection | tideSlewStep | tideWrap | floodIdleExpiry | slackIdleExpiry | neapEntryDone
  | spiCsAssert | ctlResend | ctlEvtAck | pathBegin | lfBurstBegin | offStateScan | soundingChannelDone | autoSounding | keepFreshRefresh
  | lfDutyBinRoll | locatePoll | pluginFrameReceived | zonePeriodDecision | reflectometryAuto | reflectometryPortDone | uwbSelftestFail
  | releaseFrameTimeout | engineStatus | runInputConfirmed | startOutputCheck | startOutputFault | radioTxRequest | radioDutyBinRoll
  | reclaim | scrub | timerCapture | causewayLock | negotiate | partnerAbsentTimeout | heartbeatSend | heartbeatMiss | pairAliveToggle
  | resendRequest | signalLineFault | erosionSample | doorStatusFrame | doorStatusTimeout | busOff | busRecovered | busFault
  | linStatusPoll | linStatus | railsWithinLimits | noiseSourcesStart => exact staysOff_of_eq (if_pos (by simp [hs, hp, hrun, hst, haw, hcc, hll]))
  | isthmusWatchdogExpiry => exact staysOff_of_keptOf (keptOf_execIsthmusWatchdogExpiry _)
  | spiWriteFrame => exact staysOff_of_keptOf (keptOf_execSpiWriteFrame _ _ _)
  | seqGapHoldoffEnd => exact staysOff_of_keptOf (keptOf_execSeqGapHoldoffEnd _ _ _)
  | isotpFirstFrame => exact staysOff_of_keptOf (keptOf_execIsotpFirstFrame _ _ _ _)
  | isotpWaitTimer => exact staysOff_of_keptOf (keptOf_execIsotpWaitTimer _ _)
  | isotpNCrTimeout => exact staysOff_of_keptOf (keptOf_execIsotpNCrTimeout _ _)
  | secureOpenExpiry => exact staysOff_of_keptOf (keptOf_execSecureOpenExpiry _ _)
  | authStormHoldEnd => exact staysOff_of_keptOf (keptOf_execAuthStormHoldEnd _ _)
  | pathDeadlineExpiry => exact staysOff_of_keptOf (keptOf_execPathDeadlineExpiry _)
  | lfBurstEnd => exact staysOff_of_keptOf (keptOf_execLfBurstEnd _ _ _ _ _)
  | lfValidationDone => exact staysOff_of_keptOf (keptOf_execLfValidationDone _)
  | lfDriveFault => exact staysOff_of_keptOf (keptOf_execLfDriveFault _ _ _)
  | slotEnd => exact staysOff_of_keptOf (keptOf_execSlotEnd _ _ _ _)
  | answerReceived => exact staysOff_of_keptOf (keptOf_execAnswerReceived _ _ _ _ _)
  | proofReceived => exact staysOff_of_keptOf (keptOf_execProofReceived _ _ _)
  | proofTimeout => exact staysOff_of_keptOf (keptOf_execProofTimeout _)
  | locateReportReceived => exact staysOff_of_keptOf (keptOf_execLocateReportReceived _ _ _)
  | pathZoneDecision => exact staysOff_of_keptOf (keptOf_execPathZoneDecision _)
  | rangingRoundStart => exact staysOff_of_keptOf (keptOf_execRangingRoundStart _ _ _)
  | uwbResponseReceived => exact staysOff_of_keptOf (keptOf_execUwbResponseReceived _ _ _ _ _ _ _)
  | uwbReportReceived => exact staysOff_of_keptOf (keptOf_execUwbReportReceived _ _ _)
  | rangingRoundEnd => exact staysOff_of_keptOf (keptOf_execRangingRoundEnd _ _ _)
  | pathEnd => exact staysOff_of_keptOf (keptOf_execPathEnd _)
  | doorTimeout => exact staysOff_of_keptOf (keptOf_execDoorTimeout _ _ _)
  | startTimeout => exact staysOff_of_keptOf (keptOf_execStartTimeout _)
  | gpioPulseEnd => exact staysOff_of_keptOf (keptOf_execGpioPulseEnd _ _)
  | releaseRepeat => exact staysOff_of_keptOf (keptOf_execReleaseRepeat _)
  | tpChargeEnd => exact staysOff_of_keptOf (keptOf_execTpChargeEnd _)
  | tpOpenCheck => exact staysOff_of_keptOf (keptOf_execTpOpenCheck _ _)
  | tpIdentReceived => exact staysOff_of_keptOf (keptOf_execTpIdentReceived _ _)
  | tpResponseReceived => exact staysOff_of_keptOf (keptOf_execTpResponseReceived _ _)
  | tpSyncTimeout => exact staysOff_of_keptOf (keptOf_execTpSyncTimeout _)
  | radioBgCalStep => exact staysOff_of_keptOf (keptOf_execRadioBgCalStep _ _)
  | radioCalStepDone => exact staysOff_of_keptOf (keptOf_execRadioCalStepDone _ _ _)
  | hopLockFail => exact staysOff_of_keptOf (keptOf_execHopLockFail _ _)
  | radioPacketEnd => exact staysOff_of_keptOf (keptOf_execRadioPacketEnd _ _ _)
  | radioTestTxEnd => exact staysOff_of_keptOf (keptOf_execRadioTestTxEnd _ _ _)
  | tunerAcquire => exact staysOff_of_keptOf (keptOf_execTunerAcquire _ _ _)
  | coexGrantAssert => exact staysOff_of_keptOf (keptOf_execCoexGrantAssert _)
  | coexGrantNegate => exact staysOff_of_keptOf (keptOf_execCoexGrantNegate _)
  | coexWaitExpiry => exact staysOff_of_keptOf (keptOf_execCoexWaitExpiry _)
  | baselineDrift => exact staysOff_of_keptOf (keptOf_execBaselineDrift _ _)
  | maxTouchExpiry => exact staysOff_of_keptOf (keptOf_execMaxTouchExpiry _ _)
  | stuckTimeout => exact staysOff_of_keptOf (keptOf_execStuckTimeout _ _)
  | tamperHoldEnd => exact staysOff_of_keptOf (keptOf_execTamperHoldEnd _ _)
  | serviceExpiry => exact staysOff_of_keptOf (keptOf_execServiceExpiry _)
  | signatureDone => exact staysOff_of_keptOf (keptOf_execSignatureDone _)
  | counterWriteRetry => exact staysOff_of_keptOf (keptOf_execCounterWriteRetry _)
  | rngStartupTestPass => exact staysOff_of_keptOf (keptOf_execRngStartupTestPass _ _)
  | rngHealthFail => exact staysOff_of_keptOf (keptOf_execRngHealthFail _ _ _)
  | rngNoBlockTimeout => exact staysOff_of_keptOf (keptOf_execRngNoBlockTimeout _)
  | rngFatalRestart => exact staysOff_of_keptOf (keptOf_execRngFatalRestart _)
  | rngDataRead => exact staysOff_of_keptOf (keptOf_execRngDataRead _ _)
  | rngReseedRequest => exact staysOff_of_keptOf (keptOf_execRngReseedRequest _ _)
  | rngFlush => exact staysOff_of_keptOf (keptOf_execRngFlush _ _)
  | rngTestWrite => exact staysOff_of_keptOf (keptOf_execRngTestWrite _ _)
  | storeWriteBegin => exact staysOff_of_keptOf (keptOf_execStoreWriteBegin _)
  | storeCopyDone => exact staysOff_of_keptOf (keptOf_execStoreCopyDone _)
  | storeDeferredRetry => exact staysOff_of_keptOf (keptOf_execStoreDeferredRetry _)
  | pageEraseDone => exact staysOff_of_keptOf (keptOf_execPageEraseDone _ _ _)
  | pairCommitTimeout => exact staysOff_of_keptOf (keptOf_execPairCommitTimeout _)
  | pluginStepEnd => exact staysOff_of_keptOf (keptOf_execPluginStepEnd _)
  | fxLookup => exact staysOff_of_keptOf (keptOf_execFxLookup _ _)
  | aesEncrypt => exact staysOff_of_keptOf (keptOf_execAesEncrypt _)
  | aesDecrypt => exact staysOff_of_keptOf (keptOf_execAesDecrypt _)
  | aesCmac => exact staysOff_of_keptOf (keptOf_execAesCmac _)
  | aesCmacDkey => exact staysOff_of_keptOf (keptOf_execAesCmacDkey _ _)
  | switchoverTimeout => exact staysOff_of_keptOf (keptOf_execSwitchoverTimeout _)
  | admitTimeout => exact staysOff_of_keptOf (keptOf_execAdmitTimeout _)
  | faultHandlingDone => exact staysOff_of_keptOf (keptOf_execFaultHandlingDone _)
  | wakeNNegate => exact staysOff_of_keptOf (keptOf_execWakeNNegate _)
  | tamperSensorClear => exact staysOff_of_keptOf (keptOf_execTamperSensorClear _ _)
  | zoneDropAgeExpiry => exact staysOff_of_keptOf (keptOf_execZoneDropAgeExpiry _ _)
  | powerOn => exact absurd rfl (hi _ _)
  | hello => exact staysOff_of_eq ((if_neg (by simp [hrun])).trans (congrArg next (runCmd_of_not_running hrun)))
  | railFault => exact staysOff_of_eq (by simp only [exec_railFault, execRailFault, hp]; split <;> rfl)
  | vbatLoss => exact staysOff_execVbatLoss h
  | vbatReturn => exact staysOff_execVbatReturn h
  | rideThroughExpiry => exact staysOff_of_eq (by simp [execRideThroughExpiry, hr])
  | vholdFloor => exact staysOff_execVholdFloor h
  | resetNAssert => exact staysOff_of_eq (by simp [execResetNAssert, resetBy_off h])
  | hostReset => exact staysOff_of_eq (by simp [execHostReset, resetBy_off h])
  | spiReadFrame => exact staysOff_execSpiReadFrame h
  | spiStatusOnly => exact staysOff_execSpiStatusOnly h
  | isotpNBsTimeout => exact staysOff_execIsotpNBsTimeout h
  | transportTrialExpiry => exact staysOff_of_eq (by simp only [exec_transportTrialExpiry, execTransportTrialExpiry, hst]; split <;> rfl)
  | responseWindowOpen => exact staysOff_execResponseWindowOpen
  | renewalBurstDue => exact staysOff_of_eq (by simp only [exec_renewalBurstDue, execRenewalBurstDue, haw]; split <;> rfl)
  | strikeExpiry => exact staysOff_of_eq (by simp only [exec_strikeExpiry, execStrikeExpiry, hst]; split <;> rfl)
  | checkpointBegin => exact staysOff_of_eq (by simp only [exec_checkpointBegin, execCheckpointBegin, hst]; split <;> rfl)
  | timerWake => exact staysOff_of_eq (by simp only [exec_timerWake, execTimerWake, hs]; split <;> rfl)
  | envelopeVerifyDone => exact staysOff_execEnvelopeVerifyDone
  | rngBlockReady => exact staysOff_execRngBlockReady
  | rngWaitTimeout => exact staysOff_execRngWaitTimeout
  | answerRequest => exact staysOff_execAnswerRequest
  | transmitRequest => exact staysOff_execTransmitRequest
  | verdict => exact staysOff_execVerdict
  | recordToHostRing => exact staysOff_execRecordToHostRing
  | interrupt => exact staysOff_execInterrupt h
  | ccWatchdogWarning => exact staysOff_execCcWatchdogWarning h
  | tamperTrip => exact staysOff_of_eq (execTamperTrip_off h)
  | isotpSingleFrame => exact staysOff_of_eq ((if_neg (by simp [overhears, hrun])).trans (if_pos (by simp [hca])))
  | isotpConsecutiveFrame => exact staysOff_of_eq (if_pos (by simp [overhears, hrun, hca]))
  | isotpFlowControl => exact staysOff_of_eq (by simp only [exec_isotpFlowControl, execIsotpFlowControl, hca]; split <;> rfl)
  | rangingBurstBegin => exact staysOff_of_eq (by simp only [exec_rangingBurstBegin, execRangingBurstBegin, hrun]; split; rfl; simp)
  | scan | confirmConversion => exact staysOff_of_eq (if_pos (by simp [hse]))
  | contactChange | wakeNAssert | linWake => exact staysOff_of_eq (if_pos (by simp [hwa]))
  | canWake => exact staysOff_of_eq (if_pos (by simp [busWakeable, hwa]))
  | storeWriteCommit => exact staysOff_of_eq (by simp only [exec_storeWriteCommit, execStoreWriteCommit, writerRuns, hp]; split <;> simp)
  | timerMatch | timerEnd => exact staysOff_of_eq (if_neg (by simp [hcc]))
  | slli | srli | srai => exact staysOff_of_eq ((ite_congr rfl (fun _ => if_pos (by simp [hco])) (fun _ => if_pos (by simp [hco]))).trans (ite_self _))
  | illegalInstruction => exact staysOff_of_eq ((ite_congr rfl (fun _ => rfl) (fun _ => if_pos (by simp [hco]))).trans (ite_self _))
  | extInvocationBegin => exact staysOff_of_eq (by simp only [exec_extInvocationBegin, execExtInvocationBegin, hrun]; split <;> rfl)
  | extWatchdog => exact staysOff_of_eq (if_pos (by simp [hco]))
  | aesBusyRead | aesOpDone => exact staysOff_next (by simp)
  | heartbeat => exact staysOff_execHeartbeat h
  | attestationRequest => exact staysOff_of_eq (if_pos (by simp [hll]))
  | pairWake => exact staysOff_execPairWake h
  | debugHalt => exact staysOff_execDebugHalt h
  | debugResume => exact staysOff_execDebugResume h
  | holdMeasureEnd => exact staysOff_execHoldMeasureEnd
  | supplyMonitorCrossing => exact staysOff_execSupplyMonitorCrossing
  | xtal32Qualified => exact staysOff_execXtal32Qualified
  | xtal32Absent => exact staysOff_execXtal32Absent
  | xtal32Fail => exact staysOff_execXtal32Fail
/-! ### The invariant -/

theorem unpowered_of_isOff {s t : State} (hs : Unpowered s) (hk : (kept t).off = (s.pending.tail, some (.none, none, false, false))) :
    Unpowered t ∧ t.pending = s.pending.tail := by
  obtain ⟨-, -, -, -, -, hq⟩ := hs
  have hp : t.pending = s.pending.tail := congrArg Prod.fst hk
  obtain ⟨h1, h2, h3, h4, h5⟩ := (isOff_iff t).1 (congrArg Prod.snd hk)
  exact ⟨⟨h1, h2, h3, h4, h5, fun a b hm => hq a b (List.mem_of_mem_tail (hp ▸ hm))⟩, hp⟩

/-- Settles O3: what an unpowered machine must keep of its supplies and its queue is kept by the idle step and by every row but POWER_ON. -/
theorem offStaysOff : Obligations.OffStaysOff := by
  unfold Obligations.OffStaysOff
  intro s t hs hstep
  obtain ⟨h1, h2, h3, h4, h5, hq⟩ := hs
  have h : IsOff s := (isOff_iff s).2 ⟨h1, h2, h3, h4, h5⟩
  refine unpowered_of_isOff ⟨h1, h2, h3, h4, h5, hq⟩ ?_
  cases hl : s.pending with
  | nil =>
    rw [step_nil s hl] at hstep
    obtain rfl := Host.Outcome.next.inj hstep
    exact (kept_idle_off h).trans (Prod.ext hl h)
  | cons c l =>
    rw [step_cons s c l hl] at hstep
    have hc : ∀ a b, c ≠ .powerOn a b := fun a b hc => hq a b (by simp [hl, hc])
    exact (staysOff_exec (s := { s with pending := l }) h hc t hstep).trans (Prod.ext rfl h)

end Sys2Proof.Machine
end

section
/-! Halts: what withdraws the outputs, what a Breach leaves, and a member that becomes Lee (O41, O48, O53, O56). -/

namespace Sys2Proof.Machine
open Sys2Proof

/-- What a halt of the part withdraws or must not touch: the start outputs, the field, the transmission, the ranging sessions, the vault, the
fuses, the DRBG, whether a path stands, the extension core's step and the pins' functions. -/
structure Outs where
  start : Bool × Bool
  burst : Option Burst
  queued : Option Burst
  tx : Option Tx
  sessions : List RSess
  keys : List Vault × Nat × Option Drbg
  path : Bool
  step : Option (Nat × Nat × Nat × Nat)
  functions : List Nat
def outs (s : State) : Outs :=
  ⟨(s.rel.startA, s.rel.startB), s.lf.cur, s.lf.queued, s.rad.tx, s.uwb.sessions, (s.sec.vault, s.sec.breachFuses, s.rng.drbg), s.path.isSome, s.ext.step,
    s.bus.pins.map (·.function)⟩

@[simp] theorem outs_ite (c : Prop) [Decidable c] (a b : State) : outs (if c then a else b) = if c then outs a else outs b := apply_ite ..
@[simp] theorem outs_foldl {α : Type} {f : State → α → State} (h : ∀ s x, outs (f s x) = outs s) (l : List α) (s : State) : outs (l.foldl f s) = outs s :=
  foldl_keeps outs h l s
@[simp] theorem outs_onClk (s : State) (f : Clk → Clk) : outs (s.onClk f) = outs s := (rfl)
@[simp] theorem outs_onPwr (s : State) (f : Pwr → Pwr) : outs (s.onPwr f) = outs s := (rfl)
@[simp] theorem outs_onEvt (s : State) (f : Evt → Evt) : outs (s.onEvt f) = outs s := (rfl)
@[simp] theorem outs_onFlt (s : State) (f : Flt → Flt) : outs (s.onFlt f) = outs s := (rfl)
@[simp] theorem outs_onPar (s : State) (f : Par → Par) : outs (s.onPar f) = outs s := (rfl)
@[simp] theorem outs_onZon (s : State) (f : Zon → Zon) : outs (s.onZon f) = outs s := (rfl)
@[simp] theorem outs_onSen (s : State) (f : Sen → Sen) : outs (s.onSen f) = outs s := (rfl)
@[simp] theorem outs_onStore (s : State) (f : Store → Store) : outs (s.onStore f) = outs s := (rfl)
@[simp] theorem outs_onPair (s : State) (f : Pair → Pair) : outs (s.onPair f) = outs s := (rfl)
@[simp] theorem outs_onRel (s : State) (f : Rel → Rel) (h : ∀ x, (f x).startA = x.startA ∧ (f x).startB = x.startB) : outs (s.onRel f) = outs s := by
  simp [outs, h]
@[simp] theorem outs_onLf (s : State) (f : Lf → Lf) (h : ∀ x, (f x).cur = x.cur ∧ (f x).queued = x.queued) : outs (s.onLf f) = outs s := by
  simp [outs, h]
@[simp] theorem outs_onRad (s : State) (f : Rad → Rad) (h : ∀ x, (f x).tx = x.tx) : outs (s.onRad f) = outs s := by
  simp [outs, h]
@[simp] theorem outs_onUwb (s : State) (f : Uwb → Uwb) (h : ∀ x, (f x).sessions = x.sessions) : outs (s.onUwb f) = outs s := by
  simp [outs, h]
@[simp] theorem outs_onSec (s : State) (f : Sec → Sec) (h : ∀ x, (f x).vault = x.vault ∧ (f x).breachFuses = x.breachFuses) : outs (s.onSec f) = outs s := by
  simp [outs, h]
@[simp] theorem outs_onRng (s : State) (f : Rng → Rng) (h : ∀ x, (f x).drbg = x.drbg) : outs (s.onRng f) = outs s := by
  simp [outs, h]
@[simp] theorem outs_onExt (s : State) (f : Ext → Ext) (h : ∀ x, (f x).step = x.step) : outs (s.onExt f) = outs s := by
  simp [outs, h]
@[simp] theorem outs_onBus (s : State) (f : Buses → Buses) (h : ∀ x, (f x).pins = x.pins) : outs (s.onBus f) = outs s := by
  simp [outs, h]
@[simp] theorem outs_onBox (s : State) (m : Bool) (f : Mbx → Mbx) : outs (s.onBox m f) = outs s := by cases m <;> rfl
@[simp] theorem outs_onPath (s : State) (f : Path → Path) : outs (s.onPath f) = outs s := by simp [outs, State.onPath]
@[simp] theorem outs_with_wasOpen (s : State) (x : Bool × Bool) : outs { s with wasOpen := x } = outs s := (rfl)
@[simp] theorem outs_with_ero (s : State) (x : List Erode) : outs { s with ero := x } = outs s := (rfl)
@[simp] theorem outs_with_timers (s : State) (x : List Timer) : outs { s with timers := x } = outs s := (rfl)
@[simp] theorem outs_with_awaited (s : State) (x : List (Nat × Nat × Nat × Bool)) : outs { s with awaited := x } = outs s := (rfl)
@[simp] theorem outs_with_xc (s : State) (x : Core) : outs { s with xc := x } = outs s := (rfl)
@[simp] theorem outs_with_cc (s : State) (x : Core) : outs { s with cc := x } = outs s := (rfl)
@[simp] theorem outs_with_soundRun (s : State) (x : Option SoundRun) : outs { s with soundRun := x } = outs s := (rfl)
@[simp] theorem outs_with_eroAt (s : State) (x : Nat) : outs { s with eroAt := x } = outs s := (rfl)
@[simp] theorem outs_with_clk (s : State) (x : Clk) : outs { s with clk := x } = outs s := (rfl)
@[simp] theorem outs_with_evt (s : State) (x : Evt) : outs { s with evt := x } = outs s := (rfl)
@[simp] theorem outs_with_flt (s : State) (x : Flt) : outs { s with flt := x } = outs s := (rfl)
@[simp] theorem outs_with_par (s : State) (x : Par) : outs { s with par := x } = outs s := (rfl)
@[simp] theorem outs_with_raised (s : State) (x : List (Nat × Nat)) : outs { s with raised := x } = outs s := (rfl)
@[simp] theorem outs_with_free (s : State) (x : Nat) : outs { s with free := x } = outs s := (rfl)
@[simp] theorem outs_with_lastAuth (s : State) (x : List (Nat × Nat)) : outs { s with lastAuth := x } = outs s := (rfl)
theorem canPut_pins (f : CanFrame) (b : Buses) : (canPut f b).pins = b.pins := by
  unfold canPut
  split <;> rfl
theorem modAt_function {pins : List Pin} {k : Nat} {g : Pin → Pin} (h : ∀ p, (g p).function = p.function) :
    (modAt pins k g).map (·.function) = pins.map (·.function) := by
  induction pins generalizing k with
  | nil => rfl
  | cons p l ih => cases k <;> simp [modAt, h, ih]

/-! ### Operations that leave it -/

@[simp] theorem outs_boundary (b : Bound) (s : State) : outs (boundary b s) = outs s := (rfl)
@[simp] theorem outs_drawFree (s : State) : outs (drawFree s).2 = outs s := (rfl)
@[simp] theorem outs_queueJob (j : Job) (s : State) : outs (queueJob j s) = outs s := (rfl)
@[simp] theorem outs_erodeAdd (item inst : Nat) (x : Int) (s : State) : outs (erodeAdd item inst x s) = outs s := by unfold erodeAdd; simp
@[simp] theorem outs_wires (s : State) : outs (wires s) = outs s := (rfl)
@[simp] theorem outs_backlogPush (pinned : Bool) (entry : Bytes) (s : State) : outs (backlogPush pinned entry s) = outs s := (rfl)
@[simp] theorem outs_handleFault (code cls : Nat) (s : State) : outs (handleFault code cls s).2 = outs s := by
  unfold handleFault
  (repeat' split) <;> simp
@[simp] theorem outs_holdFault (src code cls seq : Nat) (inst : Bytes) (s : State) : outs (holdFault src code cls seq inst s) = outs s := by unfold holdFault; simp
@[simp] theorem outs_dropFault (code : Nat) (inst : Bytes) (s : State) : outs (dropFault code inst s) = outs s := (rfl)
@[simp] theorem outs_stampFor (src found : Nat) (s : State) : outs (stampFor src found s).2.2 = outs s := (rfl)
@[simp] theorem outs_flushLost (src : Nat) (s : State) : outs (flushLost src s) = outs s := by unfold flushLost; split <;> simp
@[simp] theorem outs_placeRecord (r : EvRec) (s : State) : outs (placeRecord r s) = outs s := (rfl)
@[simp] theorem outs_raiseX (code cls : Nat) (params : Bytes) (o : EvOpt) (s : State) : outs (raiseX code cls params o s) = outs s := by unfold raiseX; simp
@[simp] theorem outs_emitX (code cls : Nat) (params : Bytes) (o : EvOpt) (s : State) : outs (emitX code cls params o s) = outs s := by unfold emitX; simp
@[simp] theorem outs_emit (code cls : Nat) (params : Bytes) (s : State) : outs (emit code cls params s) = outs s := by unfold emit; simp
@[simp] theorem outs_emitF (code cls : Nat) (inst params : Bytes) (s : State) : outs (emitF code cls inst params s) = outs s := by unfold emitF; simp
@[simp] theorem outs_emitC (code cls : Nat) (inst params : Bytes) (s : State) : outs (emitC code cls inst params s) = outs s := by unfold emitC; simp
@[simp] theorem outs_emitT (tag : Option Nat) (code cls : Nat) (params : Bytes) (s : State) : outs (emitT tag code cls params s) = outs s := by unfold emitT; simp
@[simp] theorem outs_onExtMem (f : List Host.Cell → List Host.Cell) (s : State) : outs (onExtMem f s) = outs s := (rfl)
@[simp] theorem outs_onSlot (i : Nat) (f : Slot → Slot) (s : State) : outs (onSlot i f s) = outs s := (rfl)
@[simp] theorem outs_queueInvoc (v : Invoc) (s : State) : outs (queueInvoc v s).2 = outs s := by unfold queueInvoc; split <;> simp
@[simp] theorem outs_eraseVol (s : State) : outs (eraseVol s) = outs s := (rfl)
@[simp] theorem outs_sendFlagged (flags type : Nat) (payload : Bytes) (s : State) : outs (sendFlagged flags type payload s) = outs s := by unfold sendFlagged; simp
@[simp] theorem outs_sendBlock (type : Nat) (payload : Bytes) (s : State) : outs (sendBlock type payload s) = outs s := by unfold sendBlock; simp
@[simp] theorem outs_mirror (items : List MirrorItem) (s : State) : outs (mirror items s) = outs s := by unfold mirror; simp
@[simp] theorem outs_askCommit (id value : Nat) (s : State) : outs (askCommit id value s) = outs s := by unfold askCommit; simp
@[simp] theorem outs_boundaryM (b : Bound) (s : State) : outs (boundaryM b s) = outs s := by unfold boundaryM; simp
@[simp] theorem outs_mirrorSessions (ended : List Nat) (s : State) : outs (mirrorSessions ended s) = outs s := by unfold mirrorSessions; simp
@[simp] theorem outs_mirrorLink (s : State) : outs (mirrorLink s) = outs s := by unfold mirrorLink; simp
@[simp] theorem outs_closeSecure (member : Bool) (reason : Nat) (s : State) : outs (closeSecure member reason s) = outs s := by
  unfold closeSecure
  extract_lets b waiting live u v
  have hu : outs u = outs s := outs_onBox ..
  have hv : outs v = outs s := by
    unfold v
    split <;> exact hu
  split
  · rfl
  · refine (outs_emit ..).trans ?_
    split
    · exact hv
    · exact (outs_mirrorLink ..).trans hv
@[simp] theorem outs_rekeyDue (member : Bool) (space seq : Nat) (s : State) : outs (rekeyDue member space seq s) = outs s := by unfold rekeyDue; simp
@[simp] theorem outs_takeSeq (member : Bool) (space : Nat) (s : State) : outs (takeSeq member space s).2 = outs s := by
  unfold takeSeq
  dsimp only
  (repeat' split) <;> simp
@[simp] theorem outs_sendResponse (flags : Nat) (fin : Bool) (ref : CmdRef) (status : Nat) (fields : Bytes) (s : State) : outs (sendResponse flags fin ref status fields s) = outs s := by
  have hk := outs_takeSeq ref.member ref.lane s
  unfold sendResponse
  generalize takeSeq ref.member ref.lane s = p at hk ⊢
  obtain ⟨_ | q, t⟩ := p <;> replace hk : outs t = _ := hk
  · exact hk
  · dsimp only
    split <;> simp [hk]
@[simp] theorem outs_endCommand (retire : Bool) (ref : CmdRef) (s : State) : outs (endCommand retire ref s) = outs s := by unfold endCommand; simp
@[simp] theorem outs_respondWith (flags : Nat) (ref : CmdRef) (status : Nat) (fields : Bytes) (s : State) : outs (respondWith flags ref status fields s) = outs s := by unfold respondWith; simp
@[simp] theorem outs_respond (ref : CmdRef) (status : Nat) (fields : Bytes) (s : State) : outs (respond ref status fields s) = outs s := by unfold respond; simp
@[simp] theorem outs_cmdDone (ref : CmdRef) (status : Nat) (result : Bytes) (s : State) : outs (cmdDone ref status result s) = outs s := by unfold cmdDone; simp
@[simp] theorem outs_cmdDoneO (ref : Option CmdRef) (status : Nat) (result : Bytes) (s : State) : outs (cmdDoneO ref status result s) = outs s := by unfold cmdDoneO; split <;> simp
@[simp] theorem outs_activity (s : State) : outs (activity s) = outs s := (rfl)
@[simp] theorem outs_canSend (f : CanFrame) (s : State) : outs (canSend f s) = outs s := by
  unfold canSend
  simp [canPut_pins]
@[simp] theorem outs_reserveBlock (s : State) : outs (reserveBlock s) = outs s := by
  unfold reserveBlock
  simp
@[simp] theorem outs_takeFresh (s : State) : outs (takeFresh s).2 = outs s := by
  unfold takeFresh
  (repeat' split) <;> simp
@[simp] theorem outs_sendRel (bus ident ver type session permit : Nat) (key : Option Bytes) (s : State) : outs (sendRel bus ident ver type session permit key s) = outs s := by
  have hk := outs_takeFresh s
  unfold sendRel
  split
  · rfl
  · split
    · rfl
    · generalize takeFresh s = p at hk ⊢
      obtain ⟨_ | f, t⟩ := p <;> replace hk : outs t = _ := hk <;> simp [hk]
@[simp] theorem outs_startFrame (permit : Bool) (s : State) : outs (startFrame permit s) = outs s := by unfold startFrame; split <;> simp
@[simp] theorem outs_doorFrames (session : Nat) (s : State) : outs (doorFrames session s) = outs s := by unfold doorFrames; simp
@[simp] theorem outs_linCommand (bus node : Nat) (unlock : Bool) (s : State) : outs (linCommand bus node unlock s) = outs s := by
  have hk := outs_takeFresh s
  unfold linCommand
  generalize takeFresh s = p at hk ⊢
  obtain ⟨_ | f, t⟩ := p <;> replace hk : outs t = _ := hk <;> dsimp only <;> (repeat' split) <;> simp [hk]
@[simp] theorem outs_relPin (pin : Nat) (on : Bool) (s : State) : outs (relPin pin on s) = outs s := by
  simp [outs, relPin, modAt_function]
@[simp] theorem outs_doorLeaves (d : DoorHold) (s : State) : outs (doorLeaves d s) = outs s := by
  unfold doorLeaves
  simp
@[simp] theorem outs_forgetDoorFmt (s : State) : outs (forgetDoorFmt s) = outs s := by unfold forgetDoorFmt; simp
@[simp] theorem outs_closeAccess (id reason : Nat) (tag : Option Nat) (s : State) : outs (closeAccess id reason tag s) = outs s := by unfold closeAccess; split <;> simp
@[simp] theorem outs_onChan (c : Nat) (f : LfChan → LfChan) (s : State) : outs (onChan c f s) = outs s := (rfl)
@[simp] theorem outs_addEth (uj : Nat) (s : State) : outs (addEth uj s) = outs s := (rfl)
@[simp] theorem outs_settleEth (s : State) : outs (settleEth s) = outs s := by unfold settleEth; simp
@[simp] theorem outs_addLfDuty (ms : Nat) (s : State) : outs (addLfDuty ms s) = outs s := (rfl)
@[simp] theorem outs_addDrive (a b : Nat) (s : State) : outs (addDrive a b s) = outs s := (rfl)
@[simp] theorem outs_setLfDiag (c bit : Nat) (s : State) : outs (setLfDiag c bit s) = outs s := by unfold setLfDiag; simp
@[simp] theorem outs_clrLfDiag (c bit : Nat) (s : State) : outs (clrLfDiag c bit s) = outs s := by unfold clrLfDiag; simp
@[simp] theorem outs_clrDriveDiags (c : Nat) (s : State) : outs (clrDriveDiags c s) = outs s := by unfold clrDriveDiags; simp
@[simp] theorem outs_retune (s : State) : outs (retune s) = outs s := by
  refine (outs_foldl (fun s c => ?_) _ _).trans (outs_onLf _ _ (fun _ => ⟨rfl, rfl⟩))
  split <;> simp
@[simp] theorem outs_modelCommit (s : State) : outs (modelCommit s) = outs s := by unfold modelCommit; simp
@[simp] theorem outs_applyEnable (c : Nat) (on : Bool) (s : State) : outs (applyEnable c on s) = outs s := by unfold applyEnable; simp
@[simp] theorem outs_takeLfRecord (s : State) : outs (takeLfRecord s) = outs s := by unfold takeLfRecord; simp
@[simp] theorem outs_lfLive (s : State) : outs (lfLive s) = outs s := by unfold lfLive; simp
@[simp] theorem outs_lfStopped (s : State) : outs (lfStopped s) = outs s := by unfold lfStopped; simp
@[simp] theorem outs_postponeScan (s : State) : outs (postponeScan s) = outs s := (rfl)
@[simp] theorem outs_lfBoundary (s : State) : outs (lfBoundary s) = outs s := by unfold lfBoundary; simp
@[simp] theorem outs_burstDuty (b : Burst) (s : State) : outs (burstDuty b s) = outs s := by unfold burstDuty; simp
@[simp] theorem outs_soundDrove (c : Nat) (s : State) : outs (soundDrove c s) = outs s := (rfl)
@[simp] theorem outs_calGone (n : Nat) (s : State) : outs (calGone n s) = outs s := by unfold calGone; simp
@[simp] theorem outs_invalidateAll (s : State) : outs (invalidateAll s) = outs s := by unfold invalidateAll; simp
@[simp] theorem outs_takeRadioRecords (s : State) : outs (takeRadioRecords s) = outs s := by
  unfold takeRadioRecords
  dsimp only
  (repeat' split) <;> simp
@[simp] theorem outs_addAir (us : Nat) (s : State) : outs (addAir us s) = outs s := (rfl)
@[simp] theorem outs_coexDrop (s : State) : outs (coexDrop s) = outs s := (rfl)
@[simp] theorem outs_packetBoundary (s : State) : outs (packetBoundary s) = outs s := by unfold packetBoundary; simp
@[simp] theorem outs_rxClose (s : State) : outs (rxClose s) = outs s := by unfold rxClose; simp
@[simp] theorem outs_updateUwb (s : State) : outs (updateUwb s) = outs s := by unfold updateUwb; simp
@[simp] theorem outs_relayout (new : Nat) (s : State) : outs (relayout new s) = outs s := (rfl)
@[simp] theorem outs_endWrite (a : After) (status : Nat) (s : State) : outs (endWrite a status s) = outs s := by unfold endWrite; split <;> simp
@[simp] theorem outs_setPower (o : EvOpt) (to_ : Power) (s : State) : outs (setPower o to_ s) = outs s := by unfold setPower; simp
@[simp] theorem outs_takeRole (r : Role) (s : State) : outs (takeRole r s) = outs s := by unfold takeRole; simp
@[simp] theorem outs_endService (s : State) : outs (endService s) = outs s := by unfold endService; simp
/-! ### What a halt withdraws -/

theorem outs_addAir_coexDrop_onRad (s : State) : outs (s.onRad (fun r => { r with tx := none })) = { outs s with tx := none } := rfl
theorem outs_endTx (s : State) : outs (endTx s) = { outs s with tx := none } := by
  unfold endTx
  split
  · next h => simp [outs, h]
  · simp only [outs_activity, outs_packetBoundary, outs_coexDrop, outs_addAir_coexDrop_onRad, outs_ite, outs_addAir, ite_self]
theorem outs_finishBurst (uj : Nat) (s : State) : outs (finishBurst uj s) = { outs s with burst := none } := by
  unfold finishBurst
  split
  · next h => simp [outs, h]
  · next b _ =>
    extract_lets keeps u v
    have hu : outs u = outs s := by simp [u]
    have hv : outs v = { outs s with burst := none } := by
      rw [← hu]
      exact (outs_lfBoundary _).trans rfl
    split
    · exact (outs_activity _).trans hv
    · exact hv
theorem outs_cutBurst (s : State) : outs (cutBurst s) = { outs s with burst := none } := by
  unfold cutBurst
  split
  · next h => simp [outs, h]
  · exact outs_finishBurst ..
theorem outs_lfHalts (s : State) : outs (lfHalts s) = { outs s with burst := none, queued := none } := by
  unfold lfHalts
  extract_lets u v
  have hv : outs v = { outs s with burst := none } := by
    refine Eq.trans ?_ (outs_cutBurst s)
    simp only [v, u]
    split <;> simp
  rw [outs_lfStopped, outs_boundaryM]
  exact (congrArg (fun o : Outs => { o with queued := none }) hv :)
theorem outs_radioStop (s : State) : outs (radioStop s) = { outs s with tx := none } := by
  unfold radioStop
  simp [outs_endTx]
theorem outs_withdrawOutputs (s : State) : outs (withdrawOutputs s) = { outs s with start := (false, false) } := rfl
/-- The outputs after every engine has been stopped. -/
def Outs.safe (o : Outs) : Outs := { o with start := (false, false), burst := none, queued := none, tx := none, sessions := [] }
theorem outs_safeOutputs (s : State) : outs (safeOutputs s) = (outs s).safe := by
  unfold safeOutputs
  extract_lets u v w x
  have hu : outs u = { outs s with start := (false, false), burst := none, queued := none, tx := none } := by
    simp only [u, outs_radioStop, outs_withdrawOutputs, outs_lfHalts]
  have hv : outs v = outs u := by simp [v]
  clear_value v
  have hw : outs w = { outs v with sessions := [] } := rfl
  have hx : outs x = outs w := by simp [x]
  rw [outs_with_soundRun, outs_onZon, hx, hw, hv, hu]
  rfl
theorem outs_closeStart {reason : Nat} {tag : Option Nat} {s : State} (h : (outs s).start = (false, false)) : outs (closeStart reason tag s) = outs s := by
  unfold closeStart
  split
  · rfl
  · simp [outs_withdrawOutputs, ← h]
theorem outs_stopAll (s : State) : outs (stopAll s) = (outs s).safe := by
  rw [stopAll, closeAll, outs_closeStart] <;> simp [outs_safeOutputs, Outs.safe]
theorem outs_closePath {n : Nat} {d : Option Nat} {s : State} (hb : (outs s).burst = none) (ht : (outs s).tx = none) : outs (closePath n d s) = outs s := by
  have hs : stopPathWork s = s := by
    have hcur : s.lf.cur = none := hb
    have htx : s.rad.tx = none := ht
    simp [stopPathWork, hcur, htx]
  unfold closePath
  simp [hs]
theorem outs_denyPathBy {why : Nat × Nat} {reason : Nat} {s : State} (hb : (outs s).burst = none) (ht : (outs s).tx = none) :
    outs (denyPathBy why reason s) = outs s := by
  unfold denyPathBy
  split
  · rfl
  · split
    · rfl
    · dsimp only
      split <;> simp [outs_closePath, hb, ht]
theorem outs_dropPaths {why : Nat × Nat} {s : State} (hb : (outs s).burst = none) (ht : (outs s).tx = none) :
    outs (dropPaths why s) = { outs s with path := false } := by
  unfold dropPaths
  simp only [outs_foldl, outs_cmdDone, implies_true]
  exact (congrArg (fun o : Outs => { o with path := false }) (outs_denyPathBy hb ht) :)
theorem outs_applySlot {i : Nat} {x : Slot} {ref : Option CmdRef} {s : State} (h : (outs s).step = none) : outs (applySlot i x ref s) = outs s := by
  have hu : ∀ u : State, outs u = outs s → holdsStep u i = false := fun u hu => by
    have hstep : u.ext.step = none := (congrArg Outs.step hu).trans h
    simp [holdsStep, hstep]
  have hunload : outs (unloadSlot i s) = outs s := by
    unfold unloadSlot
    extract_lets x t gone v w
    have hv : outs v = outs s := by simp [v, t]
    have hw : w = v := if_neg (by simp [hu v hv])
    rw [outs_onSlot, hw, hv]
  unfold applySlot
  simp [hunload]
theorem outs_applyPending {s : State} (h : (outs s).step = none) : outs (applyPending s) = outs s := by
  have hfold : ∀ (l : List (Nat × Slot × Option CmdRef)) (u : State), outs u = outs s → outs (l.foldl (fun s (i, x, r) => applySlot i x r s) u) = outs s := by
    intro l
    induction l with
    | nil => exact fun u hu => hu
    | cons a l ih => exact fun u hu => ih _ ((outs_applySlot (hu ▸ h)).trans hu)
  exact hfold _ _ (by simp)
theorem outs_stopExtCore (s : State) : outs (stopExtCore s) = { outs s with step := none } := by
  unfold stopExtCore
  have hs : ∀ k, outs (eraseVol { s with xc := k }) = outs s := fun k => (outs_eraseVol _).trans (outs_with_xc s k)
  rw [outs_applyPending rfl]
  exact congrArg (fun o : Outs => { o with step := none }) (hs { s.xc with stopped := true, idle := false })
theorem outs_abortWork {why : Nat × Nat} {breach : Bool} {refs : List CmdRef} {s : State} (hb : (outs s).burst = none) (ht : (outs s).tx = none) :
    outs (abortWork why breach refs s) = { outs s with path := false, step := none } := by
  unfold abortWork
  rw [outs_stopExtCore]
  simp only [outs_ite, outs_foldl, outs_cmdDone, outs_endWrite, outs_onStore, outs_with_awaited, outs_onExt, outs_onPair, outs_onSec, implies_true, and_self, ite_self]
  exact (congrArg (fun o : Outs => { o with step := none }) (outs_dropPaths hb ht) :)
/-! ### A transmission's end (O41) -/

theorem boundaryM_rad (b : Bound) (s : State) : (boundaryM b s).rad = s.rad := mirror_rad ..
theorem calGone_rad (n : Nat) (s : State) : (calGone n s).rad = s.rad := by simp [calGone, emit]
theorem cmdDoneO_rad (r : Option CmdRef) (st : Nat) (f : Bytes) (s : State) : (cmdDoneO r st f s).rad = s.rad := by
  unfold cmdDoneO
  split <;> simp [cmdDone]
theorem invalidateAll_coex (s : State) : (invalidateAll s).rad.coex = s.rad.coex := by simp [invalidateAll, calGone_rad]
theorem takeRadioRecords_coex (s : State) : (takeRadioRecords s).rad.coex = s.rad.coex := by
  unfold takeRadioRecords
  extract_lets reg table newT u bands v w
  have hw : w.rad.coex = s.rad.coex := by
    simp only [w]
    split <;> simp [invalidateAll_coex, v, u]
  clear_value w v u reg
  cases reg with
  | none => exact hw
  | some r =>
    dsimp only
    have hl : ∀ a b : State, a.rad.coex = s.rad.coex → b.rad.coex = s.rad.coex → ∀ c : Bool, (if c then a else b).rad.coex = s.rad.coex :=
      fun a b ha hb c => by cases c <;> simp [ha, hb]
    refine hl _ _ ((congrArg Rad.coex (cmdDoneO_rad ..)).trans ?_) ?_ _ <;>
      exact (foldl_keeps (fun s : State => s.rad.coex) (fun s c => by simp [calGone_rad]) _ w).trans hw
theorem packetBoundary_coex {s : State} (h : s.rad.coex = (false, false)) : (packetBoundary s).rad.coex = (false, false) := by
  unfold packetBoundary
  simp [boundaryM_rad, h, apply_ite State.rad, apply_ite Rad.coex, takeRadioRecords_coex]
theorem packetBoundary_duty {s : State} (h : s.rad.newTable = false) : (packetBoundary s).rad.duty = s.rad.duty := by
  have hc : ∀ u : State, (coexDrop u).rad.duty = u.rad.duty ∧ (coexDrop u).rad.newTable = u.rad.newTable := fun u => ⟨rfl, rfl⟩
  unfold packetBoundary
  extract_lets u v
  have hv : v.rad.duty = s.rad.duty ∧ v.rad.newTable = s.rad.newTable := by
    simp only [v, u]
    split <;> simp [hc, boundaryM_rad]
  rw [if_neg (by simp [hv.2, h])]
  exact hv.1

/-- Settles O41: the end adds the air time, drops the wires and runs the packet boundary, which gives back neither. -/
theorem transmissionOver : Obligations.TransmissionOver := by
  unfold Obligations.TransmissionOver
  refine fun x s hx => ⟨congrArg Outs.tx (outs_endTx s), ?_, fun hn => ?_⟩
  · simp only [endTx, hx, activity]
    exact packetBoundary_coex rfl
  · simp only [endTx, hx, activity]
    refine (packetBoundary_duty ?_).trans ?_
    · split <;> exact hn
    · split <;> rfl

/-! ### A member that becomes Lee (O56) -/

theorem relPin_low (k : Nat) (s : State) : ((relPin k false s).bus.pins.getD k {}).out = false := by
  by_cases hk : k < s.bus.pins.length
  · exact congrArg Pin.out (getD_modAt_same hk ..)
  · have hk' : (relPin k false s).bus.pins.length ≤ k := by simpa [relPin, modAt_eq_modify] using hk
    simp [List.getElem?_eq_none hk']
theorem relPin_ne {k j : Nat} (h : j ≠ k) (on : Bool) (s : State) : (relPin k on s).bus.pins.getD j {} = s.bus.pins.getD j {} := getD_modAt_ne h ..
/-- The pins with the release function below `n` are withdrawn. -/
def pinsLow (n : Nat) (s : State) : State := (List.range n).foldl (fun s k => if (s.bus.pins.getD k {}).function = 1 then relPin k false s else s) s
theorem pinsLow_out {n k : Nat} {s : State} (hk : k < n) (h : ((pinsLow n s).bus.pins.getD k {}).function = 1) :
    ((pinsLow n s).bus.pins.getD k {}).out = false := by
  induction n with
  | zero => exact absurd hk (by omega)
  | succ n ih =>
    rw [pinsLow, List.range_succ, List.foldl_append] at h ⊢
    change ((if _ then relPin n false (pinsLow n s) else pinsLow n s).bus.pins.getD k {}).function = 1 at h
    change ((if _ then relPin n false (pinsLow n s) else pinsLow n s).bus.pins.getD k {}).out = false
    by_cases hkn : k = n
    · subst hkn
      split at h
      · next hf => rw [if_pos hf, relPin_low]
      · next hf => exact absurd h hf
    · split at h
      · next hf =>
        rw [if_pos hf]
        rw [relPin_ne hkn] at h ⊢
        exact ih (by omega) h
      · next hf =>
        rw [if_neg hf]
        exact ih (by omega) h
theorem pinsLow_paths (n : Nat) (s : State) : (pinsLow n s).paths = s.paths ∧ (pinsLow n s).awaited = s.awaited :=
  Prod.mk.inj (foldl_keeps (fun s : State => (s.paths, s.awaited)) (fun s k => by split <;> rfl) _ s)
theorem outs_pinsLow (n : Nat) (s : State) : outs (pinsLow n s) = outs s := outs_foldl (fun s k => by simp) _ _
theorem function_of_outs {s t : State} (h : (outs t).functions = (outs s).functions) (k : Nat) :
    (t.bus.pins.getD k {}).function = (s.bus.pins.getD k {}).function := by
  have hf : ∀ u : State, (u.bus.pins.getD k {}).function = (outs u).functions.getD k 0 := fun u => by
    simp [outs]
    cases u.bus.pins[k]? <;> rfl
  rw [hf, hf, h]

/-- What a member that becomes Lee gives up besides its outputs. -/
def pathless (s : State) : State := { s with path := none, paths := [], awaited := [] }
def sessionless (s : State) : State :=
  (s.onRel (fun r => { r with access := [], start := none, pulses := [] })).onPair (fun p => { p with
    joined := false, partner := 2, transfer := none, switch_ := none, commits := [], mirrorRx := 0, partial_ := [], heard := [] })
theorem becomeLee_eq (s : State) : becomeLee s = takeRole .lee (sessionless (pinsLow 8 (pathless (safeOutputs s)))) := rfl
theorem outs_pathless (s : State) : outs (pathless s) = { outs s with path := false } := rfl
theorem outs_sessionless (s : State) : outs (sessionless s) = outs s := rfl
theorem takeRole_rest (r : Role) (s : State) :
    (takeRole r s).pair.role = r ∧ (takeRole r s).rel = s.rel ∧ (takeRole r s).path = s.path ∧ (takeRole r s).paths = s.paths ∧
    (takeRole r s).awaited = s.awaited ∧ (takeRole r s).bus = s.bus := by
  simp [takeRole, emitT]

/-- Settles O56: every engine is halted, the release pins are withdrawn, and neither the sessions nor the role's change drives them again. -/
theorem leeDrivesNothing : Obligations.LeeDrivesNothing := by
  unfold Obligations.LeeDrivesNothing
  intro s t
  have ht : t = _ := becomeLee_eq s
  have hv : outs (pinsLow 8 (pathless (safeOutputs s))) = { (outs s).safe with path := false } := by
    rw [outs_pinsLow, outs_pathless, outs_safeOutputs]
  obtain ⟨hpaths, hawaited⟩ := pinsLow_paths 8 (pathless (safeOutputs s))
  have hfun : (outs (pinsLow 8 (pathless (safeOutputs s)))).functions = (outs s).functions := by rw [hv]; rfl
  have hlow : ∀ k, k < 8 → (s.bus.pins.getD k {}).function = 1 → ((pinsLow 8 (pathless (safeOutputs s))).bus.pins.getD k {}).out = false :=
    fun k hk hf => pinsLow_out hk ((function_of_outs hfun k).trans hf)
  clear_value t
  generalize pinsLow 8 (pathless (safeOutputs s)) = v at *
  obtain ⟨hrole, hrel, hpath, hps, haw, hbus⟩ := takeRole_rest .lee (sessionless v)
  subst ht
  have hto : outs (takeRole .lee (sessionless v)) = { (outs s).safe with path := false } := by
    rw [outs_takeRole, outs_sessionless, hv]
  have hnone : v.path = none := Option.isNone_iff_eq_none.1 (by simpa [outs] using congrArg Outs.path hv)
  exact ⟨hrole, congrArg (fun o => o.start.1) hto, congrArg (fun o => o.start.2) hto, hrel ▸ rfl, hrel ▸ rfl, hpath.trans hnone, hps.trans hpaths,
    congrArg Outs.burst hto, congrArg Outs.queued hto, congrArg Outs.tx hto, congrArg Outs.sessions hto, hrel ▸ rfl, haw.trans hawaited,
    fun k hk hf => hbus ▸ hlow k hk hf⟩

/-! ### Breach (O48) -/

theorem getD_zipIdx_map (l : List Vault) (p : Nat → Bool) (k : Nat) (h : k < l.length) :
    (l.zipIdx.map (fun (v, k) => if p k then {} else v)).getD k {} = if p k then {} else l.getD k {} := by
  simp [h]
/-- The vault without the slots that Breach zeroises. -/
def zeroised (l : List Vault) : List Vault := l.zipIdx.map (fun (v, k) => if breachSlots.contains k then {} else v)
theorem outs_fuses (fuse : Bool) (s : State) : outs (s.onSec (fun x => { x with breachFuses := if fuse then min 64 (x.breachFuses + 1) else x.breachFuses })) =
    { outs s with keys := ((outs s).keys.1, if fuse then min 64 ((outs s).keys.2.1 + 1) else (outs s).keys.2.1, (outs s).keys.2.2) } := rfl
theorem outs_zeroise (s : State) : outs (s.onSec (fun x => { x with
    vault := x.vault.zipIdx.map (fun (v, k) => if breachSlots.contains k then {} else v), breachDue := true, wiping := true })) =
    { outs s with keys := (zeroised (outs s).keys.1, (outs s).keys.2) } := rfl
theorem outs_zeroiseRng (s : State) : outs (zeroiseRng s) = { outs s with keys := ((outs s).keys.1, (outs s).keys.2.1, none) } := rfl
theorem enterBreach_state {sensor : Nat} {fuse tell : Bool} {s : State} (h : s.pwr.state ≠ .breach) (hr : running s = true) :
    (enterBreach sensor fuse tell s).pwr.state = .breach := by
  rw [enterBreach, if_neg h]
  exact (congrArg (fun t : State => t.pwr.state) (if_pos hr)).trans (setPower_pwr_state ..)
/-- Once everything is stopped, telling the Breach and aborting the work brings no output and no key back. -/
theorem outs_enterBreach {sensor : Nat} {fuse tell : Bool} {s : State} (h : s.pwr.state ≠ .breach) :
    (outs (enterBreach sensor fuse tell s)).start = (false, false) ∧ (outs (enterBreach sensor fuse tell s)).burst = none ∧
    (outs (enterBreach sensor fuse tell s)).tx = none ∧ (outs (enterBreach sensor fuse tell s)).keys =
      (zeroised s.sec.vault, if fuse then min 64 (s.sec.breachFuses + 1) else s.sec.breachFuses, none) := by
  rw [enterBreach, if_neg h]
  extract_lets keys live refs u1 u2 kinds u3 u4 u5 why u6 u7 u8 u9 u10
  have h1 : outs u1 = (outs s).safe := by simp only [u1, outs_stopAll, outs_withdrawOutputs]; rfl
  have h2 := outs_fuses fuse u1
  have h3 : outs u3 = _ := outs_zeroise u2
  have h5 : outs u5 = _ := (outs_emit ..).trans (outs_zeroiseRng u4)
  have h4 : outs u4 = outs u3 := outs_onRel _ _ (fun _ => ⟨rfl, rfl⟩)
  have h7 : outs u7 = outs u5 := by simp only [u7, u6, outs_closeSecure, outs_foldl, outs_emitX, implies_true]
  have hb : (outs u7).burst = none := by rw [h7, h5, h4, h3, h2, h1]; rfl
  have ht : (outs u7).tx = none := by rw [h7, h5, h4, h3, h2, h1]; rfl
  have hk : (outs u7).keys = (zeroised s.sec.vault, if fuse then min 64 (s.sec.breachFuses + 1) else s.sec.breachFuses, none) := by
    rw [h7, h5, h4, h3, h2, h1]; rfl
  have hs : (outs u7).start = (false, false) := by rw [h7, h5, h4, h3, h2, h1]; rfl
  have h8 : (outs u8).start = (outs u7).start ∧ (outs u8).burst = (outs u7).burst ∧ (outs u8).tx = (outs u7).tx ∧ (outs u8).keys = (outs u7).keys := by
    simp only [u8]
    split
    · simp [outs_abortWork hb ht]
    · simp
  have hend : outs (if live then setPower { ref := why } .breach (u10.onPwr (fun p => { p with neapEntry := false, neapAfter := false, hostRdy := true }))
      else u10) = outs u8 := by
    simp [u10, u9]
  obtain ⟨h8s, h8b, h8t, h8k⟩ := h8
  rw [hend]
  exact ⟨h8s.trans hs, h8b.trans hb, h8t.trans ht, h8k.trans hk⟩

/-- Settles O48: the stops of `enterBreach` clear the outputs (`outs`), and what follows them drives nothing again. -/
theorem breach : Obligations.Breach := by
  unfold Obligations.Breach
  intro sensor fuse tell s h t
  obtain ⟨hs, hb, ht, hk⟩ := outs_enterBreach (sensor := sensor) (fuse := fuse) (tell := tell) h
  have hvault : t.sec.vault = zeroised s.sec.vault := congrArg Prod.fst hk
  refine ⟨fun k hl hm => ?_, fun k hl hm => ?_, congrArg (fun o => o.2.1) hk, congrArg Prod.fst hs, congrArg Prod.snd hs, hb, ht,
    congrArg (fun o => o.2.2) hk, enterBreach_state h⟩
  · rw [hvault, zeroised, getD_zipIdx_map _ _ _ hl, if_pos (by simpa using hm)]
  · rw [hvault, zeroised, getD_zipIdx_map _ _ _ hl, if_neg (by simpa using hm)]

/-! ### The pair lives (O53) -/

/-- A block's row reports the events its partner lost before anything else; the report changes neither the pair nor the clock. -/
theorem queueOverflow_rest (row n : Nat) (s : State) :
    (queueOverflow row n s).pair = s.pair ∧ linkLive (queueOverflow row n s) = linkLive s ∧ now (queueOverflow row n s) = now s := by
  unfold queueOverflow
  split <;> simp [emit, linkLive, now, started]

theorem dueAt_pins_par (n : Nat) (s : State) : (dueAt n s).bus.pins = s.bus.pins ∧ (dueAt n s).par = s.par := by
  unfold dueAt
  split <;> simp

theorem sendBlock_up {type : Nat} {payload : Bytes} {s : State} (h : s.pair.up = true) :
    sendBlock type payload s = s.onPair (fun p => { p with sent := lastN 256 (p.sent ++ [(p.tx, linkBlock p 0 type payload)]), tx := p.tx + 1 }) := by
  rw [sendBlock, sendFlagged, if_neg (by simp [h])]

theorem heartbeatSend_live {s : State} (hl : linkLive s = true) (hu : s.pair.up = true) (ht : s.pair.tx < 0xF0000000) :
    Completes (exec .heartbeatSend s) (fun t => t.pair.tx = s.pair.tx + 1 ∧ t.clk.base = t.pair.lastSent ∧
      (s.pwr.state ≠ .neap → t.pair.lastSent = max s.clk.base (s.pair.lastSent + 1000))) := by
  rw [exec_heartbeatSend, execHeartbeatSend, if_neg (by simp [hl, hu])]
  extract_lets u cls v w
  have hup : u.pair = s.pair := dueAt_pair ..
  have hv : v = u := if_neg (by simp [hup]; omega)
  have hw : w.pair.tx = s.pair.tx + 1 ∧ w.clk = u.clk := by
    rw [show w = _ from sendBlock_up (by rw [hv, hup]; exact hu), hv]
    exact ⟨congrArg (· + 1) (congrArg Pair.tx hup), rfl⟩
  obtain ⟨htx, hclk⟩ := hw
  exact ⟨_, rfl, htx, rfl, fun hn => ((congrArg Clk.base hclk).trans (dueAt_base hn)).trans (Nat.max_comm ..)⟩

theorem heartbeatMiss_counts {s : State} (hl : linkLive s = true) (hu : s.pair.up = true) (hm : s.pair.missed < 2) :
    Completes (exec .heartbeatMiss s) (fun t => t.pair.missed = s.pair.missed + 1 ∧ t.pair.misses = s.pair.misses + 1 ∧
      t.pair.up = true ∧ t.pair.role = s.pair.role) := by
  rw [exec_heartbeatMiss, execHeartbeatMiss, if_neg (by simp [hl, hu])]
  extract_lets u v
  have hup : u.pair = s.pair := dueAt_pair ..
  have hv : v.pair = { s.pair with missed := sat 255 (s.pair.missed + 1), misses := s.pair.misses + 1 } := by rw [← hup]; rfl
  have hs : sat 255 (s.pair.missed + 1) = s.pair.missed + 1 := by simp [sat]; omega
  clear_value v
  refine ⟨_, if_pos (by rw [hv, hs]; dsimp only; omega), ?_⟩
  dsimp only
  rw [hv, hs]
  exact ⟨rfl, rfl, hu, rfl⟩

/-- The Headland's link goes down for good: every commit that waits for the partner fails, and none of that brings the link or the role back. -/
theorem linkDown_headland {s : State} (hu : s.pair.up = true) (hr : s.pair.role = .headland) :
    linkKey (linkDown s).pair = (false, 0, false, .headland) := by
  rw [linkDown, if_neg (by simp [hu])]
  extract_lets v waiting head u w
  have hw : kept w = kept u := kept_emit ..
  rw [if_pos (by simp [head, hr])]
  refine (congrArg Kept.link ((kept_foldl (fun _ _ => kept_commitFailed ..) _ _).trans hw)).trans ?_
  simp [u, head, kept, linkKey, hr]

theorem heartbeatMiss_headland {s : State} (hl : linkLive s = true) (hu : s.pair.up = true) (hr : s.pair.role = .headland) (hm : 2 ≤ s.pair.missed) :
    Completes (exec .heartbeatMiss s) (fun t => t.pair.up = false ∧ t.pair.partner = 0 ∧ t.pair.joined = false ∧ t.pair.role = .headland) := by
  rw [exec_heartbeatMiss, execHeartbeatMiss, if_neg (by simp [hl, hu])]
  extract_lets u v
  have hup : u.pair = s.pair := dueAt_pair ..
  have hv : v.pair = { s.pair with missed := sat 255 (s.pair.missed + 1), misses := s.pair.misses + 1 } := by rw [← hup]; rfl
  clear_value v
  refine ⟨_, (if_neg (by rw [hv]; simp [sat]; omega)).trans (if_pos (by rw [hv]; exact hr)), ?_⟩
  have hk := linkDown_headland (s := v) (by rw [hv]; exact hu) (by rw [hv]; exact hr)
  simp only [linkKey, Prod.mk.injEq] at hk
  exact hk

/-- Settles O53: blocks by their sequence, heartbeats by the link they find, the alive signal by its two parameters. -/
theorem pairAlive : Obligations.PairAlive := by
  unfold Obligations.PairAlive
  refine ⟨fun seq k s hl hu => ⟨recvBlock_inSeq hl hu, recvBlock_outOfSeq hl hu⟩, fun seq tick power fault last ovf temp ok s =>
    ⟨heartbeatSend_live, fun hl hu hq hr => ?_, heartbeatMiss_counts, heartbeatMiss_headland, fun hc hs hn hp => ?_, fun hc hs hn hp => ?_,
      fun hl hu hq hr hj => ?_, fun hc => ?_⟩⟩
  · obtain ⟨hp, hlive, hnow⟩ := queueOverflow_rest 7 ovf s
    rw [exec_heartbeat, execHeartbeat, recvBlock_inSeq (hlive.trans hl) (hp ▸ hu) (hp ▸ hq)]
    refine ⟨_, congrArg next (if_neg ?_), ?_⟩
    · simp [hp, hr]
    · rw [← hnow]
      rfl
  · exact ⟨_, (if_neg (by simp [hc, hs, hn])).trans (if_neg hp), rfl⟩
  · rw [exec_pairAliveToggle, execPairAliveToggle, if_neg (by simp [hc, hs, hn]), if_neg (by simp), if_neg hp]
    obtain ⟨hpins, hpar⟩ := dueAt_pins_par (s.pair.aliveOut + 100) s
    refine ⟨_, rfl, ?_, ?_⟩
    · simp
    · simp [param, hpins, hpar]
  · rw [exec_yield, execYield, recvBlock_inSeq hl hu hq]
    exact congrArg _ (if_pos (by simp [hr, hj]))
  · exact if_pos hc

end Sys2Proof.Machine
end

section
/-! TIMER_MATCH of a timer that may wake (O19). -/

namespace Sys2Proof.Machine
open Sys2Proof

/-- A wake while the entry to Neap is under way abandons the entry. -/
theorem leaveNeap_neapEntry {wake : Option Nat} {flood : Bool} {s : State} (h : s.pwr.neapEntry = true) (hs : s.pwr.state ≠ .neap) :
    (leaveNeap wake flood s).pwr.neapEntry = false := by
  unfold leaveNeap
  rw [if_neg (by simp [h])]
  cases wake <;> simp [hs, neapStir, activity, emit]
theorem matchTimer_pwr {n : Nat} (hn : n < 16) (s : State) : (matchTimer n s).pwr = s.pwr := by
  rw [matchTimer, timerEvent_of_lt hn, applyLink_pwr]
  rfl

/-- A running T0 with WAKE set, at its COMPARE while the entry to Neap is under way. -/
def wakingMatch : State :=
  let s := State.reset
  { s with pwr := { s.pwr with state := .slack, phase := .ready, neapEntry := true }, timers := [{ run := true, ctrl := 0x40, compare := 0 }] }

/-- Refutes O19: the match of a timer with WAKE also abandons an entry to Neap under way (R67, R399), which the stated outcome leaves
standing. -/
theorem not_timerRegisters : ¬ Obligations.TimerRegisters := by
  unfold Obligations.TimerRegisters
  intro h
  have hclk : coreClock wakingMatch = true := by decide
  obtain ⟨hmatch, -⟩ := h.2 0 0 none wakingMatch
  have hstays := hmatch (by decide) (by decide) (by decide) hclk
  dsimp only at hstays
  have hu : usOfTicks wakingMatch (timer wakingMatch 0) ((timer wakingMatch 0).compare.toNat - (timer wakingMatch 0).count.toNat) = 0 := by decide
  rw [hu] at hstays
  generalize hm : matchTimer 0 (onTimer 0 (writeStatus 0) (passUs 0 wakingMatch)) = m at hstays
  have hpwr : m.pwr = (passUs 0 wakingMatch).pwr := hm ▸ matchTimer_pwr (by decide) _
  have hentry : m.pwr.neapEntry = true := by rw [hpwr, passUs_pwr_neapEntry]; rfl
  have hstate : m.pwr.state ≠ .neap := by rw [hpwr, passUs_pwr_state]; decide
  have hwakes : exec (.timerMatch 0 0 none) wakingMatch = .next (neapWake 0x41 false m) := by
    rw [exec_timerMatch, execTimerMatch, if_pos (by decide)]
    dsimp only
    rw [hu, hm]
    exact congrArg next (if_pos (by simp [sameClockCtrl, hentry]; decide))
  have heq : neapWake 0x41 false m = m := Host.Outcome.next.inj (hwakes.symm.trans hstays)
  have habandoned : (neapWake 0x41 false m).pwr.neapEntry = false := leaveNeap_neapEntry hentry hstate
  rw [heq, hentry] at habandoned
  cases habandoned
end Sys2Proof.Machine
end

section
/-! Inbound frames, envelopes and the versions of the store (O26, O46, O50). -/

namespace Sys2Proof.Machine
open Sys2Proof

/-! ### Envelopes -/

theorem passed_of_ite_none {α : Type} {c : Prop} [Decidable c] {x : α} {rest : Option α} (h : (if c then some x else rest) = none) : ¬c ∧ rest = none := by
  split at h
  · cases h
  · exact ⟨‹_›, h⟩

/-- Settles O46: the checks run in their order, so an earlier one's refusal stands whatever a later one says. -/
theorem envelopeChecks : Obligations.EnvelopeChecks := by
  unfold Obligations.EnvelopeChecks
  refine fun s what e => ⟨fun h => ?_, fun hf hk => ?_, fun n hw hf hk hs => ?_, fun hw hf hk hz hg => ?_⟩
  · obtain ⟨hform, h⟩ := passed_of_ite_none h
    obtain ⟨hkind, h⟩ := passed_of_ite_none h
    obtain ⟨-, h⟩ := passed_of_ite_none h
    obtain ⟨-, h⟩ := passed_of_ite_none h
    obtain ⟨hsigned, h⟩ := passed_of_ite_none h
    obtain ⟨hseq, -⟩ := passed_of_ite_none h
    exact ⟨by simpa using hform, by simpa using hkind, by simpa using hsigned, by simpa using hseq⟩
  · simp [envCheck, hf, hk]
  · subst hw
    simp [envCheck, hf, hk, hs, VerifyFor.area]
  · subst hw
    simp [envCheck, hf, hk, hz, signerOk, hg, VerifyFor.area]

/-! ### The records of the store -/

theorem findRec_map {g : StRec → StRec} (hg : ∀ r, (g r).type = r.type ∧ (g r).key = r.key) (l : List StRec) (type key : Nat) :
    findRec (l.map g) type key = (findRec l type key).map g := by
  have hf : (fun r : StRec => r.type == type && r.key == key) ∘ g = fun r => r.type == type && r.key == key := funext fun r => by
    simp only [Function.comp_apply, (hg r).1, (hg r).2]
  unfold findRec
  rw [List.find?_map, hf]
theorem findRec_key {l : List StRec} {type key : Nat} {r : StRec} (h : findRec l type key = some r) : r.type = type ∧ r.key = key := by
  simpa using List.find?_some h
theorem findRec_none_iff {l : List StRec} {type key : Nat} : findRec l type key = none ↔ l.any (fun r => r.type == type && r.key == key) = false := by
  simp [findRec]
section
variable {f : StRec → StRec} (hf : ∀ r, (f r).type = r.type ∧ (f r).key = r.key) (l : List StRec) {type key type' key' : Nat}
include hf
theorem findRec_upsert_same : findRec (upsert type key f l) type key = some (f ((findRec l type key).getD { type := type, key := key })) := by
  unfold upsert
  split
  · next h =>
    rw [findRec_map]
    · cases hr : findRec l type key with
      | none => simp [findRec_none_iff.1 hr] at h
      | some r => simp [findRec_key hr]
    · intro r
      split <;> simp [hf]
  · next h =>
    have hn := findRec_none_iff.2 (Bool.eq_false_iff.2 h)
    rw [hn]
    simp only [findRec] at hn ⊢
    simp [List.find?_append, hn, hf]
theorem findRec_upsert_ne (hne : (type', key') ≠ (type, key)) : findRec (upsert type key f l) type' key' = findRec l type' key' := by
  unfold upsert
  split
  · rw [findRec_map]
    · cases hr : findRec l type' key' with
      | none => rfl
      | some r =>
        obtain ⟨ht, hk⟩ := findRec_key hr
        have hno : ¬(r.type == type && r.key == key) = true := by simpa [ht, hk] using hne
        exact congrArg some (if_neg hno)
    · intro r
      split <;> simp [hf]
  · have hno : ¬(type == type' && key == key') = true := by
      intro h
      simp only [Bool.and_eq_true, beq_iff_eq] at h
      exact hne (Prod.ext h.1.symm h.2.symm)
    simp only [findRec, List.find?_append]
    simp [hf, hno]
end

/-! ### A page that a write erases held nothing that stands -/

theorem foldl_keeps_prop {σ α : Type} {p : σ → Prop} {f : σ → α → σ} (l : List α) (h : ∀ x a, a ∈ l → p x → p (f x a)) (x : σ) (hx : p x) : p (l.foldl f x) := by
  induction l generalizing x with
  | nil => exact hx
  | cons a l ih => exact ih (fun x b hb => h x b (List.mem_cons_of_mem _ hb)) _ (h x a List.mem_cons_self hx)
theorem forcedPage_empty {area i : Nat} {copyB : Bool} {t : Store} (h : forcedPage area copyB t = some i) : liveCells i copyB t = 0 := by
  obtain ⟨⟨e, j⟩, hfold, rfl⟩ := Option.map_eq_some_iff.1 h
  refine foldl_keeps_prop (p := fun acc : Option (Nat × Nat) => ∀ e j, acc = some (e, j) → liveCells j copyB t = 0) _ ?_ _ (fun _ _ h => by cases h) e j hfold
  rintro acc ⟨p, k⟩ - hacc e j hj
  dsimp only at hj
  split at hj
  · next hc =>
    simp only [Bool.and_eq_true, decide_eq_true_eq] at hc
    split at hj
    · next a b =>
      split at hj
      · cases hj
        exact hc.2
      · exact hacc _ _ hj
    · cases hj
      exact hc.2
  · exact hacc _ _ hj
theorem le_sum_of_mem {n : Nat} {l : List Nat} (h : n ∈ l) : n ≤ l.sum := by
  induction l with
  | nil => cases h
  | cons a l ih =>
    rw [List.sum_cons]
    rcases List.mem_cons.1 h with rfl | h
    · exact Nat.le_add_right ..
    · exact Nat.le_trans (ih h) (Nat.le_add_left ..)
theorem not_liveOn_of_empty {i : Nat} {copyB : Bool} {t : Store} (h : liveCells i copyB t = 0) {r : StRec} (hr : r ∈ t.recs) : liveOn i copyB r = false := by
  refine Bool.eq_false_iff.mpr fun hl => ?_
  have hmem : bodyCells ((r.standing.map (·.body.length)).getD 0) ∈
      (t.recs.filter (liveOn i copyB)).map (fun r => bodyCells ((r.standing.map (·.body.length)).getD 0)) :=
    List.mem_map_of_mem (List.mem_filter.2 ⟨hr, hl⟩)
  have hle := le_sum_of_mem hmem
  simp only [liveCells, bodyCells] at h hle
  omega
/-- A record without its versions of copy A in a page. -/
def StRec.withoutA (i : Nat) (r : StRec) : StRec := { r with a := r.a.filter (fun v => v.page ≠ i) }
/-- A record without a live version in a page loses no standing version when the page is erased, and its next sequence number stays. -/
theorem withoutA_of_not_live {r : StRec} {i : Nat} (h : liveOn i false r = false) :
    (r.withoutA i).standing = r.standing ∧ nextSeq (some (r.withoutA i)) = nextSeq (some r) := by
  obtain ⟨ty, k, _ | a, b⟩ := r
  · exact ⟨rfl, rfl⟩
  · by_cases hp : a.page = i
    · cases b with
      | none => simp [liveOn, StRec.standing, hp] at h
      | some b =>
        by_cases hs : b.seq > a.seq
        · simp [StRec.withoutA, StRec.standing, nextSeq, Option.filter_some, hp, hs, Nat.le_of_lt hs]
        · simp [liveOn, StRec.standing, hp, hs] at h
    · simp [StRec.withoutA, StRec.standing, nextSeq, Option.filter_some, hp]
theorem recs_takeRoom (spare : Bool) (area n : Nat) (t : Store) :
    (takeRoom spare area false n t).2.2.recs = t.recs ∨
    ∃ i, (∀ r ∈ t.recs, liveOn i false r = false) ∧ (takeRoom spare area false n t).2.2.recs = t.recs.map (StRec.withoutA i) := by
  unfold takeRoom
  extract_lets put left
  generalize (if spare then 2 else 1) = least
  split
  · exact .inl rfl
  · split
    · next i hi => exact .inr ⟨i, fun r hr => not_liveOn_of_empty (forcedPage_empty hi) hr, rfl⟩
    · exact .inl rfl
/-- Taking room moves no standing version and no next sequence number. -/
theorem findRec_takeRoom (spare : Bool) (area n : Nat) (t : Store) (type key : Nat) :
    (findRec (takeRoom spare area false n t).2.2.recs type key).bind StRec.standing = (findRec t.recs type key).bind StRec.standing ∧
    nextSeq (findRec (takeRoom spare area false n t).2.2.recs type key) = nextSeq (findRec t.recs type key) := by
  obtain h | ⟨i, hlive, h⟩ := recs_takeRoom spare area n t <;> rw [h]
  · exact ⟨rfl, rfl⟩
  · rw [findRec_map (g := StRec.withoutA i) (fun _ => ⟨rfl, rfl⟩)]
    cases hr : findRec t.recs type key with
    | none => exact ⟨rfl, rfl⟩
    | some r => exact withoutA_of_not_live (hlive r (List.mem_of_find?_eq_some hr))

/-- A record with a version of copy A. -/
def StRec.withA (a : Ver) (r : StRec) : StRec := { r with a := some a }
theorem StRec.withA_key (a : Ver) (r : StRec) : (r.withA a).type = r.type ∧ (r.withA a).key = r.key := ⟨rfl, rfl⟩
theorem standing_withA {a : Ver} {r : StRec} (h : a.seq = nextSeq (some r)) : (r.withA a).standing = some a := by
  obtain ⟨ty, k, a', _ | b⟩ := r
  · rfl
  · have hb : ¬b.seq > a.seq := by
      simp only [nextSeq, Option.map_some, Option.getD_some] at h
      omega
    exact if_neg hb
theorem writeItem_record (spare : Bool) (type key : Nat) (body : Bytes) (t : Store) :
    let x := takeRoom spare (Item.record type key body).area false (Item.record type key body).cells t
    (writeItem false false false spare (.record type key body) t).recs =
      upsert type key (StRec.withA ⟨nextSeq (findRec x.2.2.recs type key), x.1, body⟩) x.2.2.recs := rfl

/-- Settles O50: copy A is written with the next sequence number, above that of either copy, so it stands; a page erased for it held nothing
that stands. -/
theorem storedVersions : Obligations.StoredVersions := by
  unfold Obligations.StoredVersions
  intro type key id v spare body t u
  have hu : u.recs = _ := writeItem_record spare type key body t
  obtain ⟨hstand, hseq⟩ := findRec_takeRoom spare (Item.record type key body).area (Item.record type key body).cells t type key
  rw [hseq] at hu
  generalize (takeRoom spare (Item.record type key body).area false (Item.record type key body).cells t).1 = page at hu
  refine ⟨⟨⟨nextSeq (findRec t.recs type key), page, body⟩, ?_, rfl, rfl, ?_⟩, fun type' key' hne => ?_, fun old hold hv => ?_⟩
  · rw [hu, findRec_upsert_same (StRec.withA_key _)]
    rfl
  · rw [hu, findRec_upsert_same (StRec.withA_key _)]
    refine standing_withA (hseq.symm.trans ?_)
    cases findRec (takeRoom spare (Item.record type key body).area false (Item.record type key body).cells t).2.2.recs type key <;> rfl
  · rw [hu, findRec_upsert_ne (StRec.withA_key _) _ hne]
    exact (findRec_takeRoom ..).1
  · cases hr : findRec t.ctrs 0x8000 id with
    | none => simp [hr] at hold
    | some r =>
      have hs : r.standing = some old := by simpa [hr] using hold
      simp [writeItem, hr, hs, hv]

/-! ### Inbound frames -/

theorem u8_take {b : Bytes} {n i : Nat} (h : i < n) : u8 (b.take n) i = u8 b i := by
  simp [u8, List.getElem?_take_of_lt h]
theorem emit_box (m : Bool) (code cls : Nat) (p : Bytes) (s : State) : (emit code cls p s).box m = s.box m := by
  cases m <;> simp [State.box, emit]
theorem sendFlagged_boxes (flags type : Nat) (p : Bytes) (s : State) :
    ((sendFlagged flags type p s).mbx, (sendFlagged flags type p s).mmb) = (s.mbx, s.mmb) := by
  unfold sendFlagged
  split <;> rfl
theorem mirror_boxes (l : List MirrorItem) (s : State) : ((mirror l s).mbx, (mirror l s).mmb) = (s.mbx, s.mmb) := by
  unfold mirror
  split
  · rfl
  · exact (sendFlagged_boxes ..).trans (foldl_keeps (fun s : State => (s.mbx, s.mmb)) (fun _ _ => sendFlagged_boxes ..) _ s)
theorem mirror_box (m : Bool) (l : List MirrorItem) (s : State) : (mirror l s).box m = s.box m := by
  obtain ⟨h, h'⟩ := Prod.mk.inj (mirror_boxes l s)
  cases m <;> simp [State.box, h, h']
theorem neapStir_box (m : Bool) (s : State) : (neapStir s).box m = s.box m := by cases m <;> rfl
/-- What the expected number's advance leaves of its mailbox. -/
theorem takeExpected_box (m : Bool) (lane q : Nat) (s : State) :
    ((takeExpected m lane q s).box m).rx = (s.box m).rx.set lane (q + 1) ∧ ((takeExpected m lane q s).box m).lanes = (s.box m).lanes ∧
    ((takeExpected m lane q s).box m).inFlight = (s.box m).inFlight ∧ ((takeExpected m lane q s).box m).chan = (s.box m).chan ∧
    ((takeExpected m lane q s).box m).ifv = (s.box m).ifv := by
  unfold takeExpected rekeyDue
  dsimp only
  split <;> simp [emit_box]
theorem takeExpected_lifecycle (m : Bool) (lane q : Nat) (s : State) : lifecycle (takeExpected m lane q s) = lifecycle s := by
  unfold takeExpected rekeyDue
  dsimp only
  split <;> simp [emit, lifecycle, storedLifecycle, recBody]
theorem acceptCheck_takeExpected (m : Bool) (lane q flags tag op : Nat) (s : State) :
    acceptCheck m flags lane tag op (takeExpected m lane q s) = acceptCheck m flags lane tag op s := by
  obtain ⟨-, -, hfl, hch, hifv⟩ := takeExpected_box m lane q s
  have hneeds : needsChannel (takeExpected m lane q s) op = needsChannel s op := by
    unfold needsChannel
    rw [takeExpected_lifecycle]
  unfold acceptCheck
  dsimp only
  rw [hneeds, hfl, hch, hifv]
theorem commandFrame_accepted {m : Bool} {lane tag ifv op : Nat} {p : Bytes} {s : State} (hifv : ifv = (s.box m).ifv)
    (hlt : expected (s.box m) lane < 0xFFFFFFFF) (ha : acceptCheck m 0 lane tag op s = none) :
    let b := s.box m
    let c := (commandFrame m lane 0 tag ifv op (expected b lane) p s).box m
    c.lanes = modAt b.lanes lane (· ++ [{ tag := tag, opcode := op, payload := p, seq := expected b lane }]) ∧
    c.rx = b.rx.set lane (expected b lane + 1) ∧ c.inFlight = tag :: b.inFlight := by
  have hb : (expected (s.box m) lane + 4294967296 - expected (s.box m) lane) % 4294967296 = 0 := by omega
  obtain ⟨hrx, hlanes, hfl, -⟩ := takeExpected_box m lane (expected (s.box m) lane) s
  unfold commandFrame
  simp only [hb, ne_eq, not_true_eq_false, decide_false, Bool.false_and, Bool.false_eq_true, if_false, ge_iff_le, hifv, acceptCheck_takeExpected, ha]
  rw [if_neg (by omega)]
  cases m <;> simp [neapStir_box, mirror_box, hrx, hlanes, hfl]
theorem expected_lt {b : Mbx} {lane : Nat} (h : b.chan = none) : expected b lane < 0xFFFFFFFF := by
  unfold expected
  dsimp only
  split
  · omega
  · next hq =>
    simp only [h, Option.isNone_none, Bool.true_and, decide_eq_true_eq] at hq
    omega

/-- Settles O26: the frame's length, its CRC and, in the clear, its type, lane, number and version are checked in this order. -/
theorem inboundFrames : Obligations.InboundFrames := by
  unfold Obligations.InboundFrames
  intro m bytes s b
  refine ⟨fun h => if_pos h, fun h hl => ?_, fun h hl hc => ?_, fun h hl hc hch hlink h0 h1 hno hseq hifv ha => ?_⟩
  · exact (if_neg (by omega)).trans (if_pos (by simpa using hl))
  · exact (if_neg (by omega)).trans ((if_neg (by simpa using hl)).trans (if_pos hc))
  · have hin : inbound m bytes s = clearFrame m (bytes.take 12) (slice bytes 16 (u16 bytes 6)) s := by
      have hno' : ¬((decide (u8 bytes 0 = 1) && decide (u8 bytes 1 % 8 = 0) && decide (u16 bytes 4 = 1)) && decide (bytes.length = 16 + u16 bytes 6)) = true := by
        rw [Nat.mod_eq_of_lt (by omega)]
        simp only [Bool.and_eq_true, decide_eq_true_eq]
        exact fun h => hno ⟨h.1.1.2, h.1.2⟩
      refine (if_neg (by omega)).trans ((if_neg (by simpa using hl)).trans ((if_neg (Classical.not_not.mpr hc)).trans ((if_neg hno').trans ?_)))
      rw [hch]
    have hframe : clearFrame m (bytes.take 12) (slice bytes 16 (u16 bytes 6)) s =
        commandFrame m (u8 bytes 1) 0 (u8 bytes 2) (u8 bytes 3) (u16 bytes 4) (expected b (u8 bytes 1)) (slice bytes 16 (u16 bytes 6)) s := by
      have hlane : u8 bytes 1 % 8 = u8 bytes 1 := Nat.mod_eq_of_lt (by omega)
      have hflags : u8 bytes 1 / 8 = 0 := Nat.div_eq_of_lt (by omega)
      have hne7 : u8 bytes 1 ≠ 7 := by omega
      have hop : u16 (bytes.take 12) 4 = u16 bytes 4 := by simp [u16, u8_take]
      have hnum : u32 (bytes.take 12) 8 = expected b (u8 bytes 1) := by rw [← hseq]; simp [u32, u16, u8_take]
      have hlinked : (s.box m).linked = true := hlink
      simp [clearFrame, u8_take, hop, hnum, h0, hlane, hflags, hne7, hlinked]
    rw [hin, hframe, hseq]
    exact commandFrame_accepted hifv (expected_lt hch) ha

end Sys2Proof.Machine
end

section
/-! SPI transactions and the mailbox's control frames (O24, O25). -/

namespace Sys2Proof.Machine
open Sys2Proof

/-! ### SPI transactions -/

/-- A member that serves its mailbox overhears nothing. -/
theorem overhears_of_spiServed {m : Bool} {s : State} (h : spiServed m s = true) : overhears m s = false := by
  simp only [spiServed, Bool.and_eq_true, serves, beq_iff_eq] at h
  obtain ⟨-, hm⟩ := h
  cases m
  · simp [overhears, ← hm]
  · rfl
theorem spiRow_served {m : Bool} {n : Nat} {s : State} {k : State → State} (h : spiServed m s = true) : spiRow m n s k = k (csEnds s) := if_pos h
theorem spiRow_not_served {m : Bool} {n : Nat} {s : State} {k : State → State} (h : spiServed m s = false) :
    spiRow m n s k = (csEnds s).onBox m (fun b => { b with sdo := spiUnserved n (csEnds s) }) := if_neg (by simp [h])
theorem csEnds_box (m : Bool) (s : State) : (csEnds s).box m = s.box m := by cases m <;> rfl
/-- The answer clocked out touches only the answer. -/
theorem answered_box (m : Bool) (d : Bytes) (s : State) :
    ((csEnds s).onBox m (fun x => { x with sdo := d })).box m = { s.box m with sdo := d } := by rw [State.onBox_box, csEnds_box]
theorem rxSpace_answered (m : Bool) (d : Bytes) (s : State) : rxSpace m ((csEnds s).onBox m (fun x => { x with sdo := d })) = rxSpace m s := by
  cases m <;> rfl
theorem execSpiWriteFrame_served {m : Bool} {bytes : Bytes} {s : State} (h : spiServed m s = true) :
    let u := (csEnds s).onBox m (fun x => { x with sdo := sdoOf s (statusByte m (csEnds s) :: List.replicate bytes.length 0) })
    exec (.spiWriteFrame m bytes) s = .next (if !rxSpace m u then u.onBox m (fun b => { b with lastErr := true }) else
      let ok := bytes.length ≥ 16 && lengthOk (u.box m) bytes
      let v := u.onBox m (fun b => { b with lastErr := !ok })
      if ok then inbound m bytes (takeRx m v)
      else if bytes.length < 16 then frameError m 1 0xFF 0xFFFFFFFF v else frameError m 1 (u8 bytes 1 % 8) (u32 bytes 8) v) := by
  rw [exec_spiWriteFrame, execSpiWriteFrame, if_neg (by simp [overhears_of_spiServed h]), spiRow_served h]
  rfl
theorem lengthOk_answered (d : Bytes) (b : Mbx) (bytes : Bytes) : lengthOk { b with sdo := d } bytes = lengthOk b bytes := rfl

/-- Settles O24: a served transaction runs its row on the state that the end of CS_N leaves. -/
theorem spiTransactions : Obligations.SpiTransactions := by
  unfold Obligations.SpiTransactions
  intro m bytes type clocked f s st answers
  refine ⟨fun hs hr hl hok => ?_, fun hs hr => ?_, fun hs hf hc => ?_, fun hs hf hc => ?_, fun hs h1 h2 => ?_, fun hs h1 h2 => ?_⟩
  · rw [execSpiWriteFrame_served hs]
    dsimp only
    rw [rxSpace_answered, hr, if_neg (by simp), answered_box, lengthOk_answered, hok]
    simp [hl, answers, st]
  · rw [execSpiWriteFrame_served hs]
    refine ⟨_, congrArg _ (if_pos (by rw [rxSpace_answered, hr]; rfl)), ?_⟩
    simp [csEnds_box, st]
  · rw [exec_spiReadFrame, execSpiReadFrame, spiRow_served hs]
    dsimp only
    rw [csEnds_box, hf]
    exact congrArg _ (if_pos (by simp [le16_length]; omega))
  · rw [exec_spiReadFrame, execSpiReadFrame, spiRow_served hs]
    dsimp only
    rw [csEnds_box, hf]
    refine ⟨_, congrArg _ (if_neg (by simp [le16_length]; omega)), ?_⟩
    dsimp only
    rw [answered_box]
    exact hf
  · exact ⟨_, ((if_neg h1).trans (if_neg h2)).trans (congrArg next (spiRow_served hs)), rfl⟩
  · exact ⟨_, ((if_neg h1).trans (if_neg h2)).trans (congrArg next (spiRow_not_served hs)), rfl⟩

/-! ### Control frames, hold-offs and deadlines -/

theorem ctlAccept_taken {m : Bool} {seq : Nat} {s : State} {k : State → State} (h : (s.box m).rx.getD 8 0 ≤ seq) (hlt : seq < 0xFFFFFFFF) :
    ctlAccept m seq s k = k (rekeyDue m 24 (seq + 1) (s.onBox m (fun b => { b with rx := b.rx.set 8 (seq + 1) }))) := by
  rw [ctlAccept, if_neg]
  simp only [Bool.or_eq_true, decide_eq_true_eq]
  omega
theorem ctlAccept_refused {m : Bool} {seq : Nat} {s : State} {k : State → State} (h : seq < (s.box m).rx.getD 8 0 ∨ 0xFFFFFFFF ≤ seq) :
    ctlAccept m seq s k = s := by
  rw [ctlAccept, if_pos]
  simpa using h
theorem advanceTo_box (m : Bool) (n : Nat) (s : State) : (advanceTo n s).box m = s.box m := by cases m <;> simp [State.box]
/-- Frames behind those that wait at the lanes of commands. -/
def Mbx.putOut (l : List OutFrame) (b : Mbx) : Mbx := { b with out := b.out ++ l }
theorem onBox_putOut_nil (m : Bool) (s : State) : s.onBox m (Mbx.putOut []) = s := by cases m <;> simp [State.onBox, Mbx.putOut]
theorem onBox_putOut_cons (m : Bool) (f : OutFrame) (l : List OutFrame) (s : State) :
    (s.onBox m (Mbx.putOut [f])).onBox m (Mbx.putOut l) = s.onBox m (Mbx.putOut (f :: l)) := by
  cases m <;> simp [State.onBox, Mbx.putOut]
theorem resend_of_lane {m : Bool} {f : OutFrame} (h : f.lane < 6) (s : State) : resend m f s = s.onBox m (Mbx.putOut [{ f with flags := f.flags ||| 4 }]) := by
  have hpush : pushOut { f with flags := f.flags ||| 4 } = Mbx.putOut [{ f with flags := f.flags ||| 4 }] := by
    funext b
    exact if_neg (by dsimp only; omega)
  rw [resend, hpush]
theorem foldl_resend {m : Bool} (l : List OutFrame) (s : State) (hl : ∀ f ∈ l, f.lane < 6) :
    l.foldl (fun s f => resend m f s) s = s.onBox m (Mbx.putOut (l.map (fun f => { f with flags := f.flags ||| 4 }))) := by
  induction l generalizing s with
  | nil => exact (onBox_putOut_nil m s).symm
  | cons f l ih =>
    rw [List.foldl_cons, ih _ (fun g hg => hl g (List.mem_cons_of_mem _ hg)), resend_of_lane (hl f List.mem_cons_self), onBox_putOut_cons,
      List.map_cons]
theorem ctlResend_command {m : Bool} {lane first : Nat} {s : State} (hlane : lane < 6) (hall : ∀ f ∈ (s.box m).held.getD lane [], f.lane = lane)
    (hold : ∀ f, ((s.box m).held.getD lane []).head? = some f → f.seq ≤ first) (hne : (s.box m).held.getD lane [] ≠ []) :
    ctlResend m lane first s = s.onBox m (Mbx.putOut ((((s.box m).held.getD lane []).filter (fun f => f.seq ≥ first)).map
      (fun f => { f with flags := f.flags ||| 4 }))) := by
  have h7 : lane ≠ 7 := by omega
  simp only [ctlResend, if_neg h7]
  cases hl : (s.box m).held.getD lane [] with
  | nil => exact absurd hl hne
  | cons g l =>
    have hg : g.seq ≤ first := hold g (by rw [hl]; rfl)
    dsimp only
    rw [if_neg (by omega)]
    refine foldl_resend _ s (fun f hf => ?_)
    rw [hall f (by rw [hl]; exact (List.mem_filter.mp hf).1)]
    exact hlane

/-- Settles O25: each row answers at its number or its deadline; a resend walks the lane's held frames, an acknowledgement drops what its number covers. -/
theorem mailboxControl : Obligations.MailboxControl := by
  unfold Obligations.MailboxControl
  refine ⟨fun m lane seq first upTo s o => ?_, fun m lane first upTo s => ⟨fun hlane hall hold hne => ?_, ?_⟩⟩
  · dsimp only
    refine ⟨fun t0 h => ?_, fun h => ?_, fun hr hl hv hlane hq hlt => ?_, fun hr hl hv hlane => ?_, fun hr hl hv hq hlt => ?_, fun hq hlane => ?_,
      fun hq => ?_, fun hp hc => ?_, fun t0 h => ?_, fun h => ?_⟩
    · rw [exec_seqGapHoldoffEnd, execSeqGapHoldoffEnd, h]
      exact ⟨_, rfl, rfl⟩
    · rw [exec_seqGapHoldoffEnd, execSeqGapHoldoffEnd, h]
      exact ⟨_, rfl, rfl⟩
    · rw [exec_ctlResend, execCtlResend]
      refine ⟨_, (if_neg (by simp [hr, hl, hv])).trans (if_neg (by omega)), ctlAccept_taken hq hlt⟩
    · rw [exec_ctlResend, execCtlResend]
      exact (if_neg (by simp [hr, hl, hv])).trans (if_pos hlane)
    · rw [exec_ctlEvtAck, execCtlEvtAck]
      refine ⟨_, if_neg (by simp [hr, hl, hv]), ctlAccept_taken hq hlt⟩
    · rw [exec_ctlResend, execCtlResend]
      rw [ctlAccept_refused hq, if_neg (show ¬lane > 7 by omega), ite_self]
      exact ⟨_, rfl, rfl⟩
    · rw [exec_ctlEvtAck, execCtlEvtAck]
      rw [ctlAccept_refused hq, ite_self]
      exact ⟨_, rfl, rfl⟩
    · rw [exec_secureOpenExpiry, execSecureOpenExpiry, hp]
      refine ⟨_, if_neg (by simp [hc]), ?_⟩
      simp [advanceTo_box, Nat.max_comm]
    · rw [exec_authStormHoldEnd, execAuthStormHoldEnd, h]
      exact ⟨_, rfl, rfl⟩
    · rw [exec_authStormHoldEnd, execAuthStormHoldEnd, h]
      exact ⟨_, rfl, rfl⟩
  · exact ctlResend_command hlane hall hold hne
  · have hbox : ∀ f : Mbx → Mbx, eventBox (s.onBox m f) = eventBox s := fun f => by cases m <;> rfl
    unfold ctlEvtAck
    dsimp only
    rw [hbox]
    exact ⟨fun h => if_neg h, fun h => if_pos h⟩

/-! ### ISO-TP -/

theorem now_onBox (m : Bool) (f : Mbx → Mbx) (s : State) : now (s.onBox m f) = now s := by cases m <;> rfl
theorem overhears_of_canServed {m : Bool} {s : State} (h : canServed m s = true) : overhears m s = false := by
  simp only [canServed, Bool.and_eq_true, serves, beq_iff_eq] at h
  obtain ⟨⟨-, hm⟩, -⟩ := h
  cases m
  · simp [overhears, ← hm]
  · rfl

section
variable {m : Bool} {s : State} (hs : canServed m s = true)
include hs
theorem isotpSingleFrame_served (bytes : Bytes) : exec (.isotpSingleFrame m bytes) s =
    .next (if rxSpace m s then isoPump m (inbound m bytes (takeRx m s)) else s) := by
  rw [exec_isotpSingleFrame, execIsotpSingleFrame, if_neg (by simp [overhears_of_canServed hs])]
  cases hr : rxSpace m s <;> simp [hs, next]
theorem isotpFirstFrame_served {len : Nat} (hlo : 0 < len) (hhi : len ≤ 4095) (bytes : Bytes) : exec (.isotpFirstFrame m len bytes) s =
    .next (let u := s.onBox m (fun b => { b with isoRx := none })
      let cts := rxSpace m u
      isoFlow m (if cts then 0 else 1) (u.onBox m (fun b => { b with 
        isoRx := some { len := len, got := bytes, cts := cts, waits := if cts then 0 else 1, at_ := now u } }))) := by
  rw [exec_isotpFirstFrame, execIsotpFirstFrame, if_neg (by simp [overhears_of_canServed hs]), if_neg (by simp [hs]; omega)]
theorem isotpConsecutiveFrame_served {r : IsoRx} (hr : (s.box m).isoRx = some r) (hc : r.cts = true) (sn : Nat) (bytes : Bytes) :
    exec (.isotpConsecutiveFrame m sn bytes) s =
    .next (let fresh := s.onBox m (fun b => { b with isoRx := none })
      let got := (r.got ++ bytes).take r.len
      if sn % 16 ≠ r.nextSn then fresh
      else if got.length = r.len then isoPump m (inbound m got (takeRx m fresh))
      else s.onBox m (fun b => { b with isoRx := some { r with got := got, nextSn := (r.nextSn + 1) % 16, at_ := now s } })) := by
  rw [exec_isotpConsecutiveFrame, execIsotpConsecutiveFrame]
  rw [hr, overhears_of_canServed hs, hs]
  dsimp only
  rw [if_neg (by simp), if_neg (by simp [hc])]
  split
  · rfl
  · rw [if_neg (by simp)]
    split <;> rfl
theorem isotpFlowControl_served {x : IsoTx} (hx : (s.box m).isoTx = some x) (hl : x.left = none) (st bs stMin : Nat) :
    exec (.isotpFlowControl m st bs stMin) s = .next (
      let all := (x.rest.length + 62) / 63
      if st = 0 then isoPump m (isoBlock m all (isoStep m (s.onBox m (fun b => { b with isoTx := some { x with
          left := some (if bs = 0 then all else bs), stUs := stMinUs stMin } }))))
      else if st = 1 then s.onBox m (fun b => { b with isoTx := some { x with at_ := now s } })
      else isoPump m (isoAbandon m s)) := by
  rw [exec_isotpFlowControl, execIsotpFlowControl, hx]
  dsimp only
  rw [if_neg (by simp [hs, hl])]
  split
  · rfl
  · split <;> rfl
end

/-- Settles O27: the rows of a served mailbox, each by the state of its reception or its transmission. -/
theorem isoTp : Obligations.IsoTp := by
  unfold Obligations.IsoTp
  intro m len sn st bs stMin bytes r x s
  dsimp only
  refine ⟨fun hs hr => ?_, fun hs hr => ?_, fun hs h0 h1 hr => ?_, fun hs h0 h1 hr => ?_, fun hs hl => ?_, fun hs hb hc hn hl => ?_, fun hs hb hc hn hl => ?_,
    fun hs hb hc hn => ?_, fun hs hb hl hbs => ?_, fun hs hb hl => ?_, fun hs hb hl => ?_, fun hs hb hl hst => ?_, fun h => ?_, fun h h' => ?_,
    fun hb hl => ?_, fun hb hc => ?_, fun hb hc => ?_, fun hb hl => ?_⟩
  · rw [isotpSingleFrame_served hs, if_pos hr]
  · exact ⟨_, isotpSingleFrame_served hs bytes, if_neg (by simp [hr])⟩
  · refine ⟨_, isotpFirstFrame_served hs h0 h1 bytes, ?_⟩
    dsimp only
    rw [hr, now_onBox]
    rfl
  · refine ⟨_, isotpFirstFrame_served hs h0 h1 bytes, ?_⟩
    dsimp only
    rw [hr, now_onBox]
    rfl
  · refine ⟨_, ?_, rfl⟩
    rw [exec_isotpFirstFrame, execIsotpFirstFrame, if_neg (by simp [overhears_of_canServed hs]), if_pos (by simp; omega)]
  · refine ⟨_, isotpConsecutiveFrame_served hs hb hc sn bytes, (if_neg (Classical.not_not.mpr hn)).trans ?_⟩
    rw [List.take_of_length_le (Nat.le_of_lt hl)]
    exact if_neg (Nat.ne_of_lt hl)
  · rw [isotpConsecutiveFrame_served hs hb hc sn bytes]
    exact congrArg _ ((if_neg (Classical.not_not.mpr hn)).trans (if_pos (by rw [List.length_take]; omega)))
  · refine ⟨_, isotpConsecutiveFrame_served hs hb hc sn bytes, if_pos hn⟩
  · rw [isotpFlowControl_served hs hb hl]
    simp [hbs]
  · rw [isotpFlowControl_served hs hb hl]
    simp
  · exact ⟨_, isotpFlowControl_served hs hb hl .., rfl⟩
  · rw [isotpFlowControl_served hs hb hl]
    simp only [if_neg (show st ≠ 0 by omega), if_neg (show st ≠ 1 by omega)]
  · exact if_pos h
  · exact (if_neg (by omega)).trans (if_pos (by simp [h, h']))
  · unfold isoStep
    rw [hb]
    dsimp only
    rw [if_pos (by simp [hl]), List.take_of_length_le hl]
  · refine ⟨fun hr => ?_, fun hr hw => ?_, fun hr hw => ?_⟩ <;> rw [exec_isotpWaitTimer, execIsotpWaitTimer, hb] <;> refine (if_neg (by simp [hc])).trans ?_
    · exact if_pos hr
    · exact (if_neg (by simp [hr])).trans (if_pos hw)
    · exact (if_neg (by simp [hr])).trans (if_neg (by omega))
  · rw [exec_isotpNCrTimeout, execIsotpNCrTimeout, hb]
    exact ⟨_, if_pos hc, rfl⟩
  · rw [exec_isotpNBsTimeout, execIsotpNBsTimeout, hb]
    exact if_neg (by simp [hl])

end Sys2Proof.Machine
end

section
/-! What a start-up, a loss of supply, a reset and the clocks change (O20, O21, O22). -/

namespace Sys2Proof.Machine
open Sys2Proof

/-! ### The supplies and the crystals, through a halt -/

theorem kept_ite_ground (c : Prop) [Decidable c] (a b : Kept) : (if c then a else b).ground = if c then a.ground else b.ground := apply_ite ..
@[simp] theorem kept_onExtMem_ground (f : List Host.Cell → List Host.Cell) (s : State) : (kept (onExtMem f s)).ground = (kept s).ground := rfl
@[simp] theorem kept_relayout_ground (new : Nat) (s : State) : (kept (relayout new s)).ground = (kept s).ground := by
  unfold relayout
  simp
@[simp] theorem kept_applySlot_ground (i : Nat) (x : Slot) (ref : Option CmdRef) (s : State) : (kept (applySlot i x ref s)).ground = (kept s).ground := by
  unfold applySlot
  simp [kept_ite_ground]
@[simp] theorem kept_stopExtCore_ground (s : State) : (kept (stopExtCore s)).ground = (kept s).ground := by
  unfold stopExtCore applyPending
  refine (foldl_keeps (fun s => (kept s).ground) (fun s x => ?_) _ _).trans ?_
  · exact kept_applySlot_ground ..
  · simp
    rfl
@[simp] theorem kept_abortWork_ground (why : Nat × Nat) (breach : Bool) (refs : List CmdRef) (s : State) :
    (kept (abortWork why breach refs s)).ground = (kept s).ground := by
  unfold abortWork
  simp
@[simp] theorem kept_haltWork_ground (why : Nat × Nat) (s : State) : (kept (haltWork why s)).ground = (kept s).ground := by
  unfold haltWork
  simp
@[simp] theorem kept_setPower_ground (o : EvOpt) (p : Power) (s : State) : (kept (setPower o p s)).ground = (kept s).ground := by
  unfold setPower
  simp
  rfl
@[simp] theorem kept_takeRole_ground (r : Role) (s : State) : (kept (takeRole r s)).ground = (kept s).ground := by
  unfold takeRole
  simp only [kept_emitT]
  rfl
@[simp] theorem kept_onPwr_ground (s : State) (f : Pwr → Pwr) (h : ∀ p, supplyKey (f p) = supplyKey p) : (kept (s.onPwr f)).ground = (kept s).ground := by
  simp [kept, h]
@[simp] theorem kept_enterStrandedBy_ground (ref : Nat × Nat) (f3 : Bool) (sensors : Nat) (tell : Bool) (s : State) :
    (kept (enterStrandedBy ref f3 sensors tell s)).ground = (kept s).ground := by
  unfold enterStrandedBy
  simp [kept_ite_ground]
@[simp] theorem kept_f3Fault_ground (code : Nat) (p : Bytes) (s : State) : (kept (f3Fault code p s)).ground = (kept s).ground := by
  unfold f3Fault
  simp
@[simp] theorem kept_bootVerify_ground (s : State) : (kept (bootVerify s)).ground = (kept s).ground := by
  unfold bootVerify
  dsimp only
  (repeat' split) <;> simp
theorem lifecycle_releaseBase (s : State) : lifecycle (releaseBase s) = lifecycle s := by
  unfold releaseBase
  split
  · simp [lifecycle, storedLifecycle, recBody]
  · rfl
/-- What a release of reset leaves of its own writes: nothing after them touches the supplies, the crystals or the vault's key. -/
theorem resetRelease_ground (xtal pair role test : Bool) (puf : Nat) (s : State) (h0 : s.pwr.phase = .rails) (h1 : s.pwr.vbatValid = true)
    (h2 : s.pwr.vddioValid = true) : Completes (exec (.resetRelease xtal pair role test puf) s) (fun t =>
      t.pwr.phase = .rom ∧ t.pwr.cwPair = pair ∧ t.pwr.cwRole = role ∧ t.clk.xtal26 = xtal ∧ t.clk.backup = !xtal ∧
      (t.pwr.scanTest = true ↔ test = true ∧ lifecycle s = .factory) ∧ (t.sec.vaultOk = true ↔ puf ≤ 3)) := by
  rw [exec_resetRelease, execResetRelease, if_neg (by simp [h0, h1, h2])]
  extract_lets a b c d e f
  have key : (kept (bootVerify (f.onPair (fun p => { p with role := if pair then .lee else .single })))).ground = (kept d).ground := by
    rw [kept_bootVerify_ground]
    refine Eq.trans (b := (kept f).ground) rfl ?_
    have hf : (kept f).ground = (kept e).ground := by
      unfold f
      split
      · rfl
      · exact kept_f3Fault_ground ..
    refine hf.trans ?_
    unfold e
    split
    · rfl
    · rw [kept_emit]
  have hs : b.pwr.scanTest = (test && decide (lifecycle s = .factory)) := by
    show (test && decide (lifecycle (releaseBase s) = .factory)) = _
    rw [lifecycle_releaseBase]
  refine ⟨_, rfl, congrArg (·.1.phase) key, congrArg (·.1.cwPair) key, congrArg (·.1.cwRole) key, congrArg (·.2.1.1) key, congrArg (·.2.1.2.1) key, ?_, ?_⟩
  · refine (iff_of_eq (congrArg (·.1.scanTest = true) key)).trans ?_
    show b.pwr.scanTest = true ↔ _
    rw [hs]
    simp
  · refine (iff_of_eq (congrArg (·.2.2 = true) key)).trans ?_
    show decide (puf ≤ 3) = true ↔ _
    simp
theorem powerOn_begins (vbat vddio : Nat) (s : State) (h0 : s.pwr.state = .off) (hb : 5000 ≤ vbat) (hd : 1620 ≤ vddio) :
    Completes (exec (.powerOn vbat vddio) s) (fun t =>
      t.pwr.state = .startup ∧ t.pwr.phase = .supplied ∧ t.pwr.vbatValid = true ∧ t.pwr.vddioValid = true ∧ t.pwr.faultN = true ∧
      t.rel.startA = false ∧ t.rel.startB = false ∧ t.lf.cur = none ∧ t.evt.seq = List.replicate 20 0 ∧ t.pending = s.pending) := by
  rw [exec_powerOn, execPowerOn, if_neg (by simp [h0])]
  dsimp only
  rw [if_neg (by simp; omega)]
  refine ⟨_, rfl, rfl, rfl, decide_eq_true hb, decide_eq_true hd, rfl, rfl, rfl, rfl, rfl, ?_⟩
  exact congrArg (·.off.1) (kept_countDriven (cutStore s) |>.trans (kept_cutStore s))
theorem firmwareStart_runs (s : State) (h : s.pwr.phase = .rom) : exec .firmwareStart s = .next (
    let v := (advanceTo (if coldStart s then 2400 else 1600) s).onPwr (fun p => { p with phase := .firmware })
    wires (startFaults (if v.pwr.recovery then flushEarly v else firmwareUp v))) := by
  rw [exec_firmwareStart, execFirmwareStart, if_neg (by simp [h])]
theorem holdMeasureEnd_stores (step fall : Nat) (s : State) (h : s.pwr.holdBusy = true) : Completes (exec (.holdMeasureEnd step fall) s) (fun t =>
    let esr := sat 65535 (roundDiv step 50)
    let c := if fall = 0 then 65535 else sat 65535 (roundDiv 495000000 fall)
    t.pwr.hold = some (c, esr) ∧ t.pwr.holdBusy = false ∧ t.pwr.charger = true ∧
    t.store.queue = s.store.queue ++ [{ cls := 3, items := [.record 0x0053 0 (le16 c ++ le16 esr)] }]) := by
  rw [exec_holdMeasureEnd, execHoldMeasureEnd, if_neg (by simp [h])]
  extract_lets esr c vh a p b d
  have hd : kept d = kept b := foldl_keeps kept (fun s x => kept_emitF ..) _ b
  have key : (kept (queueJob { cls := 3, items := [.record 0x0053 0 p] } d)).ground = (kept a).ground := by
    rw [kept_queueJob, hd, kept_emit]
  have hq : d.store.queue = s.store.queue := by
    refine (foldl_keeps (fun s : State => s.store.queue) (fun s x => ?_) _ b).trans ?_
    · exact congrArg Store.queue (emitX_store ..)
    · exact congrArg Store.queue (emitX_store ..)
  refine ⟨_, rfl, congrArg (·.1.hold) key, congrArg (·.1.holdBusy) key, congrArg (·.1.charger) key, ?_⟩
  exact congrArg (· ++ _) hq
theorem railFault_acts (mv rail : Nat) (s : State) (hn : s.pwr.phase ≠ .none) (hs : s.pwr.phase ≠ .supplied) (ha : s.pwr.state ≠ .neap) (h5 : rail < 5)
    (hb : bitSet s.pwr.railBad rail = false) (hl : ∀ lo hi, railLimits[rail]? = some (lo, hi) → ¬(lo ≤ mv ∧ mv ≤ hi)) :
    exec (.railFault rail mv) s = .next (
      enterStranded true 0 false (emitF evRailFault 3 [byte rail] (byte rail :: le16 (mv / 10))
        (cliffAct (s.onPwr (fun p => { p with railBad := setBit p.railBad rail }))))) := by
  rw [exec_railFault, execRailFault]
  cases hr : railLimits[rail]? with
  | none => exact absurd (List.getElem?_eq_none_iff.mp hr) (by simp [railLimits]; omega)
  | some x =>
    obtain ⟨lo, hi⟩ := x
    dsimp only
    rw [if_neg (by simp [hn, hs, ha]), if_neg (by simpa using hl lo hi hr), if_neg (by simp [hb]), if_neg ha]
theorem railFault_ends (mv rail : Nat) (s : State) (hn : s.pwr.phase ≠ .none) (hs : s.pwr.phase ≠ .supplied) (ha : s.pwr.state ≠ .neap)
    (hl : ∃ lo hi, railLimits[rail]? = some (lo, hi) ∧ lo ≤ mv ∧ mv ≤ hi) :
    exec (.railFault rail mv) s = .next (s.onPwr (fun p => { p with railBad := clrBit p.railBad rail })) := by
  obtain ⟨lo, hi, hr, h1, h2⟩ := hl
  rw [exec_railFault, execRailFault, hr]
  dsimp only
  rw [if_neg (by simp [hn, hs, ha]), if_pos (by simp [h1, h2])]
theorem crossing_rel (code cls num mv : Nat) (bad : Bool) (s : State) : (crossing code cls num mv bad s).rel = s.rel := by
  unfold crossing
  split
  · rfl
  · split
    · exact emitX_rel ..
    · exact emitX_rel ..
theorem vbatFull_falls (mv : Nat) (s : State) (h : s.pwr.vbatFull = true) (hm : mv < 5900) : Completes (exec (.supplyMonitorCrossing .vbatFull mv) s) (fun t =>
    t.pwr.vbatFull = false ∧ t.pwr.vbat = mv ∧ t.pwr.vrelValid = s.pwr.vrelValid ∧ t.pwr.vlfValid = s.pwr.vlfValid) := by
  rw [exec_supplyMonitorCrossing, execSupplyMonitorCrossing]
  dsimp only
  rw [if_pos (by simp [h, hm])]
  have key := fun w => congrArg Kept.ground (kept_crossing evVbatReduced 0 0 mv true w)
  exact ⟨_, rfl, congrArg (·.1.vbatFull) (key _), congrArg (·.1.vbat) (key _), congrArg (·.1.vrelValid) (key _), congrArg (·.1.vlfValid) (key _)⟩
theorem vbatFull_rises (mv : Nat) (s : State) (h : s.pwr.vbatFull = false) (hm : 6100 < mv) :
    Completes (exec (.supplyMonitorCrossing .vbatFull mv) s) (fun t => t.pwr.vbatFull = true) := by
  rw [exec_supplyMonitorCrossing, execSupplyMonitorCrossing]
  dsimp only
  rw [if_neg (by simp [h]), if_pos (by simp [h, hm])]
  exact ⟨_, rfl, congrArg (·.ground.1.vbatFull) (kept_crossing ..)⟩
theorem vlfValid_falls (mv g : Nat) (s : State) (h : s.pwr.vlfValid.getD g false = true) (hm : mv < 5900) :
    Completes (exec (.supplyMonitorCrossing (.vlfValid g) mv) s) (fun t =>
      t.pwr.vlfValid = s.pwr.vlfValid.set g false ∧ t.pwr.vbatFull = s.pwr.vbatFull) := by
  rw [exec_supplyMonitorCrossing, execSupplyMonitorCrossing]
  dsimp only
  rw [if_pos (by rw [h]; simp [hm])]
  have key := fun w => congrArg Kept.ground ((kept_groupLost g _).trans (kept_crossing evVlfLow 1 (g + 1) mv true w))
  exact ⟨_, rfl, congrArg (·.1.vlfValid) (key _), congrArg (·.1.vbatFull) (key _)⟩
theorem vrelValid_falls (mv : Nat) (s : State) (h : s.pwr.vrelValid = true) (hm : mv < 5900) :
    Completes (exec (.supplyMonitorCrossing .vrelValid mv) s) (fun t => t.pwr.vrelValid = false ∧ t.rel.startA = false ∧ t.rel.startB = s.rel.startB) := by
  rw [exec_supplyMonitorCrossing, execSupplyMonitorCrossing]
  dsimp only
  rw [if_pos (by simp [h, hm])]
  exact ⟨_, rfl, congrArg (·.ground.1.vrelValid) (kept_crossing ..), (congrArg Rel.startA (crossing_rel ..)).trans rfl,
    (congrArg Rel.startB (crossing_rel ..)).trans rfl⟩
theorem vbatOv_ends (mv : Nat) (s : State) (h : s.pwr.vbatOv = true) (hm : mv < 39500) :
    Completes (exec (.supplyMonitorCrossing .vbatOv mv) s) (fun t => t.pwr.vbatOv = false) := by
  rw [exec_supplyMonitorCrossing, execSupplyMonitorCrossing]
  dsimp only
  rw [if_pos (by simp [h, hm])]
  exact ⟨_, rfl, congrArg (·.ground.1.vbatOv) (kept_crossing ..)⟩
theorem vddioValid_falls (mv : Nat) (s : State) (h : s.pwr.vddioValid = true) (hm : mv < 1550) :
    Completes (exec (.supplyMonitorCrossing .vddioValid mv) s) (fun t => t.pwr.vddioValid = false) := by
  rw [exec_supplyMonitorCrossing, execSupplyMonitorCrossing]
  dsimp only
  rw [if_pos (by simp [h, hm])]
  exact ⟨_, rfl, congrArg (·.ground.1.vddioValid) (kept_crossing ..)⟩
theorem overvoltageTrip_vbat (mv : Nat) (s : State) (hn : s.pwr.phase ≠ .none) (hm : 40500 < mv) (h : s.pwr.vbatOv = false) :
    Completes (exec (.overvoltageTrip 0 mv) s) (fun t => t.pwr.vbatOv = true ∧ t.pwr.vbat = mv) := by
  rw [exec_overvoltageTrip, execOvervoltageTrip, if_neg (by simp [hn]; omega), if_pos rfl, if_neg (by simp [h])]
  have key := fun w => congrArg Kept.ground ((kept_bridgesOff _).trans (kept_crossing evVbatOv 1 0 mv true w))
  exact ⟨_, rfl, congrArg (·.1.vbatOv) (key _), congrArg (·.1.vbat) (key _)⟩

/-- Settles O20: what a row writes of the supplies stands, since the events and the stops after it keep them (`kept`). -/
theorem startUp : Obligations.StartUp := by
  unfold Obligations.StartUp
  refine ⟨fun vbat vddio puf xtal pair role test s => ⟨powerOn_begins vbat vddio s, fun hp hb hd => ?_, resetRelease_ground xtal pair role test puf s,
      fun hp hv => ?_, firmwareStart_runs s, fun hp => ?_⟩, fun step fall s => ⟨fun hp hc hh hb hk => ?_, holdMeasureEnd_stores step fall s⟩,
    fun mv g rail s => ⟨vbatFull_falls mv s, vbatFull_rises mv s, fun _ => vlfValid_falls mv g s, vrelValid_falls mv s, vbatOv_ends mv s,
      vddioValid_falls mv s, fun hn hm h _ => overvoltageTrip_vbat mv s hn hm h, railFault_acts mv rail s, railFault_ends mv rail s⟩⟩
  · rw [exec_railsWithinLimits, execRailsWithinLimits, if_neg (by simp [hp, hb, hd])]
    exact ⟨_, rfl, rfl, rfl, rfl, rfl⟩
  · rw [exec_resetRelease, execResetRelease, if_pos (by rcases hv with hv | hv <;> simp [hv])]
  · rw [exec_mailboxReady, execMailboxReady, if_neg (by simp [hp])]
  · rw [exec_vholdCharged, execVholdCharged, if_neg (by simp [hp, hc, hh, hb, hk])]
    exact ⟨_, rfl, rfl, rfl, rfl⟩
/-! ### Loss and return of VBAT -/

/-- No burst drives and no ranging session is open. -/
def Outs.Still (o : Outs) : Prop := o.burst = none ∧ o.sessions = []
theorem still_closePath {n : Nat} {d : Option Nat} {s : State} (h : (outs s).Still) : (outs (closePath n d s)).Still := by
  obtain ⟨hb, hs⟩ := h
  have hw : (outs (stopPathWork s)).Still := by
    have hcur : s.lf.cur = none := hb
    unfold stopPathWork
    simp only [hcur]
    split
    · rw [outs_ite, outs_endTx]
      split
      · exact ⟨hb, hs⟩
      · exact ⟨hb, hs⟩
    · exact ⟨hb, hs⟩
  have hc : outs (closePath n d s) = outs (stopPathWork s) := by simp [closePath]
  exact hc ▸ hw
theorem still_denyPath {reason : Nat} {s : State} (h : (outs s).Still) : (outs (denyPath reason s)).Still := by
  unfold denyPath denyPathBy
  dsimp only
  split
  · exact h
  · split
    · exact h
    · refine still_closePath ?_
      split
      · exact h
      · exact h
      · simpa using h
theorem cur_suspendBurst (s : State) : (suspendBurst s).lf.cur = none := by
  unfold suspendBurst
  extract_lets u
  split
  · assumption
  · have hcut : (cutBurst u).lf.cur = none := congrArg Outs.burst (outs_cutBurst u)
    split
    · exact hcut
    · split
      · split
        · exact hcut
        · exact hcut
      · exact hcut
theorem lf_suspendTx (s : State) : (suspendTx s).lf = s.lf := by
  unfold suspendTx
  split
  · split
    · rfl
    · rfl
  · rfl
theorem crossing_clk (code cls num mv : Nat) (bad : Bool) (s : State) : (crossing code cls num mv bad s).clk = s.clk := by
  unfold crossing
  split
  · rfl
  · split
    · exact emitX_clk ..
    · exact emitX_clk ..
theorem boundaryM_clk (b : Bound) (s : State) : (boundaryM b s).clk = s.clk := mirror_clk ..
/-- The state in which a loss of VBAT leaves the device but for a transponder exchange, which it then denies. -/
theorem vbatLoss_suspends (mv : Nat) (s : State) (hv : s.pwr.vbatValid = true) (hm : mv < 4500) (hp : s.pwr.phase ≠ .none) :
    Completes (exec (.vbatLoss mv) s) (fun t => t.pwr.vbatValid = false ∧ t.pwr.vbat = mv ∧
    t.pwr.charger = false ∧ t.pwr.holdBusy = false ∧ t.pwr.ride = some s.clk.mono ∧ t.lf.cur = none ∧ t.uwb.sessions = []) := by
  rw [exec_vbatLoss, execVbatLoss, if_neg (by simp [hv]; omega), if_neg hp]
  extract_lets vh a b c d e
  have hclk : b.clk.mono = s.clk.mono := congrArg Clk.mono ((crossing_clk ..).trans (boundaryM_clk ..))
  have hsus : (kept (suspendTx (suspendBurst b))).ground.1 = (kept a).ground.1 := by
    rw [kept_suspendTx, kept_suspendBurst, kept_crossing]
  have hground : (kept e).ground.1 = { (kept a).ground.1 with ride := some s.clk.mono } := by
    unfold e d
    rw [kept_updateUwb, kept_boundaryM, kept_boundaryM, ← hclk]
    exact congrArg (fun p : Pwr => { p with ride := some b.clk.mono }) hsus
  unfold a at hground
  rw [kept_boundaryM] at hground
  have hstill : (outs e).Still := by
    have hd : (outs d).Still := ⟨(congrArg Lf.cur (lf_suspendTx _)).trans (cur_suspendBurst b), rfl⟩
    unfold e
    simpa using hd
  clear_value e
  have fields : ∀ t, kept t = kept e → (outs t).Still → t.pwr.vbatValid = false ∧ t.pwr.vbat = mv ∧
      t.pwr.charger = false ∧ t.pwr.holdBusy = false ∧ t.pwr.ride = some s.clk.mono ∧ t.lf.cur = none ∧ t.uwb.sessions = [] := fun t hk ho => by
    have hg := (congrArg (·.ground.1) hk).trans hground
    exact ⟨congrArg Pwr.vbatValid hg, congrArg Pwr.vbat hg, congrArg Pwr.charger hg, congrArg Pwr.holdBusy hg, congrArg Pwr.ride hg, ho.1, ho.2⟩
  split
  · refine ⟨_, rfl, ?_⟩
    split
    · exact fields _ (kept_denyPath ..) (still_denyPath hstill)
    · exact fields _ rfl hstill
  · exact ⟨_, rfl, fields _ rfl hstill⟩
theorem vbatReturn_rides (mv t0 : Nat) (s : State) (hm : 5000 < mv) (hv : s.pwr.vbatValid = false) (hr : s.pwr.ride = some t0)
    (ht : s.clk.mono < t0 + 1000 * param s 0x0104) (he : 8000 < eUsable s) : Completes (exec (.vbatReturn mv) s) (fun t =>
      t.pwr.vbatValid = true ∧ t.pwr.vbat = mv ∧ t.pwr.charger = true ∧ t.pwr.ride = none) := by
  rw [exec_vbatReturn, execVbatReturn, if_neg (by simp [hv]; omega)]
  dsimp only
  rw [hr]
  dsimp only
  rw [if_neg (by simp; omega)]
  have key := fun c b p u => congrArg (·.ground.1) ((kept_resendRepoll _).trans ((kept_txAgain _).trans ((kept_emit evVbatDip 0 p _).trans
    (kept_crossing evVbatLoss c b mv false u))))
  exact ⟨_, rfl, congrArg Pwr.vbatValid (key _ _ _ _), congrArg Pwr.vbat (key _ _ _ _), congrArg Pwr.charger (key _ _ _ _),
    congrArg Pwr.ride (key _ _ _ _)⟩
theorem vbatReturn_late (mv t0 : Nat) (s : State) (hr : s.pwr.ride = some t0) (h : t0 + 1000 * param s 0x0104 ≤ s.clk.mono ∨ eUsable s ≤ 8000) :
    exec (.vbatReturn mv) s = .next s := by
  rw [exec_vbatReturn, execVbatReturn]
  split
  · rfl
  · dsimp only
    rw [hr]
    dsimp only
    rw [if_pos (by rcases h with h | h <;> simp [h])]
theorem vbatReturn_shut (mv : Nat) (s : State) (hm : 5000 < mv) (hv : s.pwr.vbatValid = false) (hr : s.pwr.ride = none) (hs : s.pwr.shutdown = true) :
    Completes (exec (.vbatReturn mv) s) (fun t => t.pwr.vbatValid = true ∧ t.pwr.vbat = mv ∧ t.pwr.shutdown = true) := by
  rw [exec_vbatReturn, execVbatReturn, if_neg (by simp [hv]; omega)]
  dsimp only
  rw [hr]
  dsimp only
  rw [if_pos hs]
  exact ⟨_, rfl, rfl, rfl, hs⟩
theorem vbatReturn_up (mv : Nat) (s : State) (hm : 5000 < mv) (hv : s.pwr.vbatValid = false) (hr : s.pwr.ride = none) (hs : s.pwr.shutdown = false) :
    Completes (exec (.vbatReturn mv) s) (fun t => t.pwr.vbatValid = true ∧ t.pwr.charger = true ∧ t.pwr.ride = none) := by
  rw [exec_vbatReturn, execVbatReturn, if_neg (by simp [hv]; omega)]
  dsimp only
  rw [hr]
  dsimp only
  rw [if_neg (by simp [hs])]
  have key := fun u => congrArg (·.ground.1) (kept_crossing evVbatLoss 1 0 mv false u)
  exact ⟨_, rfl, congrArg Pwr.vbatValid (key _), congrArg Pwr.charger (key _), congrArg Pwr.ride (key _)⟩
theorem rideThroughExpiry_shuts (s : State) (h : s.pwr.ride ≠ none) : Completes (exec .rideThroughExpiry s) (fun t =>
    t.pwr.shutdown = true ∧ t.pwr.ride = none ∧ t.pwr.hostRdy = false ∧ t.pwr.state = .startup ∧ t.pwr.phase = .none) := by
  rw [exec_rideThroughExpiry, execRideThroughExpiry]
  split
  · next hn => exact absurd hn h
  · exact ⟨_, rfl, rfl, rfl, rfl, rfl, rfl⟩
/-! ### Resets -/

theorem resetBy_acts (cause : Nat) (s : State) (h0 : s.pwr.state ≠ .off) (hs : s.pwr.shutdown = false) (hp : s.pwr.phase ≠ .supplied) :
    resetBy cause s = restart false cause (cellEnds s) := if_neg (by simp [h0, hs, hp])
theorem kept_storeCut (s : State) : kept (countDriven (cutStore (cellEnds s))) = kept s := by
  rw [kept_countDriven, kept_cutStore]
  exact kept_cellEnds s
theorem restart_state (cause : Nat) (s : State) : (restart false cause s).pwr.state = .startup ∧ (restart false cause s).pwr.phase = .rails ∧
    (restart false cause s).pwr.cause = cause ∧ (restart false cause s).evt.seq = List.replicate 20 0 ∧
    (restart false cause s).pending = (countDriven (cutStore s)).pending ∧ (restart false cause s).pwr.wdt = (countDriven (cutStore s)).pwr.wdt :=
  ⟨rfl, rfl, rfl, rfl, rfl, rfl⟩
theorem resetN_restarts (low : Nat) (s : State) (hl : 2 ≤ low) (h0 : s.pwr.state ≠ .off) (hs : s.pwr.shutdown = false) (hp : s.pwr.phase ≠ .supplied) :
    Completes (exec (.resetNAssert low) s) (fun t =>
      t.pwr.state = .startup ∧ t.pwr.phase = .rails ∧ t.pwr.cause = 1 ∧ t.pending = s.pending ∧ t.evt.seq = List.replicate 20 0) := by
  rw [exec_resetNAssert, execResetNAssert, if_neg (by omega), resetBy_acts 1 s h0 hs hp]
  obtain ⟨hst, hph, hca, hseq, hpend, _⟩ := restart_state 1 (cellEnds s)
  exact ⟨_, rfl, hst, hph, hca, hpend.trans (congrArg (·.off.1) (kept_storeCut s)), hseq⟩
theorem watchdog_restarts (s : State) (h0 : s.pwr.state ≠ .off) (hs : s.pwr.shutdown = false) (hp : s.pwr.phase ≠ .supplied) (hn : s.pwr.phase ≠ .none) :
    Completes (exec .watchdogExpiry s) (fun t => t.pwr.state = .startup ∧ t.pwr.phase = .rails ∧ t.pwr.cause = 3 ∧ s.clk.mono ∈ t.pwr.wdt) := by
  rw [exec_watchdogExpiry, execWatchdogExpiry, if_neg (by simp [hp, hn])]
  extract_lets l
  rw [resetBy_acts]
  · obtain ⟨hst, hph, hca, _, _, hw⟩ := restart_state 3 (cellEnds (s.onPwr (fun p => { p with wdt := l, wdtSeen := (l.length, l.length ≥ 3) })))
    refine ⟨_, rfl, hst, hph, hca, ?_⟩
    rw [hw.trans (congrArg (·.ground.1.wdt) (kept_storeCut _))]
    exact List.mem_append_right _ (List.mem_singleton_self _)
  · exact h0
  · exact hs
  · exact hp
theorem hostReset_restarts (s : State) (hr : s.pwr.resetAfter = true)
    (hw : ∀ f ∈ s.mbx.out ++ s.mbx.outPri ++ s.mmb.out ++ s.mmb.outPri, f.opcode ≠ 0x0103) (h0 : s.pwr.state ≠ .off) (hs : s.pwr.shutdown = false)
    (hp : s.pwr.phase ≠ .supplied) : Completes (exec .hostReset s) (fun t => t.pwr.phase = .rails ∧ t.pwr.cause = 2) := by
  rw [exec_hostReset, execHostReset]
  dsimp only
  rw [if_neg, resetBy_acts 2 s h0 hs hp]
  · exact ⟨_, rfl, rfl, rfl⟩
  · simp only [List.mem_append] at hw
    simp only [hr, List.any_append, Bool.not_true, Bool.false_or, Bool.or_eq_true, List.any_eq_true, decide_eq_true_eq]
    grind
/-! ### Idling and waking -/

theorem floodIdle_slackens (s : State) (ha : awake s = true) (hf : s.pwr.state = .flood) (hi : floodIdle s = true) (hr : riding s = false) :
    Completes (exec .floodIdleExpiry s) (fun t => t.pwr.state = .slack) := by
  rw [exec_floodIdleExpiry, execFloodIdleExpiry, if_neg (by simp [ha, hf, hi, hr])]
  exact ⟨_, rfl, mirror_pwr_state ..⟩
theorem neapEntry_enters (s : State) (hn : s.pwr.neapEntry = true) (ha : awake s = true) (hr : neapReady none s = true) :
    Completes (exec .neapEntryDone s) (fun t => t.pwr.state = .neap ∧ t.pwr.neapEntry = false ∧ t.pwr.hostRdy = false) := by
  rw [exec_neapEntryDone, execNeapEntryDone, if_neg (by simp [hn, ha]), if_pos hr]
  exact ⟨_, rfl, mirror_pwr_state .., mirror_pwr_neapEntry .., mirror_pwr_hostRdy ..⟩
theorem timerWake_wakes (w : Nat) (s : State) (hw : s.clk.wakeEdge = some w) (hs : s.pwr.state = .neap) : exec .timerWake s = .next (neapWake 0x41 false
    ((advanceBase ((s.clk.frac + (w - s.clk.edges) * s.clk.pBefore) / 65536) s).onClk (fun c => { c with
      frac := (s.clk.frac + (w - s.clk.edges) * s.clk.pBefore) % 65536, edges := c.edges + (w - s.clk.edges) }))) := by
  rw [exec_timerWake, execTimerWake, hw]
  dsimp only
  rw [if_neg (by simp [hs])]

/-- Settles O21: a reset begins the machine again over what the store kept; what a loss of VBAT wrote stands to its end. -/
theorem lossAndReset : Obligations.LossAndReset := by
  unfold Obligations.LossAndReset
  refine ⟨fun mv low s => ⟨vbatLoss_suspends mv s, fun t0 => vbatReturn_rides mv t0 s, fun t0 => vbatReturn_late mv t0 s, vbatReturn_shut mv s,
      vbatReturn_up mv s, rideThroughExpiry_shuts s, fun hs => ?_, resetN_restarts low s, watchdog_restarts s, hostReset_restarts s, fun d k hc => ?_,
      fun h => ?_⟩,
    fun s => ⟨floodIdle_slackens s, fun ha hs hn hr => ?_, neapEntry_enters s, fun hn ha hr => ?_, fun hst ho ht hr => ?_, fun ho ht hr => ?_, fun ho => ?_,
      fun w hw _ hs => timerWake_wakes w s hw hs⟩⟩
  · rw [exec_vholdFloor, execVholdFloor, if_neg (by simp [hs])]
    exact ⟨_, rfl, rfl, rfl, rfl, rfl, rfl, rfl, rfl⟩
  · rw [exec_isthmusTransferFail, execIsthmusTransferFail, if_neg (by simp [hc])]
  · rw [exec_isthmusWatchdogExpiry, execIsthmusWatchdogExpiry, if_neg]
    simp only [Bool.and_eq_true, Bool.or_eq_true, Option.isNone_iff_eq_none, decide_eq_true_eq, Bool.not_eq_true', not_and]
    intro ⟨⟨hc, hso⟩, ha⟩ hb
    simp [hc, ha, hb] at h
    rcases hso with hso | hso <;> simp [hso] at h
  · rw [exec_slackIdleExpiry, execSlackIdleExpiry, if_neg (by simp [ha, hs, hn, hr])]
    exact ⟨_, rfl, rfl, rfl⟩
  · rw [exec_neapEntryDone, execNeapEntryDone, if_neg (by simp [hn, ha]), if_neg (by simp [hr])]
    exact ⟨_, rfl, rfl, rfl, rfl⟩
  · rw [exec_spiCsAssert, execSpiCsAssert, if_neg ho, if_neg (by simp), if_neg (by simp [ht]), if_neg (by simp [hr])]
    exact congrArg _ (if_pos hst)
  · rw [exec_spiCsAssert, execSpiCsAssert, if_neg ho, if_neg (by simp), if_neg (by simp [ht]), if_pos hr]
  · rw [exec_spiCsAssert, execSpiCsAssert, if_neg ho, if_pos (by simp)]
    exact ⟨_, rfl, rfl⟩
/-! ### The crystals -/

theorem xtal26Recovered_clears (s : State) (hx : s.clk.xtal26 = false) (hc : coreClock s = true) :
    Completes (exec .xtal26Recovered s) (fun t => t.clk.xtal26 = true ∧ t.clk.backup = false) := by
  rw [exec_xtal26Recovered, execXtal26Recovered, if_neg (by simp [hx, hc])]
  extract_lets u v
  have key : (kept (updateUwb (emitC evXtal26Fail 3 [] [] v))).ground.2.1 = crystalKey u.clk := by
    rw [kept_updateUwb, kept_emitC]
    unfold v
    split
    · rfl
    · rfl
  exact ⟨_, rfl, congrArg (·.1) key, congrArg (·.2.1) key⟩
theorem xtal32Qualified_selects (s : State) (hq : s.clk.xtal32 = .qualifying) (hx : s.clk.xtal26 = true) (hn : s.pwr.state ≠ .neap) :
    Completes (exec .xtal32Qualified s) (fun t =>
      t.clk.xtal32 = .qualified ∧ t.clk.slowOnXtal = true ∧ s.clk.xtal32From + 31250 ≤ t.clk.base) := by
  rw [exec_xtal32Qualified, execXtal32Qualified, if_neg (by simp [hq, hx, hn])]
  exact ⟨_, rfl, rfl, rfl, (advanceTo_base .. ▸ Nat.le_max_left ..)⟩
theorem xtal32Absent_reports (s : State) (hq : s.clk.xtal32 = .qualifying) (hn : s.pwr.state ≠ .neap) : Completes (exec .xtal32Absent s) (fun t =>
    t.clk.xtal32 = .absent ∧ t.clk.slowOnXtal = s.clk.slowOnXtal ∧ s.clk.xtal32From + 1000000 ≤ t.clk.base) := by
  rw [exec_xtal32Absent, execXtal32Absent, if_neg (by simp [hq, hn])]
  have hclk := fun u => emitX_clk evXtal32Absent 0 [] {} u
  refine ⟨_, rfl, congrArg Clk.xtal32 (hclk _), (congrArg Clk.slowOnXtal (hclk _)).trans ?_, ?_⟩
  · exact congrArg (·.ground.2.1.2.2.2.1) (kept_advanceTo _ s)
  · refine Nat.le_trans ?_ (Nat.le_of_eq (congrArg Clk.base (hclk _)).symm)
    exact advanceTo_base .. ▸ Nat.le_max_left ..
theorem xtal32Fail_deselects (s : State) (hq : s.clk.xtal32 = .qualified) :
    Completes (exec .xtal32Fail s) (fun t => t.clk.xtal32 = .failed ∧ t.clk.slowOnXtal = false) := by
  rw [exec_xtal32Fail, execXtal32Fail, if_neg (by simp [hq])]
  exact ⟨_, rfl, congrArg Clk.xtal32 (emitX_clk ..), congrArg Clk.slowOnXtal (emitX_clk ..)⟩

/-! ### The tide clock -/

theorem tideCorrection_settles (p : Nat) (s : State) (hd : s.clk.corrDue = true) (hr : running s = true) :
    Completes (exec (.tideCorrection p) s) (fun t =>
      let c := roundDivI ((s.clk.edges : Int) * ((p : Int) - s.clk.pBefore)) 131072
      t.clk.corrDue = false ∧ t.clk.base = s.clk.base ∧ t.clk.offset = s.clk.offset + max (c - s.clk.slew) 0 ∧
      t.clk.slew = ((s.clk.slew : Int) - c).toNat) := by
  rw [exec_tideCorrection, execTideCorrection, if_neg (by simp [hd, hr])]
  extract_lets c t0 sum u v
  have hv : v.clk = u.clk := by
    unfold v
    split
    · exact emitX_clk ..
    · rfl
  have key : (emit evTideCorrected 0 (le32 (twos 32 c)) v).clk = u.clk := (emitX_clk ..).trans hv
  refine ⟨_, rfl, congrArg Clk.corrDue key, (congrArg Clk.base key).trans rfl, (congrArg Clk.offset key).trans ?_, (congrArg Clk.slew key).trans ?_⟩
  · show (if sum > 0 then s.clk.offset + sum else s.clk.offset) = _
    split <;> omega
  · show (if sum < 0 then sum.natAbs else 0) = _
    split <;> omega
theorem toWrap_base (n : Nat) (s : State) : s.clk.base ≤ (toWrap n s).clk.base := by
  induction n generalizing s with
  | zero => exact Nat.le_refl _
  | succ n ih =>
    have hpass : s.clk.base ≤ (passUs (2 ^ 48 - tide s) s).clk.base := by rw [passUs_base]; exact Nat.le_add_right ..
    unfold toWrap
    dsimp only
    split
    · exact hpass
    · exact Nat.le_trans hpass (ih _)
theorem wrap_lands (b : Nat) (o : Int) : (((b + (2 ^ 48 - (((b : Int) + o) % (2 ^ 48 : Nat)).toNat) : Nat) : Int) + o) % (2 ^ 48 : Nat) = 0 := by
  omega
theorem laterStamp_idem (a : Nat) : laterStamp (laterStamp a 0) 0 = laterStamp a 0 := by
  unfold laterStamp
  split
  · rfl
  · rfl
theorem getD_set_same {α : Type} (l : List α) (i : Nat) (x d : α) : (l.set i x).getD i d = l.getD i d ∨ (l.set i x).getD i d = x := by
  by_cases h : i < l.length
  · exact .inr (by simp [List.getD_eq_getElem?_getD, h])
  · exact .inl (by simp [List.getD_eq_getElem?_getD, h])
theorem length_getD_modAt_append {α : Type} (l : List (List α)) (i : Nat) (x : α) :
    ((modAt l i (· ++ [x])).getD i []).length ≤ (l.getD i []).length + 1 := by
  rw [modAt_eq_modify]
  by_cases h : i < l.length
  · simp [List.getD_eq_getElem?_getD, h]
  · simp [List.getD_eq_getElem?_getD, h]
/-- Telling a source's lost records takes one place of its queue, and one stamp of the source. -/
theorem flushLost_evt (src : Nat) (s : State) : (flushLost src s).evt = s.evt ∨ ∃ r, (flushLost src s).evt.queues = modAt s.evt.queues src (· ++ [r]) ∧
    (flushLost src s).evt.stamp = s.evt.stamp.set src (laterStamp (s.evt.stamp.getD src 0) (tide s)) := by
  unfold flushLost
  split
  · exact .inl rfl
  · split
    · exact .inr ⟨_, rfl, rfl⟩
    · exact .inl rfl
/-- A record for which its queue has room stands there with its time. -/
theorem placeRecord_queue (r : EvRec) (s : State) (hc : r.code ≠ evCmdDone) (hn : (s.evt.queues.getD r.source []).length < 16) :
    (placeRecord r s).evt.queues = modAt s.evt.queues r.source (· ++ [r]) := by
  unfold placeRecord
  simp only [State.onEvt]
  rw [if_neg hc, if_pos hn]
theorem raiseX_wrap (s : State) (at_ : Nat) : ∃ r : EvRec, r.code = evTideWrap ∧ r.source = 2 ∧
    r.time = laterStamp ((flushLost 2 s).evt.stamp.getD 2 0) at_ ∧
    (raiseX evTideWrap 0 [] { at_ := some at_ } s).evt.queues = (placeRecord r (stampFor 2 at_ (flushLost 2 s)).2.2).evt.queues :=
  ⟨_, rfl, rfl, rfl, rfl⟩
theorem raiseX_wrap_stands (s : State) (hq : 2 < s.evt.queues.length) (hn : (s.evt.queues.getD 2 []).length < 15) (ht : tide s = 0) :
    ∃ r ∈ (raiseX evTideWrap 0 [] { at_ := some 0 } s).evt.queues.getD 2 [], r.code = evTideWrap ∧ r.time = laterStamp (s.evt.stamp.getD 2 0) 0 := by
  obtain ⟨r, hcode, hsrc, htime, hqueues⟩ := raiseX_wrap s 0
  have hroom : ((flushLost 2 s).evt.queues.getD 2 []).length < 16 ∧ 2 < (flushLost 2 s).evt.queues.length := by
    rcases flushLost_evt 2 s with h | ⟨x, h, -⟩
    · rw [h]
      exact ⟨by omega, hq⟩
    · rw [h]
      have := length_getD_modAt_append s.evt.queues 2 x
      exact ⟨by omega, by simpa [modAt_eq_modify] using hq⟩
  have hstamp : laterStamp ((flushLost 2 s).evt.stamp.getD 2 0) 0 = laterStamp (s.evt.stamp.getD 2 0) 0 := by
    rcases flushLost_evt 2 s with h | ⟨x, -, h⟩
    · rw [h]
    · rw [h, ht]
      rcases getD_set_same s.evt.stamp 2 (laterStamp (s.evt.stamp.getD 2 0) 0) 0 with h | h
      · rw [h]
      · rw [h, laterStamp_idem]
  refine ⟨r, ?_, hcode, htime.trans hstamp⟩
  rw [hqueues, placeRecord_queue]
  · rw [hsrc, show (stampFor 2 0 (flushLost 2 s)).2.2.evt.queues = (flushLost 2 s).evt.queues from rfl, getD_modAt_same hroom.2]
    exact List.mem_append_right _ (List.mem_singleton_self _)
  · rw [hcode]
    decide
  · rw [hsrc]
    exact hroom.1
theorem countersPass_evt (us : Nat) (s : State) : (countersPass us s).evt = s.evt := by
  unfold countersPass
  split
  · rfl
  · rfl
theorem budgetPass_evt (us : Nat) (s : State) : (budgetPass us s).evt = s.evt := by
  unfold budgetPass
  split
  · rfl
  · rfl
theorem canPass_of_empty {s : State} (h : s.bus.canTx = []) : canPass s = s := if_pos (by simp [h])
theorem passUs_evt_clk (us : Nat) (s : State) (h : s.bus.canTx = []) :
    (passUs us s).evt = (advanceBase us s).evt ∧ (passUs us s).clk.base = (advanceBase us s).clk.base ∧ (passUs us s).clk.offset = (advanceBase us s).clk.offset := by
  unfold passUs
  rw [canPass_of_empty (by simpa using h)]
  refine ⟨?_, ?_, ?_⟩
  · exact (budgetPass_evt ..).trans (countersPass_evt ..)
  · exact (congrArg Clk.base ((budgetPass_clk us _).trans (countersPass_clk us _)) :)
  · exact (congrArg Clk.offset ((budgetPass_clk us _).trans (countersPass_clk us _)) :)
/-- The clock as time without a slew leaves it. -/
def State.atBase (us : Nat) (s : State) : State :=
  s.onClk (fun c => { c with base := s.clk.base + us, mono := c.mono + us, offset := c.offset - (0 : Nat), slew := c.slew - 0 })
theorem advanceBase_wraps (us : Nat) (s : State) (hr : running s = true) (hs : s.clk.slew = 0) (hu : 0 < us) (ht : tide (s.atBase us) < tide s) :
    advanceBase us s = raiseX evTideWrap 0 [] { at_ := some 0 } (s.atBase us) := by
  unfold advanceBase
  extract_lets t0 b k v
  have hk : k = 0 := by simp [k, hs]
  have hv : v = s.atBase us := by
    unfold v
    rw [hk]
    rfl
  clear_value v
  rw [hv, if_pos (by simp [hu, t0, ht])]
  unfold emitX
  refine if_neg ?_
  have hp : s.pwr.phase = .ready := by simp [running] at hr; exact hr.1
  simp [heldBack, State.atBase, State.onClk, hp]
theorem tide_congr {s t : State} (hb : s.clk.base = t.clk.base) (ho : s.clk.offset = t.clk.offset) : tide s = tide t := by
  unfold tide
  rw [hb, ho]
theorem tide_atBase (s : State) : tide (s.atBase (2 ^ 48 - tide s)) = 0 := by
  have h : (s.atBase (2 ^ 48 - tide s)).clk.offset = s.clk.offset := Int.sub_zero _
  have hb : (s.atBase (2 ^ 48 - tide s)).clk.base = s.clk.base + (2 ^ 48 - tide s) := rfl
  rw [tide, h, hb, tide, wrap_lands]
  rfl
theorem raiseX_clk (code cls : Nat) (p : Bytes) (o : EvOpt) (s : State) : (raiseX code cls p o s).clk = s.clk :=
  (congrArg State.clk (evFrame_raiseX code cls p o s) : (evFrame (raiseX code cls p o s)).clk = (evFrame s).clk)
theorem tideWrap_lands (s : State) (hr : running s = true) (hs : s.clk.slew = 0) (hc : s.bus.canTx = []) (h0 : 0 < tide s)
    (hq : 2 < s.evt.queues.length) (hn : (s.evt.queues.getD 2 []).length < 15) : Completes (exec .tideWrap s) (fun t =>
    tide t = 0 ∧ t.clk.base = s.clk.base + (2 ^ 48 - tide s) ∧ t.clk.offset = s.clk.offset ∧
    (∃ r ∈ t.evt.queues.getD 2 [], r.code = evTideWrap ∧ r.time = laterStamp (s.evt.stamp.getD (evTideWrap / 256) 0) 0)) := by
  have hlt : tide s < 2 ^ 48 := by unfold tide; omega
  have hzero : tide (s.atBase (2 ^ 48 - tide s)) = 0 := tide_atBase s
  have hadv := advanceBase_wraps (2 ^ 48 - tide s) s hr hs (by omega) (hzero ▸ h0)
  obtain ⟨hevt, hbase, hoff⟩ := passUs_evt_clk (2 ^ 48 - tide s) s hc
  rw [hadv] at hevt hbase hoff
  generalize hu : s.atBase (2 ^ 48 - tide s) = u at *
  have huclk : u.clk.base = s.clk.base + (2 ^ 48 - tide s) ∧ u.clk.offset = s.clk.offset := hu ▸ ⟨rfl, Int.sub_zero _⟩
  have huevt : u.evt = s.evt := hu ▸ rfl
  have hraise : (raiseX evTideWrap 0 [] { at_ := some 0 } u).clk = u.clk := raiseX_clk ..
  rw [hraise] at hbase hoff
  have htide : tide (passUs (2 ^ 48 - tide s) s) = 0 := (tide_congr hbase hoff).trans hzero
  have hwrap : toWrap 16 s = passUs (2 ^ 48 - tide s) s := if_pos htide
  rw [exec_tideWrap, execTideWrap, if_neg (by simp [hr]), hwrap]
  refine ⟨_, rfl, htide, hbase.trans huclk.1, hoff.trans huclk.2, ?_⟩
  rw [hevt, ← huevt]
  exact raiseX_wrap_stands u (huevt ▸ hq) (huevt ▸ hn) hzero

/-- Settles O22: the crystals' part of `kept` stands through the faults a crystal raises; the wrap's record finds room in its queue. -/
theorem clocks : Obligations.Clocks := by
  unfold Obligations.Clocks
  refine ⟨fun period s => ⟨fun hx hc => ?_, xtal26Recovered_clears s, xtal32Qualified_selects s, xtal32Absent_reports s, xtal32Fail_deselects s,
    fun ha hp => ?_⟩, fun p s => ⟨tideCorrection_settles p s, fun hs ht hn => ?_, fun hr => ?_, tideWrap_lands s⟩⟩
  · rw [exec_xtal26Fail, execXtal26Fail, if_neg (by simp [hx, hc])]
  · rw [exec_slowPeriodMeasure, execSlowPeriodMeasure, if_neg (by simp [ha, hp])]
    exact ⟨_, rfl, rfl⟩
  · rw [exec_tideSlewStep, execTideSlewStep, if_neg (by simp [hs, ht, hn])]
  · rw [exec_tideWrap, execTideWrap, if_neg (by simp [hr])]
    exact ⟨_, rfl, toWrap_base ..⟩
end Sys2Proof.Machine
end

section
/-! The LF engine, the located set and ranging (O29, O31, O33). -/

namespace Sys2Proof.Machine
open Sys2Proof
/-! ### What the work on channels leaves of the engine -/

/-- The engine's bursts and sounding, apart from the channels and the model. -/
structure LfCore where
  base : Nat
  cur : Option Burst
  queued : Option Burst
  held : Option Burst
  valid : Bool
  soundMask : Nat
  soundHeld : Bool
  soundRef : Option CmdRef
  lastEnd : Nat
def lfCoreOf (base : Nat) (l : Lf) : LfCore := ⟨base, l.cur, l.queued, l.held, l.valid.isSome, l.soundMask, l.soundHeld, l.soundRef, l.lastEnd⟩
def lfCore (s : State) : LfCore := lfCoreOf s.clk.base s.lf
/-- The clock and the engine apart from its channels. -/
def unchan (s : State) : Clk × Lf := (s.clk, { s.lf with chans := [] })
theorem lfCore_of_unchan {s t : State} (h : unchan t = unchan s) : lfCore t = lfCore s := (congrArg (fun x => lfCoreOf x.1.base x.2) h :)
@[simp] theorem unchan_onChan (c : Nat) (f : LfChan → LfChan) (s : State) : unchan (onChan c f s) = unchan s := rfl
@[simp] theorem unchan_emitX (a b : Nat) (p : Bytes) (o : EvOpt) (s : State) : unchan (emitX a b p o s) = unchan s := by simp [unchan]
@[simp] theorem unchan_ite (c : Prop) [Decidable c] (s t : State) : unchan (if c then s else t) = if c then unchan s else unchan t := apply_ite ..
@[simp] theorem unchan_setLfDiag (c bit : Nat) (s : State) : unchan (setLfDiag c bit s) = unchan s := by
  simp [setLfDiag, emitF]
@[simp] theorem unchan_clrLfDiag (c bit : Nat) (s : State) : unchan (clrLfDiag c bit s) = unchan s := by
  simp [clrLfDiag, emitC]
@[simp] theorem unchan_countImplausible (failed : Bool) (c : Nat) (s : State) : unchan (countImplausible failed c s) = unchan s := by
  simp [countImplausible, emit]
@[simp] theorem unchan_clrDriveDiags (c : Nat) (s : State) : unchan (clrDriveDiags c s) = unchan s := by
  simp [clrDriveDiags]
@[simp] theorem unchan_applyEnable (c : Nat) (on : Bool) (s : State) : unchan (applyEnable c on s) = unchan s := by
  simp [applyEnable]
@[simp] theorem lfCore_ite (c : Prop) [Decidable c] (s t : State) : lfCore (if c then s else t) = if c then lfCore s else lfCore t := apply_ite ..
theorem lfCore_onLf {f : Lf → Lf} (s : State) (h : ∀ n l, lfCoreOf n (f l) = lfCoreOf n l) : lfCore (s.onLf f) = lfCore s := by
  simp [lfCore, h]
@[simp] theorem lfCore_emitX (a b : Nat) (p : Bytes) (o : EvOpt) (s : State) : lfCore (emitX a b p o s) = lfCore s := by simp [lfCore]
@[simp] theorem lfCore_mirror (l : List MirrorItem) (s : State) : lfCore (mirror l s) = lfCore s := by simp [lfCore]
@[simp] theorem lfCore_boundaryM (b : Bound) (s : State) : lfCore (boundaryM b s) = lfCore s := (lfCore_mirror ..).trans rfl
@[simp] theorem lfCore_erodeAdd (i n : Nat) (x : Int) (s : State) : lfCore (erodeAdd i n x s) = lfCore s := by
  unfold erodeAdd
  split
  · rfl
  · rfl
theorem lfCore_modelCommit (s : State) : lfCore (modelCommit s) = lfCore s := by
  unfold modelCommit
  split
  · rfl
  · refine (foldl_keeps lfCore (fun s e => ?_) _ _).trans ?_
    · refine (lfCore_of_unchan (unchan_onChan ..)).trans ?_
      simp
      rfl
    · exact (lfCore_onLf _ (fun _ _ => rfl)).trans (lfCore_mirror ..)
theorem lfCore_validateBurst (b : Burst) (recs : List WinRec) (s : State) : lfCore (validateBurst b recs s) = lfCore s := by
  unfold validateBurst
  refine (foldl_keeps lfCore (fun s c => ?_) _ _).trans ((foldl_keeps lfCore (fun s e => ?_) _ _).trans (lfCore_onLf _ (fun _ _ => rfl)))
  · dsimp only
    rw [lfCore_ite, lfCore_of_unchan (unchan_countImplausible ..), ite_self]
  · exact lfCore_erodeAdd ..
theorem lfCore_addEth (uj : Nat) (s : State) : lfCore (addEth uj s) = lfCore s := lfCore_onLf _ (fun _ _ => rfl)
theorem lfCore_addLfDuty (ms : Nat) (s : State) : lfCore (addLfDuty ms s) = lfCore s := lfCore_onLf _ (fun _ _ => rfl)
theorem lfCore_soundDrove (c : Nat) (s : State) : lfCore (soundDrove c s) = lfCore s := (lfCore_addLfDuty ..).trans (lfCore_addEth ..)
theorem lfCore_burstDuty (b : Burst) (s : State) : lfCore (burstDuty b s) = lfCore s := by
  unfold burstDuty
  refine foldl_keeps lfCore (fun s g => ?_) _ _
  dsimp only
  rw [lfCore_ite]
  have h : ∀ a b, lfCore (addDrive a b s) = lfCore s := fun a b => (lfCore_onLf _ (fun _ _ => rfl)).trans (lfCore_addLfDuty ..)
  rw [h, ite_self]
theorem lfCore_lfLive (s : State) : lfCore (lfLive s) = lfCore s := by
  unfold lfLive
  refine (lfCore_onLf _ (fun _ _ => rfl)).trans ((foldl_keeps lfCore (fun s e => lfCore_of_unchan (unchan_applyEnable ..)) _ _).trans ?_)
  unfold settleEth
  rw [lfCore_ite, lfCore_addEth, ite_self, lfCore_boundaryM]
theorem lfCore_takeLfRecord (s : State) : lfCore (takeLfRecord s) = lfCore s := by
  unfold takeLfRecord
  rw [lfCore_ite]
  split
  · rfl
  · exact lfCore_onLf _ (fun _ _ => rfl)
theorem lfCore_retune (s : State) : lfCore (retune s) = lfCore s := by
  unfold retune
  refine (foldl_keeps lfCore (fun s e => ?_) _ _).trans ?_
  · rw [lfCore_ite, lfCore_of_unchan (unchan_setLfDiag ..), ite_self]
  · simp [lfCore, lfCoreOf, State.onLf]
theorem lfCore_lfStopped (s : State) : lfCore (lfStopped s) = lfCore s := by
  unfold lfStopped
  dsimp only
  rw [lfCore_ite, lfCore_ite, lfCore_retune, lfCore_boundaryM, lfCore_takeLfRecord, lfCore_lfLive, ite_self, ite_self]
theorem lfCore_lfBoundary (s : State) : lfCore (lfBoundary s) = lfCore s := by
  unfold lfBoundary
  rw [lfCore_lfStopped, lfCore_takeLfRecord, lfCore_lfLive]
  exact (lfCore_onLf _ (fun _ _ => rfl)).trans (lfCore_modelCommit s)
theorem lfCore_activity (s : State) : lfCore (activity s) = lfCore s := rfl
/-- The engine after its burst ended. -/
def LfCore.ended (n : Nat) (k : LfCore) : LfCore := { k with cur := none, lastEnd := n }
theorem lfCore_end (n : Nat) (s : State) : lfCore (s.onLf (fun l => { l with cur := none, lastEnd := n })) = (lfCore s).ended n := rfl
theorem lfCore_finishBurst (uj : Nat) {b : Burst} {s : State} (h : s.lf.cur = some b) : lfCore (finishBurst uj s) = (lfCore s).ended (now s) := by
  unfold finishBurst
  split
  · next hn => exact absurd (hn.symm.trans h) nofun
  next b' _ =>
  extract_lets keeps u v
  have hu : lfCore u = lfCore s := (lfCore_burstDuty ..).trans (lfCore_addEth ..)
  have hn : now u = now s := congrArg LfCore.base hu
  clear_value u
  have hv : lfCore v = (lfCore s).ended (now s) := by
    rw [← hu, ← hn]
    exact (lfCore_lfBoundary _).trans (lfCore_end (now u) u)
  clear_value v
  split
  · exact (lfCore_activity v).trans hv
  · exact hv

/-! ### Bursts -/

theorem lfCheck_diag {path : Bool} {g : List (List Drive)} {uj us : Nat} {s : State} (h : lfCheck path g uj us s = none) :
    ∀ d ∈ g.flatten, (lfChan s d.chan).diag = 0 := by
  intro d hd
  refine Decidable.byContradiction fun hne => ?_
  unfold lfCheck at h
  dsimp only at h
  split at h
  · cases h
  · next hn =>
    rw [List.findSome?_eq_none_iff] at hn
    have hd' := hn d hd
    simp only [hne, ne_eq, not_false_eq_true, if_true] at hd'
    split at hd' <;> cases hd'
theorem beginQueued_starts {b : Burst} {s : State} (hq : s.lf.queued = some b) (hc : lfCheck false (burstGroups b) b.energyUj b.durUs s = none)
    (ht : thermalOk s false b.energyUj = true) : beginQueued b s = startBurst b (s.onLf (fun l => { l with queued := none })) := by
  unfold beginQueued
  extract_lets bad s' refused
  have hbad : bad = [] := by
    simp only [bad, List.filter_eq_nil_iff, List.mem_eraseDups, List.mem_map]
    rintro c ⟨d, hd, rfl⟩
    simp [lfCheck_diag hc d hd]
  have hs' : s' = s.onLf (fun l => { l with queued := none }) := by
    simp [s', State.onLf, hq]
  clear_value bad s'
  have hg : (burstGroups b).map (fun g => g.filter (fun d => !bad.contains d.chan)) = burstGroups b := by
    rw [hbad]
    exact (List.map_congr_left fun g _ => List.filter_eq_self.mpr fun _ _ => rfl).trans (List.map_id _)
  rw [hg, hc]
  dsimp only
  rw [if_pos ht, hbad, hs', List.foldl_nil]
theorem lfBurstBegin_starts (b : Burst) (temp : Int) (s : State) (h0 : s.lf.cur = none) (hf : s.pwr.state = .flood) (hr : running s = true)
    (hn : riding s = false) (hx : s.clk.xtal26 = true) (hl : s.pair.role ≠ .lee) (hp : s.path = none) (hm : s.lf.soundMask = 0)
    (hd : s.lf.commitDue = false) (hq : s.lf.queued = some b) :
    let v := cliffReads temp s
    lfCheck false (burstGroups b) b.energyUj b.durUs v = none → thermalOk v false b.energyUj = true → (b.ref = none → s.paths = []) →
    Completes (exec (.lfBurstBegin temp) s) (fun t => t = startBurst b (v.onLf (fun l => { l with queued := none }))) := by
  intro v hc ht ha
  rw [exec_lfBurstBegin, execLfBurstBegin, if_neg (by simp [h0, hf, hr, hn, hx, hl])]
  have hcommit : (if s.lf.valid.isNone && betweenBursts s then modelCommit s else s) = s := by
    rw [show modelCommit s = s from if_pos (by simp [hd]), ite_self]
  rw [hcommit]
  extract_lets mine
  have hvp : v.path = none := hp
  have hvs : v.paths = s.paths := rfl
  have hvq : v.lf.queued = some b := hq
  have hvm : v.lf.soundMask = 0 := hm
  clear_value v
  have hmine : mine = false := by simp [mine, hvp]
  rw [hmine, if_neg (by simp), if_neg (by simp [hvm]), hvq]
  dsimp only [Option.or]
  rw [if_neg]
  · exact ⟨_, rfl, beginQueued_starts hvq hc ht⟩
  · cases hb : b.ref with
    | some r => simp
    | none => simp [pathAhead, hvp, hvs, ha hb]
theorem lfBurstEnd_ends (b : Burst) (r : CmdRef) (uj ovf : Nat) (recs : List WinRec) (temp : Int) (s : State) (hb : s.lf.cur = some b)
    (hr : b.ref = some r) : Completes (exec (.lfBurstEnd uj ovf recs temp) s) (fun t =>
    t.lf.cur = none ∧ t.lf.queued = s.lf.queued ∧ t.clk.base = max s.clk.base (b.started + b.durUs) ∧
    t.lf.valid = if ovf = 0 then some (b, recs.filter (fun r => !b.lostGroups.contains (vlfGroup r.chan))) else none) := by
  rw [exec_lfBurstEnd, execLfBurstEnd]
  split
  · next hn => exact absurd (hn.symm.trans hb) nofun
  next b' hb' =>
  obtain rfl : b = b' := Option.some.inj (hb.symm.trans hb')
  extract_lets a measured c recs' d e f
  have hc : lfCore c = lfCoreOf (max s.clk.base (b.started + b.durUs)) s.lf := by
    have hlf : (advanceTo (b.started + b.durUs) s).lf = s.lf := advanceTo_lf ..
    have ha : lfCore a = lfCoreOf (max (b.started + b.durUs) s.clk.base) s.lf := by
      rw [← advanceTo_base, ← hlf]
      rfl
    rw [Nat.max_comm, ← ha]
    unfold c queueOverflow
    rw [lfCore_ite]
    split
    · rfl
    · exact lfCore_emitX ..
  have hcore := congrArg (fun k : LfCore => (k.base, k.cur, k.queued)) hc
  have hd : lfCore d = { lfCore c with valid := false } := by
    unfold d
    split
    · exact (lfCore_validateBurst ..).trans rfl
    · next hn => exact congrArg (fun x => { lfCore c with valid := x }) (congrArg Option.isSome hn)
  have he : lfCore e = (lfCore d).ended (now d) := lfCore_finishBurst _ ((congrArg LfCore.cur hd).trans ((congrArg LfCore.cur hc).trans hb))
  have hf : lfCore f = lfCore e := by
    unfold f burstSent
    rw [hr]
    exact (lfCore_emitX ..).trans (lfCore_emitX ..)
  have hall : lfCore f = { lfCoreOf (max s.clk.base (b.started + b.durUs)) s.lf with valid := false, cur := none, lastEnd := now d } := by
    rw [hf, he, hd, hc]
    rfl
  by_cases h0 : ovf = 0
  · rw [if_pos (show measured from h0)]
    exact ⟨_, rfl, (congrArg LfCore.cur hall :), (congrArg LfCore.queued hall :), (congrArg LfCore.base hall :), (if_pos h0).symm⟩
  · rw [if_neg (show ¬measured from h0)]
    exact ⟨_, rfl, (congrArg LfCore.cur hall :), (congrArg LfCore.queued hall :), (congrArg LfCore.base hall :),
      (Option.isSome_eq_false_iff.mp (congrArg LfCore.valid hall) |> Option.isNone_iff_eq_none.mp).trans (if_neg h0).symm⟩
theorem betweenBursts_validateBurst (b : Burst) (v : List WinRec) (s : State) : betweenBursts (validateBurst b v s) = betweenBursts s :=
  (congrArg (fun k : LfCore => k.cur.isNone && (k.soundMask = 0 || k.soundHeld)) (lfCore_validateBurst b v s) :)
theorem lfValidationDone_runs (b : Burst) (v : List WinRec) (s : State) (h : s.lf.valid = some (b, v)) : exec .lfValidationDone s = .next (
    if betweenBursts s then modelCommit (validateBurst b v (s.onLf (fun l => { l with valid := none })))
    else validateBurst b v (s.onLf (fun l => { l with valid := none }))) := by
  rw [exec_lfValidationDone, execLfValidationDone, h]
  dsimp only
  rw [betweenBursts_validateBurst]
  rfl

/-! ### Diagnoses and scans -/

theorem lfChan_onChan_same {c : Nat} {f : LfChan → LfChan} {s : State} (h1 : 1 ≤ c) (h : c ≤ s.lf.chans.length) :
    lfChan (onChan c f s) c = f (lfChan s c) := getD_modAt_same (by omega) f {}
theorem lfChan_onChan_ne {c k : Nat} {f : LfChan → LfChan} {s : State} (hc : 1 ≤ c) (hk : 1 ≤ k) (h : k ≠ c) :
    lfChan (onChan c f s) k = lfChan s k := getD_modAt_ne (by omega) f {}
theorem lfChan_emitF (code cls : Nat) (i p : Bytes) (s : State) (c : Nat) : lfChan (emitF code cls i p s) c = lfChan s c := by
  unfold lfChan emitF
  rw [emitX_lf]
theorem setBit_of_bitSet {n k : Nat} (h : bitSet n k = true) : setBit n k = n := by
  refine Nat.eq_of_testBit_eq (fun i => ?_)
  have hi := bitSet_setBit n k i
  simp only [bitSet] at hi h
  by_cases hk : k = i
  · subst hk
    rw [hi, h, Bool.true_or]
  · simpa [hk] using hi
theorem setLfDiag_chans {c bit : Nat} {s : State} (h1 : 1 ≤ c) (h : c ≤ s.lf.chans.length) :
    (lfChan (setLfDiag c bit s) c).diag = setBit (lfChan s c).diag bit ∧ ∀ k, 1 ≤ k → k ≠ c → lfChan (setLfDiag c bit s) k = lfChan s k := by
  unfold setLfDiag
  extract_lets u v
  have hu : (lfChan u c).diag = (lfChan s c).diag ∧ c ≤ u.lf.chans.length ∧ ∀ k, 1 ≤ k → k ≠ c → lfChan u k = lfChan s k := by
    unfold u
    split
    · refine ⟨(congrArg LfChan.diag (lfChan_onChan_same h1 h)).trans rfl, ?_, fun k hk hne => lfChan_onChan_ne h1 hk hne⟩
      simpa [onChan, State.onLf, modAt_eq_modify] using h
    · exact ⟨rfl, h, fun _ _ _ => rfl⟩
  obtain ⟨hdiag, hlen, hne⟩ := hu
  split
  · next hset =>
    refine ⟨?_, hne⟩
    rw [hdiag] at hset ⊢
    exact (setBit_of_bitSet hset).symm
  · refine ⟨?_, fun k hk hkc => ?_⟩
    · rw [lfChan_emitF]
      exact (congrArg LfChan.diag (lfChan_onChan_same h1 hlen)).trans (congrArg (setBit · bit) hdiag)
    · rw [lfChan_emitF]
      exact (lfChan_onChan_ne h1 hk hkc).trans (hne k hk hkc)
theorem lfDriveFault_sets (b : Burst) (chan bit : Nat) (s : State) (hb : s.lf.cur = some b) (h1 : 1 ≤ chan) (h : chan ≤ s.lf.chans.length)
    (hm : bitSet (burstMask b) (chan - 1) = true) (hbit : bit ∈ [0, 1, 2, 3, 5, 6]) (h6 : bit = 6 → measures b (now s - b.started) = true) :
    Completes (exec (.lfDriveFault chan bit) s) (fun t => (lfChan t chan).diag = setBit (lfChan s chan).diag bit ∧
      ∀ c, 1 ≤ c → c ≠ chan → lfChan t c = lfChan s c) := by
  rw [exec_lfDriveFault, execLfDriveFault, hb]
  dsimp only
  rw [if_neg]
  · exact ⟨_, rfl, setLfDiag_chans h1 h⟩
  · have hz : chan ≠ 0 := by omega
    have hin : [0, 1, 2, 3, 5, 6].contains bit = true := List.contains_iff_mem.mpr hbit
    simp only [hm, hz, hin, Bool.not_true, decide_false, Bool.false_or, Bool.and_eq_true, decide_eq_true_eq, Bool.not_eq_true', not_and]
    intro h6'
    simp [h6 h6']
theorem offStateScan_clean (s : State) (ha : awake s = true) (hl : s.pair.role ≠ .lee) (hi : lfIdle s = true) :
    Completes (exec (.offStateScan 0 0 0) s) (fun t => t.lf.lastScan = max s.clk.base (s.lf.lastScan + 100000 * param s 0x0206)) := by
  rw [exec_offStateScan, execOffStateScan, if_neg (by simp [ha, hl]), if_neg (by simp [hi])]
  extract_lets a b one
  have hone : ∀ u k, unchan (one u k) = unchan u := fun u k => by
    simp [one, bitSet]
  generalize List.range 48 = l
  refine ⟨_, rfl, ?_⟩
  have hb : b.lf.lastScan = now a := congrArg Lf.lastScan (mirror_lf ..)
  refine (congrArg (fun x => x.2.lastScan) (foldl_keeps unchan hone _ b)).trans (hb.trans ?_)
  exact (advanceTo_base ..).trans (Nat.max_comm ..)
theorem offStateScan_postpones (s : State) (ha : awake s = true) (hl : s.pair.role ≠ .lee) (hi : lfIdle s = false) :
    exec (.offStateScan 0 0 0) s = .next (s.onLf (fun l => { l with
      lastScan := l.lastScan + (now s - l.lastScan) / max 1 (100000 * param s 0x0206) * (100000 * param s 0x0206) })) := by
  rw [exec_offStateScan, execOffStateScan, if_neg (by simp [ha, hl]), if_pos (by simp [hi])]
  rfl

/-! ### Soundings and refreshes -/

theorem lfCore_setLfDiags (c : Nat) (l : List (Nat × Bool)) (s : State) :
    lfCore (l.foldl (fun s (b : Nat × Bool) => if b.2 then setLfDiag c b.1 s else s) s) = lfCore s :=
  foldl_keeps lfCore (fun s b => by rw [lfCore_ite, lfCore_of_unchan (unchan_setLfDiag ..), ite_self]) _ _
theorem lfCore_soundChannel (c : Nat) (f : RingFit) (gnd bat cable auto : Bool) (s : State) : lfCore (soundChannel c f gnd bat cable auto s) = lfCore s := by
  unfold soundChannel
  extract_lets a short x rings b d e g y tag
  have ha : lfCore a = lfCore s := lfCore_setLfDiags ..
  have hb : lfCore b = lfCore a := by
    unfold b
    simp only [lfCore_ite, lfCore_of_unchan (unchan_setLfDiag ..), ite_self]
  have hd : lfCore d = lfCore b := by
    unfold d
    simp only [lfCore_ite, lfCore_of_unchan (unchan_setLfDiag ..), lfCore_of_unchan (unchan_clrLfDiag ..), ite_self]
  have he : lfCore e = lfCore d := by
    unfold e
    simp only [lfCore_ite, lfCore_of_unchan (unchan_clrDriveDiags ..), ite_self]
  have hg : lfCore g = lfCore b := by
    unfold g
    rw [lfCore_ite]
    split
    · rfl
    · exact (lfCore_onLf _ (fun _ _ => rfl)).trans (he.trans hd)
  exact (lfCore_emitX ..).trans ((lfCore_soundDrove ..).trans (hg.trans (hb.trans ha)))
theorem soundingChannelDone_next (chan : Nat) (fit : RingFit) (a b c : Bool) (s : State) (hc : chan ≠ 0)
    (hm : bitSet s.lf.soundMask (chan - 1) = true) (h0 : s.lf.cur = none) (hf : s.pwr.state = .flood) (hr : running s = true)
    (hn : riding s = false) (hx : s.clk.xtal26 = true) (hg : groupValid s (vlfGroup chan) = true) (hp : s.path = none)
    (hl : clrBit s.lf.soundMask (chan - 1) ≠ 0) : Completes (exec (.soundingChannelDone chan fit a b c) s) (fun t =>
      t.lf.soundMask = clrBit s.lf.soundMask (chan - 1) ∧ t.lf.soundRef = s.lf.soundRef ∧ t.lf.lastEnd = now s) := by
  have hy : pathNeedsLf s = false := by simp [pathNeedsLf, hp]
  rw [exec_soundingChannelDone, execSoundingChannelDone]
  rw [if_neg (by simp [hc, hm, h0, hf, hr, hn, hx, hg, hy])]
  extract_lets u left v w
  have hu : lfCore u = lfCore s := lfCore_soundChannel ..
  have hleft : left = clrBit s.lf.soundMask (chan - 1) := congrArg (fun k : LfCore => clrBit k.soundMask (chan - 1)) hu
  have hw : lfCore w = lfCore v := by
    unfold w
    rw [lfCore_ite, lfCore_modelCommit, ite_self]
  rw [if_pos (hleft ▸ hl)]
  refine ⟨_, rfl, (congrArg LfCore.soundMask hw).trans hleft, ?_, ?_⟩
  · exact ((congrArg LfCore.soundRef hw).trans (congrArg LfCore.soundRef hu :) :)
  · exact ((congrArg LfCore.lastEnd hw).trans (congrArg LfCore.base hu :) :)
theorem autoSounding_begins (chan : Nat) (s : State) (h1 : 1 ≤ chan) (h48 : chan ≤ 48) (hf : s.pwr.state = .flood) (hr : running s = true)
    (hn : riding s = false) (hx : s.clk.xtal26 = true) (hi : lfIdle s = true) (hp : s.path = none) (hps : s.paths = [])
    (hs : s.soundRun = none) (hd : ((lfChan s chan).diag &&& 0xE9) ≠ 0) (h5 : bitSet (lfChan s chan).diag 5 = false)
    (hl : (lfChan s chan).lastAuto = none) (hle : s.lf.lastEnd + 50000 ≤ s.clk.base) (hc : soundCheck [chan] s = none) :
    Completes (exec (.autoSounding chan) s) (fun t => t = (onChan chan (fun x => { x with
      lastAuto := some (now s), ovcTries := (lfChan s chan).ovcTries.filter (fun t => now s < t + 3600000000) }) s).onLf (fun l => { l with
        soundMask := 2 ^ (chan - 1), soundAuto := true })) := by
  rw [exec_autoSounding, execAutoSounding]
  dsimp only
  rw [if_neg (by simp [hf, hr, hn, hx, hi, hp, hps, hs, hd]; omega), advanceTo_of_le hle, hl, hc, if_neg (by simp [h5]), if_neg (by simp [h5])]
  exact ⟨_, rfl, rfl⟩
theorem keepFreshRefresh_queues (group : Nat) (temp : Int) (d : Bytes) (s : State) (h15 : group ≤ 15) (hf : s.pwr.state = .flood)
    (hr : running s = true) (hn : riding s = false) (hb : bitSet (param s 0x0205) group = true) (hh : hostLfBusy s = false) (hps : s.paths = [])
    (hq : s.lf.queued = none) (hheld : s.lf.held = none) (hg : groupDef s group = some d) :
    let v := cliffReads temp s
    let mem := (remap v d).filterMap (·.2)
    mem ≠ [] → columnDue v d mem = true →
    lfCheck false (burstGroups (refreshBurst v mem)) (refreshBurst v mem).energyUj (refreshBurst v mem).durUs v = none →
    thermalOk v false (refreshBurst v mem).energyUj = true →
    Completes (exec (.keepFreshRefresh group temp) s) (fun t => t = v.onLf (fun l => { l with queued := some (refreshBurst v mem) })) := by
  intro v mem hm hc hk ht
  rw [exec_keepFreshRefresh, execKeepFreshRefresh, if_neg (by simp [hf, hr, hn, hb, hh, hps, hq, hheld]; omega), hg]
  dsimp only
  refine ⟨_, (if_neg ?_).trans ((if_neg ?_).trans (if_neg ?_)), rfl⟩
  · show ¬(mem.isEmpty || !columnDue v d mem) = true
    rw [hc, List.isEmpty_eq_false_iff.mpr hm]
    decide
  · exact Bool.eq_false_iff.mp (congrArg Option.isSome hk)
  · exact Bool.eq_false_iff.mp (congrArg (! ·) ht)

/-- Settles O29: the work on channels, model and duty keeps the engine's bursts and its sounding (`lfCore`). -/
theorem lfEngine : Obligations.LfEngine := by
  unfold Obligations.LfEngine
  refine ⟨fun b r uj ovf chan bit recs v temp s => ⟨lfBurstBegin_starts b temp s, lfBurstEnd_ends b r uj ovf recs temp s, fun hv hc hm => ?_,
      fun hv hc => ?_, lfDriveFault_sets b chan bit s, offStateScan_clean s, offStateScan_postpones s⟩,
    fun chan group temp fit a b c d s => ⟨soundingChannelDone_next chan fit a b c s, autoSounding_begins chan s,
      keepFreshRefresh_queues group temp d s, fun h => ?_⟩⟩
  · rw [lfValidationDone_runs b v s hv, if_pos (by simpa [betweenBursts, hc] using hm)]
  · rw [lfValidationDone_runs b v s hv, if_neg]
    rcases hc with hc | ⟨hm, hh⟩
    · simp [betweenBursts, hc]
    · simp [betweenBursts, hm, hh]
  · rw [exec_lfDutyBinRoll, execLfDutyBinRoll, if_neg h]
/-! ### The located set -/

theorem locatedOf_congr {s t : State} (h : t.zon = s.zon) (k : Nat) : locatedOf t k = locatedOf s k := congrArg (·.located.find? (fun l => l.idx == k)) h
theorem idx_of_locatedOf {s : State} {k : Nat} {l : Located} (h : locatedOf s k = some l) : l.idx = k := by
  simpa using List.find?_some h
theorem leaveLocated_clk (k : Nat) (s : State) : (leaveLocated k s).clk = s.clk := by
  unfold leaveLocated
  split
  · rfl
  · exact emitX_clk ..
theorem leaveLocated_located {k : Nat} {l : Located} {s : State} (h : locatedOf s k = some l) :
    locatedOf (leaveLocated k s) k = none ∧ ∀ n, n ≠ k → locatedOf (leaveLocated k s) n = locatedOf s n := by
  unfold leaveLocated
  rw [h]
  dsimp only
  refine ⟨(locatedOf_congr (emitX_zon ..) k).trans ?_, fun n hn => (locatedOf_congr (emitX_zon ..) n).trans ?_⟩
  · simp [locatedOf, State.onZon, State.onUwb]
  · simp only [locatedOf, State.onZon, State.onUwb, List.find?_filter]
    congr 1
    funext x
    by_cases hx : x.idx = n
    · simp [hx, hn]
    · simp [hx]
theorem zoneDropAgeExpiry_drops (token : Nat) (l : Located) (s : State) (h : locatedOf s token = some l) (hs : holdsSession s token = false)
    (hr : running s = true) : Completes (exec (.zoneDropAgeExpiry token) s) (fun t =>
    locatedOf t token = none ∧ (∀ k, k ≠ token → locatedOf t k = locatedOf s k) ∧
    t.clk.base = max s.clk.base (l.newest + 100000 * param s 0x0308)) := by
  rw [exec_zoneDropAgeExpiry, execZoneDropAgeExpiry, h]
  dsimp only
  rw [if_neg (by simp [hs, hr])]
  have hz := fun k => locatedOf_congr (advanceTo_zon (l.newest + 100000 * param s 0x0308) s) k
  obtain ⟨hgone, hrest⟩ := leaveLocated_located ((hz token).trans h)
  refine ⟨_, rfl, hgone, fun k hk => (hrest k hk).trans (hz k), ?_⟩
  rw [leaveLocated_clk, advanceTo_base, Nat.max_comm]

/-! ### Locate polls and their reports -/

/-- A poll of two tones or more whose burst passes the engine's checks waits as the engine's next burst. -/
theorem locatePoll_queues (plan : Nat) (temp : Int) (nDev : Bytes) (pre : Window) (tones : List Window) (s v w x : State)
    (hplan : (sessionPlans s).contains plan = true) (h1 : 1 < param s 0x0401) (ha : awake s = true) (hb : hostBurstBusy s = false)
    (hp : pathAhead s = false) (hq : s.lf.queued = none) (hh : s.lf.held = none) (ho : s.zon.poll = none) (hr : riding s = false) :
    let s1 := advanceTo (pollDue s plan) s
    let s2 := s1.onZon (fun z => { z with polled := z.polled.filter (fun q => q.1 ≠ plan) ++ [(plan, now s1)] })
    let s0 := cliffReads temp (enterFlood s2)
    let ver := param s0 0x0401
    let sent := sentTones s0 plan ver
    let endAt := lfFree s0 + frameUs (carrierInc s0) ver + 500 * sent.length
    locatePre plan endAt s0 = (some pre, v) → toneWindows endAt (carrierInc s0) sent v = (tones, w) →
    let b := wakeBurst w .locate none 0 ver pre tones [] plan
    lfCheck false (burstGroups b) b.energyUj b.durUs w = none → thermalOk w false b.energyUj = true → draw .challenge 4 w = (some nDev, x) →
    exec (.locatePoll plan temp) s = .next (x.onLf (fun l => { l with queued := some { b with
      frame := wakeFrame (wakeBits ver 1 sent.length (param x 0x0402) nDev plan) } })) := by
  intro s1 s2 s0 ver sent endAt hpre htones b hc ht hd
  rw [exec_locatePoll, execLocatePoll, if_neg (by simp only [hplan, ha, hb, hp, hq, hh, ho, hr]; simp; omega)]
  extract_lets
  rw [hpre]
  dsimp only
  rw [htones]
  dsimp only
  rw [hc]
  dsimp only
  rw [if_neg (by rw [ht]; decide), hd]
theorem locateReport_accepted (slot : Nat) (body : Bytes) (q : LocPoll) (l : Located) (s : State) (hq : s.zon.poll = some q) (ho : q.opened = true)
    (hn : body.length = 23) (h13 : u8 body 0 = 0x13) (h1 : u8 body 1 = slot) (hs : slot = q.slot) :
    let r := rxFrame s
    (tokenOf r (beNat (slice body 2 4))).bind (locatedOf r) = some l → l.kS ≠ [] → slotFor r (beNat (slice body 2 4)) q.nDev = slot →
    ((cmac l.kS (3 :: q.nDev ++ slice body 2 13)).take 8 = body.drop 15 → Completes (exec (.locateReportReceived slot body) s) (fun t =>
      t = { r with zon := t.zon } ∧ t.zon.located = r.zon.located.map (fun x => if x.idx = l.idx then { x with
        newest := now r,
        reports := x.reports.filter (fun r => r.1 ≠ q.plan) ++ [(q.plan, q.at_, (slice body 6 8).map (·.toNat), u8 body 14, marksFor q.version q.windows)] } else x))) ∧
    ((cmac l.kS (3 :: q.nDev ++ slice body 2 13)).take 8 ≠ body.drop 15 →
      Completes (exec (.locateReportReceived slot body) s) (fun t => t = emit evTokenAuthFail 1 (le16 l.idx ++ [5]) r)) := by
  intro r hl hk hslot
  obtain ⟨idx, htok, hloc⟩ := Option.bind_eq_some_iff.mp hl
  have hidx : idx = l.idx := (idx_of_locatedOf hloc).symm
  have hrow : exec (.locateReportReceived slot body) s = if (cmac l.kS (3 :: q.nDev ++ slice body 2 13)).take 8 = body.drop 15 then
      .next (r.onZon (fun z => { z with located := z.located.map (fun x => if x.idx = l.idx then { x with
        newest := now r,
        reports := x.reports.filter (fun r => r.1 ≠ q.plan) ++ [(q.plan, q.at_, (slice body 6 8).map (·.toNat), u8 body 14, marksFor q.version q.windows)] } else x) }))
      else .next (emit evTokenAuthFail 1 (le16 l.idx ++ [5]) r) := by
    rw [exec_locateReportReceived, execLocateReportReceived, hq]
    dsimp only
    rw [if_neg (by simp [ho, hn, h13, h1, hs]), htok]
    dsimp only
    rw [hloc, ← hidx]
    have hke : l.kS.isEmpty = false := List.isEmpty_eq_false_iff.mpr hk
    have hslot' : slotFor (rxFrame s) (beNat (slice body 2 4)) q.nDev = slot := hslot
    rw [Option.map_some, Option.getD_some, hke, hslot', decide_eq_true rfl, Bool.not_false, Bool.true_and, Bool.true_and]
    by_cases heq : (cmac l.kS (3 :: q.nDev ++ slice body 2 13)).take 8 = body.drop 15
    · rw [if_pos (beq_iff_eq.mpr heq), if_pos heq]
    · rw [if_neg (fun h => heq (beq_iff_eq.mp h)), if_neg heq]
  rw [hrow]
  exact ⟨fun h => ⟨_, if_pos h, rfl, rfl⟩, fun h => ⟨_, if_neg h, rfl⟩⟩
theorem locateReport_keyless (slot idx : Nat) (body : Bytes) (q : LocPoll) (s : State) (hq : s.zon.poll = some q) (ho : q.opened = true)
    (hn : body.length = 23) (h13 : u8 body 0 = 0x13) (h1 : u8 body 1 = slot) (hs : slot = q.slot)
    (ht : tokenOf (rxFrame s) (beNat (slice body 2 4)) = some idx) (hk : ∀ l, locatedOf (rxFrame s) idx = some l → l.kS = []) :
    exec (.locateReportReceived slot body) s = .next (emit evTokenAuthFail 1 (le16 idx ++ [5]) (rxFrame s)) := by
  have hkS : ((locatedOf (rxFrame s) idx).map (·.kS)).getD [] = [] := by
    cases hl : locatedOf (rxFrame s) idx with
    | none => rfl
    | some l => exact hk l hl
  rw [exec_locateReportReceived, execLocateReportReceived, hq]
  dsimp only
  rw [if_neg (by simp [ho, hn, h13, h1, hs]), ht]
  dsimp only
  rw [hkS, if_neg (by simp)]

/-- Settles O31: a token that leaves the located set takes its entry alone; a poll and a report run each check of theirs in turn. -/
theorem locatedSet : Obligations.LocatedSet := by
  unfold Obligations.LocatedSet
  refine fun token plan slot temp body nDev q l pre tones s v w x => ⟨fun hr ho hh => ?_, zoneDropAgeExpiry_drops token l s,
    locatePoll_queues plan temp nDev pre tones s v w x, locateReport_accepted slot body q l s, fun idx => locateReport_keyless slot idx body q s⟩
  rw [exec_zonePeriodDecision, execZonePeriodDecision, if_neg (by simp [hr, ho, hh])]
/-! ### Ranging bursts -/

theorem enterFlood_uwb (s : State) : (enterFlood s).uwb = s.uwb := by
  unfold enterFlood
  split
  · rfl
  · show (if s.pwr.state = .flood then s else mirror [.power 3] s).uwb = s.uwb
    split
    · rfl
    · exact mirror_uwb ..
theorem updateUwb_bursts (s : State) : (updateUwb s).uwb.sessions = s.uwb.sessions ∧ (updateUwb s).uwb.due = s.uwb.due ∧
    (updateUwb s).uwb.failed = s.uwb.failed := by
  have h : (updateUwb s).uwb = { s.uwb with unavail := (updateUwb s).uwb.unavail } := by
    unfold updateUwb
    split
    · rfl
    · extract_lets n old u
      have hu : u.uwb = { s.uwb with unavail := n } := rfl
      rw [foldl_keeps State.uwb (fun s r => ?_)]
      · rw [hu]
      · simp only [apply_ite State.uwb, emitF, emitC, emitX_uwb, ite_self]
  rw [h]
  exact ⟨rfl, rfl, rfl⟩
theorem onUwb_congr {f g : Uwb → Uwb} {s : State} (h : f s.uwb = g s.uwb) : s.onUwb f = s.onUwb g := congrArg (fun u => { s with uwb := u }) h
theorem mem_of_sessOf {s : State} {token : Nat} {x : RSess} (h : sessOf s token = some x) : x ∈ s.uwb.sessions := by
  have hl : x ∈ s.uwb.sessions.filter (fun x => x.token == token) := by
    unfold sessOf at h
    dsimp only at h
    generalize s.uwb.sessions.filter (fun x => x.token == token) = l at *
    cases h1 : l.find? (·.cur.isSome) with
    | some y =>
      rw [h1] at h
      exact Option.some.inj h ▸ List.mem_of_find?_eq_some h1
    | none =>
      rw [h1] at h
      cases h2 : l.find? (fun x => s.uwb.turn.head? == some x.num) with
      | some y =>
        rw [h2] at h
        exact Option.some.inj h ▸ List.mem_of_find?_eq_some h2
      | none =>
        rw [h2] at h
        exact List.mem_of_head? h
  exact (List.mem_filter.mp hl).1
theorem mem_onSess {s : State} {n : Nat} {f : RSess → RSess} {x : RSess} (hx : x ∈ s.uwb.sessions) (hn : x.num = n) :
    f x ∈ (onSess n f s).uwb.sessions := List.mem_map.mpr ⟨x, hx, if_pos hn⟩
theorem mem_onSess_ne {s : State} {n : Nat} {f : RSess → RSess} {y : RSess} (hy : y ∈ s.uwb.sessions) (hn : y.num ≠ n) :
    y ∈ (onSess n f s).uwb.sessions := List.mem_map.mpr ⟨y, hy, if_neg hn⟩
theorem renewalBurstDue_waits (token : Nat) (l : Located) (s : State) (hl : locatedOf s token = some l) (ha : awake s = true)
    (hh : holdsSession s token = true) (hk : l.kS ≠ []) (hg : uwbGoneAll s = false) (hd : s.uwb.due = []) (hs : s.uwb.sessions = []) :
    Completes (exec (.renewalBurstDue token) s) (fun t => t = (enterFlood s).onUwb (fun u => { u with due := [(token, true)] })) := by
  rw [exec_renewalBurstDue, execRenewalBurstDue, hl]
  dsimp only
  rw [if_neg (by simp [ha, hh, hk, hg, hd, hs])]
  refine ⟨_, rfl, onUwb_congr ?_⟩
  rw [enterFlood_uwb, hd]
  rfl
theorem rangingBurstBegin_opens (token : Nat) (rn : Bool) (seed : Bytes) (s v : State) (hd : nextDue s = some (token, rn))
    (hn : s.uwb.sessions.length < 4) (hf : s.pwr.state = .flood) (hr : running s = true) (hri : riding s = false) (h0 : s.uwb.refl = 0)
    (hk : (burstKey s token rn).1 ≠ []) (hp : (burstKey s token rn).2 ≠ []) (hg : burstGone s rn = false) (ht : (tokenRec s token).isSome = true)
    (hh : rn = true → holdsSession s token = true)
    (hfit : rn = false → ∃ p, s.path = some p ∧ fits s p (rangingUs s (portSet s p.req.kind p.req.doors) + 1000 + signalUs s p) = true)
    (hdraw : draw .sts 16 s = (some seed, v)) :
    Completes (exec (.rangingBurstBegin token) s) (fun t => t.uwb.sessions = v.uwb.sessions ++ [{
        num := v.uwb.opened, token := token, renewal := rn, seed := seed,
        kSts := cmac (burstKey s token rn).1 (4 :: seed), vUpper := (cmac (burstKey s token rn).1 (5 :: seed)).take 12,
        kRep := cmac (burstKey s token rn).1 (6 :: seed), plan := (burstKey s token rn).2 }] ∧
      t.uwb.due = v.uwb.due.filter (fun d => d.1 ≠ token) ∧ t.clk.base = max v.clk.base (if rn then announcedAt v token else 0)) := by
  rw [exec_rangingBurstBegin, execRangingBurstBegin, hd]
  dsimp only
  have hgone : (tokenRec s token).isNone = false := by rw [← Option.not_isSome, ht]; rfl
  rw [if_neg (by simp [hf, hr, hri, h0]; omega), if_neg, if_neg, hdraw]
  · refine ⟨_, rfl, ?_⟩
    cases rn with
    | false => exact ⟨rfl, rfl, (Nat.max_zero _).symm⟩
    | true =>
      refine ⟨?_, ?_, ?_⟩
      · simp [openBurst]
      · simp [openBurst]
      · exact (advanceTo_base ..).trans (Nat.max_comm ..)
  · cases rn with
    | true => simp
    | false =>
      obtain ⟨p, hpath, hfits⟩ := hfit rfl
      simp [hpath, hfits]
  · have hhold : (rn && !holdsSession s token) = false := by
      cases rn with
      | false => rfl
      | true => simp [hh rfl]
    simp [hk, hp, hg, hgone, hhold]
theorem rangingRoundStart_begins (token port : Nat) (x : RSess) (s : State) (hx : sessOf s token = some x)
    (hc : s.uwb.sessions.any (·.cur.isSome) = false) (ht : s.uwb.turn.head? = some x.num) (hp : x.plan.head? = some port) (hr : riding s = false)
    (hu : portUsable s port = true) : Completes (exec (.rangingRoundStart token port) s) (fun t =>
      { x with
        cur := some { num := x.count, port := port, since := now s, delayPs := delayOf s port, stsMin := paramW s 0x0511, fpMax := paramW s 0x0512 },
        count := x.count + 1, plan := x.plan.tail, sts := x.sts + 128 } ∈ t.uwb.sessions ∧
      t = { s with uwb := { s.uwb with sessions := t.uwb.sessions } } ∧ t.uwb.sessions.map (·.num) = s.uwb.sessions.map (·.num) ∧
      ∀ y ∈ s.uwb.sessions, y.num ≠ x.num → y ∈ t.uwb.sessions) := by
  rw [exec_rangingRoundStart, execRangingRoundStart, hx]
  dsimp only
  rw [if_neg (by simp only [hc, ht, hp, hr]; simp), if_neg (by simp [hu])]
  refine ⟨_, rfl, mem_onSess (mem_of_sessOf hx) rfl, rfl, ?_, fun y hy hne => mem_onSess_ne hy hne⟩
  simp only [onSess, State.onUwb, List.map_map]
  refine List.map_congr_left (fun y _ => ?_)
  show (if y.num = x.num then _ else y).num = y.num
  split
  · rfl
  · rfl
theorem uwbResponse_kept (token q fp tr tp : Nat) (ph : Option Int) (x : RSess) (r : Round) (s : State) (hx : sessOf s token = some x)
    (hr : x.cur = some r) (hn : r.resp = false) : Completes (exec (.uwbResponseReceived token q fp tr tp ph) s) (fun t =>
    { x with cur := some { r with resp := true, quality := min 255 q, fpPs := fp, tround1 := tr, treply2 := tp, phase := ph } } ∈ t.uwb.sessions ∧
    t = { s with uwb := { s.uwb with sessions := t.uwb.sessions } } ∧ ∀ y ∈ s.uwb.sessions, y.num ≠ x.num → y ∈ t.uwb.sessions) := by
  rw [exec_uwbResponseReceived, execUwbResponseReceived, onRound, hx]
  refine ⟨_, rfl, ?_, rfl, fun y hy hne => mem_onSess_ne hy hne⟩
  refine List.mem_map.mpr ⟨x, mem_of_sessOf hx, (if_pos rfl).trans ?_⟩
  dsimp only
  rw [hr, Option.map_some, if_neg (by simp [hn])]
theorem uwbReport_kept (token : Nat) (pay : Bytes) (x : RSess) (r : Round) (s : State) (hx : sessOf s token = some x) (hr : x.cur = some r)
    (hn : pay.length = 20) (h41 : u8 pay 0 = 0x41) (h1 : u8 pay 1 = r.num) (hm : (cmac x.kRep (pay.take 12)).take 8 = pay.drop 12) :
    Completes (exec (.uwbReportReceived token (pay ++ fcs pay)) s) (fun t =>
      { x with cur := some { r with report := some (beNat (slice pay 2 5), beNat (slice pay 7 5)) } } ∈ t.uwb.sessions ∧
      t = { s with uwb := { s.uwb with sessions := t.uwb.sessions } } ∧ ∀ y ∈ s.uwb.sessions, y.num ≠ x.num → y ∈ t.uwb.sessions) := by
  have htake : (pay ++ fcs pay).take 20 = pay := List.take_left' hn
  have hdrop : (pay ++ fcs pay).drop 20 = fcs pay := List.drop_left' hn
  have hlen : (pay ++ fcs pay).length = 22 := by simp [hn, fcs]
  rw [exec_uwbReportReceived, execUwbReportReceived]
  dsimp only
  rw [htake, hdrop, hlen, onRound, hx]
  refine ⟨_, rfl, ?_, rfl, fun y hy hne => mem_onSess_ne hy hne⟩
  refine List.mem_map.mpr ⟨x, mem_of_sessOf hx, (if_pos rfl).trans ?_⟩
  dsimp only
  rw [hr, Option.map_some, if_pos]
  rw [h41, h1, hm]
  simp
theorem rangingRoundEnd_next (token ovf : Nat) (x : RSess) (r : Round) (s : State) (hx : sessOf s token = some x) (hr : x.cur = some r)
    (hp : x.plan ≠ []) :
    let u := queueOverflow 4 ovf (advanceTo (r.since + 1600) s)
    let d := roundDone u r
    let w := match clockRatio d with | some v => crystalSample token v u | none => u
    let v := updateUwb ((boundaryM .round w).onUwb (fun u => { u with turn := u.turn.tail ++ u.turn.take 1 }))
    exec (.rangingRoundEnd token ovf) s = .next (if (tokenRec v token).isNone then endRanging { x with cur := none, rounds := x.rounds ++ [d] } v
      else onSess x.num (fun y => { y with cur := none, rounds := x.rounds ++ [d] }) v) := by
  intro u d w v
  rw [exec_rangingRoundEnd, execRangingRoundEnd, hx]
  dsimp only
  rw [hr]
  dsimp only
  have hpe : (!x.plan.isEmpty) = true := by simp [hp]
  rw [if_pos hpe, ← apply_ite next]
    <;> rfl
theorem uwbSelftestFail_drops (s : State) (h : started s = true) :
    Completes (exec .uwbSelftestFail s) (fun t => t.uwb.failed = true ∧ t.uwb.sessions = [] ∧ t.uwb.due = []) := by
  rw [exec_uwbSelftestFail, execUwbSelftestFail, if_neg (by simp [h])]
  refine ⟨_, rfl, ?_⟩
  unfold dropBursts
  extract_lets toks u
  have hu : (boundaryM .frozenUwb (boundaryM .round u)).uwb = u.uwb := (boundaryM_uwb ..).trans (boundaryM_uwb ..)
  obtain ⟨hs, hd, hf⟩ := updateUwb_bursts (boundaryM .frozenUwb (boundaryM .round u))
  rw [hu] at hs hd hf
  have hfold : ∀ w : State, (toks.foldl (fun s t => markRanged t s) w).uwb = w.uwb := foldl_keeps (f := fun s t => markRanged t s) State.uwb (fun _ _ => rfl) toks
  dsimp only
  rw [hfold]
  exact ⟨hf, hs, hd⟩

/-- Settles O33: a round's message changes its own session, and every other session stays in the list. -/
theorem rangingBursts : Obligations.RangingBursts := by
  unfold Obligations.RangingBursts
  exact fun token port q fp tr tp ovf rn ph pay seed l x r s v => ⟨renewalBurstDue_waits token l s, rangingBurstBegin_opens token rn seed s v,
    rangingRoundStart_begins token port x s, uwbResponse_kept token q fp tr tp ph x r s, uwbReport_kept token pay x r s,
    rangingRoundEnd_next token ovf x r s, uwbSelftestFail_drops s⟩
end Sys2Proof.Machine
end

section
/-! Paths: their queue, their windows and their authentication (O34, O35, O36). -/

namespace Sys2Proof.Machine
open Sys2Proof
/-! ### What the radio's work leaves of the path -/

theorem path_ite (c : Prop) [Decidable c] (s t : State) : (if c then s else t).path = if c then s.path else t.path := apply_ite ..
@[simp] theorem boundaryM_path (b : Bound) (s : State) : (boundaryM b s).path = s.path := mirror_path ..
@[simp] theorem cmdDoneO_path (ref : Option CmdRef) (st : Nat) (b : Bytes) (s : State) : (cmdDoneO ref st b s).path = s.path := by
  unfold cmdDoneO
  split
  · exact emitX_path ..
  · rfl
@[simp] theorem invalidateAll_path (s : State) : (invalidateAll s).path = s.path :=
  (emitX_path ..).trans rfl
@[simp] theorem takeRadioRecords_path (s : State) : (takeRadioRecords s).path = s.path := by
  unfold takeRadioRecords
  extract_lets reg table newT u bands v w
  have hw : w.path = s.path := by
    unfold w
    rw [path_ite, invalidateAll_path, ite_self]
    rfl
  clear_value w reg
  split
  · exact hw
  · extract_lets x asked y
    have hx : x.path = w.path := by
      unfold x
      refine foldl_keeps State.path (fun s c => ?_) _ _
      exact (emitX_path ..).trans rfl
    rw [path_ite, cmdDoneO_path]
    split
    · exact hx.trans hw
    · exact hx.trans hw
@[simp] theorem packetBoundary_path (s : State) : (packetBoundary s).path = s.path := by
  unfold packetBoundary
  extract_lets u v
  have hv : v.path = s.path := by
    unfold v
    rw [path_ite]
    split
    · exact boundaryM_path ..
    · exact boundaryM_path ..
  rw [path_ite, takeRadioRecords_path, ite_self, hv]
@[simp] theorem rxClose_path (s : State) : (rxClose s).path = s.path := packetBoundary_path ..
@[simp] theorem endTx_path (s : State) : (endTx s).path = s.path := by
  unfold endTx
  split
  · rfl
  · extract_lets u
    refine (packetBoundary_path _).trans ?_
    show u.path = s.path
    unfold u
    split
    · rfl
    · rfl
@[simp] theorem makeWay_path (prec n : Nat) (s : State) : (makeWay prec n s).path = s.path := by
  unfold makeWay
  extract_lets u keep v
  have hv : v.path = s.path := by
    unfold v
    split
    · rfl
    · rfl
  split
  · split
    · rw [cmdDoneO_path, endTx_path]
      exact hv
    · exact hv
  · exact hv
@[simp] theorem coexLead_path (prec : Nat) (s : State) : (coexLead prec s).path = s.path := by
  have h : ∀ u, (coexRaise prec u).path = u.path := fun u => by
    unfold coexRaise
    split
    · rfl
    · rfl
  unfold coexLead
  split
  · exact (passUs_path ..).trans (h _)
  · exact h _
@[simp] theorem radiate_path (s : State) : (radiate s).path = s.path := by
  unfold radiate
  split
  · rfl
  · dsimp only
    split
    · exact coexLead_path ..
    · exact coexLead_path ..
@[simp] theorem txGo_path (s : State) : (txGo s).path = s.path := by
  unfold txGo
  split
  · rfl
  · split
    · exact radiate_path _
    · split
      · rfl
      · rfl
@[simp] theorem dutyEvent_path (s : State) : (dutyEvent s).path = s.path := by
  have h : ∀ k us, (rateLimit k us s).2.path = s.path := fun k us => by
    unfold rateLimit
    split
    · split
      · rfl
      · rfl
    · rfl
  unfold dutyEvent
  dsimp only
  rw [path_ite]
  split
  · exact (emitX_path ..).trans (h ..)
  · exact h ..
@[simp] theorem radChecks_path (f a us prec : Nat) (s : State) : (radChecks f a us prec s).2.path = s.path := by
  unfold radChecks
  (repeat' split) <;> simp
@[simp] theorem txRequest_path (t : Tx) (s : State) : (txRequest t s).2.path = s.path := by
  unfold txRequest
  have h := radChecks_path t.freq t.asked t.airUs t.prec s
  generalize radChecks t.freq t.asked t.airUs t.prec s = r at *
  obtain ⟨_ | ⟨n, e⟩, u⟩ := r
  · exact h
  · dsimp only
    have hv : (makeWay t.prec n u).path = s.path := (makeWay_path ..).trans h
    split
    · exact hv
    · split
      · split
        · exact hv
        · exact hv
      · exact (txGo_path _).trans hv
theorem queueInvoc_path (v : Invoc) (s : State) : (queueInvoc v s).2.path = s.path := by
  unfold queueInvoc
  split
  · rfl
  · rfl
@[simp] theorem transmitDone_path (b r : Nat) (s : State) : (transmitDone b r s).path = s.path := by
  unfold transmitDone
  split
  · rfl
  · exact queueInvoc_path ..
theorem txEnded_pathless {t : Tx} {st : Nat} {s : State} (h : s.path = none) : (txEnded t st s).path = none := by
  unfold txEnded
  extract_lets u v
  have hu : u.path = none := (cmdDoneO_path ..).trans h
  clear_value u
  have hv : v.path = none := by
    unfold v
    split
    · exact (transmitDone_path ..).trans hu
    · exact hu
  clear_value v
  split
  · exact hv
  · split
    · simp [denyPath, denyPathBy, hv]
    · rw [hv]
      exact hv
theorem serveTx_pathless {s : State} (h : s.path = none) : (serveTx s).path = none := by
  unfold serveTx
  refine foldl_keeps_prop (p := fun s : State => s.path = none) _ (fun u _ _ hu => ?_) _ h
  dsimp only
  split
  · exact hu
  · split
    · exact hu
    · next t _ _ =>
      have hr : (txRequest t (u.onRad (fun r => { r with waits := r.waits.erase t }))).2.path = none := (txRequest_path ..).trans hu
      split
      · exact hr
      · exact txEnded_pathless hr

/-! ### Paths -/

theorem pushPath_queued (r : PathReq) {s : State} (h : s.path = none) (hn : s.paths.length < 8) : pushPath r s = (true, { s with paths := s.paths ++ [r] }) := by
  unfold pushPath
  dsimp only
  rw [h, if_neg (by simp), if_neg (by omega)]
theorem pushPath_full (r : PathReq) {s : State} (h : s.path = none) (hn : 8 ≤ s.paths.length) : pushPath r s = (false, s) := by
  unfold pushPath
  dsimp only
  rw [h, if_neg (by simp), if_pos hn]
theorem pushPath_merged {r : PathReq} {p : Path} {s : State} (h : s.path = some p) (hs : p.step = .toFlood) (he : p.ended = false)
    (hk : p.req.kind = .access) (hr : r.kind = .access) : pushPath r s = (true, s.onPath (fun p => mergeReq r p s)) := by
  unfold pushPath
  dsimp only
  rw [h, if_pos (by simp [hs, he, hk, hr])]
/-- A command that asks for a path, once it has begun and passed the checks of Table 6-10. -/
theorem pathStart_asks (m : MbxCmd) (s : State) (ref : CmdRef) (u : State) (hb : begun 0x0600 m s = some (ref, u)) (hl : m.payload.length = 4)
    (h2 : u8 m.payload 0 ≤ 2) (h31 : u8 m.payload 1 ≤ 31) (hw : paramW u 0x0402 ≠ 0) : exec (.pathStart m) s = .next (
      let (ok, v) := pushPath {
        kind := (match u8 m.payload 0 with | 0 => .access | 1 => .start | _ => .locate), trigger := u8 m.payload 1,
        doors := u16 m.payload 2, ref := some ref, at_ := now u, coils := (wakeMap u (u8 m.payload 1)).2.2, fromHost := true } u
      if ok then accepted ref v else respond ref stNoResource [] v) := by
  rw [exec_pathStart, execPathStart, runCmd_begun hb, needLen_eq hl, need_true (by simp [h2, h31]), need_true (by simp [hw])]
    <;> rfl
theorem transponderStart_checks (m : MbxCmd) (s : State) (ref : CmdRef) (u : State) (hb : begun 0x0603 m s = some (ref, u)) (hl : m.payload.length = 4)
    (h0 : u8 m.payload 0 = 1 ∨ u8 m.payload 0 = 2) (h1 : u8 m.payload 1 ≤ 1) (hz : zeros m.payload 2 2 = true) (hd : tpDiags (u8 m.payload 0) u = 0) :
    exec (.transponderStart m) s = .next (need (u.path.isNone && u.paths.isEmpty) ref stBusy u fun s =>
      let (ok, s) := pushPath { kind := .transponder, ref := some ref, at_ := now s, fromHost := true, port := u8 m.payload 0, identOnly := u8 m.payload 1 = 1 } s
      if ok then accepted ref s else respond ref stBusy [] s) := by
  rw [exec_transponderStart, execTransponderStart, runCmd_begun hb, needLen_eq hl, need_true (by simp [h1, hz, h0]), need_true (by simp [hd])]
theorem transponderStart_queues (m : MbxCmd) (s : State) (ref : CmdRef) (u : State) (hb : begun 0x0603 m s = some (ref, u)) (hl : m.payload.length = 4)
    (h0 : u8 m.payload 0 = 1 ∨ u8 m.payload 0 = 2) (h1 : u8 m.payload 1 ≤ 1) (hz : zeros m.payload 2 2 = true) (hd : tpDiags (u8 m.payload 0) u = 0)
    (hp : u.path = none) (hps : u.paths = []) : exec (.transponderStart m) s = .next (accepted ref { u with paths := [{
      kind := .transponder, ref := some ref, at_ := now u, fromHost := true, port := u8 m.payload 0, identOnly := u8 m.payload 1 = 1 }] }) := by
  rw [transponderStart_checks m s ref u hb hl h0 h1 hz hd, need_true (by simp [hp, hps]), pushPath_queued _ hp (by simp [hps])]
  dsimp only
  rw [if_pos rfl, hps]
  rfl
theorem transponderStart_busy (m : MbxCmd) (s : State) (ref : CmdRef) (u : State) (hb : begun 0x0603 m s = some (ref, u)) (hl : m.payload.length = 4)
    (h0 : u8 m.payload 0 = 1 ∨ u8 m.payload 0 = 2) (h1 : u8 m.payload 1 ≤ 1) (hz : zeros m.payload 2 2 = true) (hd : tpDiags (u8 m.payload 0) u = 0)
    (hp : u.path ≠ none ∨ u.paths ≠ []) : exec (.transponderStart m) s = .next (respond ref stBusy [] u) := by
  rw [transponderStart_checks m s ref u hb hl h0 h1 hz hd, need_false]
  rcases hp with hp | hp
  · rw [Option.isNone_eq_false_iff.mpr (Option.isSome_iff_ne_none.mpr hp), Bool.false_and]
  · rw [List.isEmpty_eq_false_iff.mpr hp, Bool.and_false]
/-- A path that begins, up to its first step. -/
theorem pathBegin_begins (r : PathReq) (p : Path) (s w : State) (ha : awake s = true) (hp : s.path = none) (hr : riding s = false)
    (hs : s.pair.switch_ = none) (hn : nextReq s.paths = some r) :
    let b := updateUwb (boundaryM .path { s with paths := s.paths.erase r })
    newPath r b = (p, w) →
    let v := takeRelKeys { w with path := some p }
    exec .pathBegin s = .next ((earlyDenial v p).elim (firstStep (toFloodUs r b) v) (denyPath · v)) := by
  intro b hw v
  rw [exec_pathBegin, execPathBegin, if_neg (by simp [ha, hp, hr, hs]), hn]
  dsimp only
  rw [show newPath r _ = (p, w) from hw]
  dsimp only
  cases earlyDenial v p with
  | some d => rfl
  | none => rfl
theorem enterFlood_now (s : State) : now (enterFlood s) = now s := by
  unfold enterFlood
  split
  · rfl
  · show now (if s.pwr.state = .flood then s else mirror [.power 3] s) = now s
    split
    · rfl
    · exact congrArg Clk.base (mirror_clk ..)
theorem tpBegins_enterFlood (s : State) : tpBegins (enterFlood s) = addLfDuty 110 ((enterFlood s).onPath (fun p => { p with step := .tpCharge, since := now s })) := by
  unfold tpBegins
  rw [enterFlood_now]
theorem firstStep_eq (pre : Nat) {p : Path} {v : State} (h : v.path = some p) : firstStep pre v =
    if p.req.kind = .transponder then
      (if fits v p (pre + 110000 + 10000) then tpBegins (enterFlood v) else deadlinePath v)
    else if fits v p (pre + wakeUs v + windowUs v + 5000 + tailUs v p) then enterFlood v
    else deadlinePath v := by
  unfold firstStep
  rw [h]
  dsimp only
  congr 1
  · cases fits v p (pre + 110000 + 10000) <;> rfl
  · cases fits v p (pre + wakeUs v + windowUs v + 5000 + tailUs v p) <;> rfl
theorem pathBegin_outcomes (r : PathReq) (p : Path) (s w : State) (ha : awake s = true) (hp : s.path = none) (hr : riding s = false)
    (hs : s.pair.switch_ = none) (hn : nextReq s.paths = some r) :
    let b := updateUwb (boundaryM .path { s with paths := s.paths.erase r })
    newPath r b = (p, w) →
    let flood := toFloodUs r b
    let v := takeRelKeys { w with path := some p }
    (∀ d, earlyDenial v p = some d → exec .pathBegin s = .next (denyPath d v)) ∧
    (p.req.kind = .transponder → earlyDenial v p = none →
      (fits v p (flood + 110000 + 10000) = true → exec .pathBegin s = .next (addLfDuty 110 ((enterFlood v).onPath (fun p => { p with
        step := .tpCharge, since := now v })))) ∧
      (fits v p (flood + 110000 + 10000) = false → exec .pathBegin s = .next (deadlinePath v))) ∧
    (p.req.kind ≠ .transponder → earlyDenial v p = none →
      (fits v p (flood + wakeUs v + windowUs v + 5000 + tailUs v p) = true → exec .pathBegin s = .next (enterFlood v)) ∧
      (fits v p (flood + wakeUs v + windowUs v + 5000 + tailUs v p) = false → exec .pathBegin s = .next (deadlinePath v))) := by
  intro b hw flood v
  have hbegin := pathBegin_begins r p s w ha hp hr hs hn hw
  have hfirst : firstStep (toFloodUs r b) v = _ := firstStep_eq (toFloodUs r b) rfl
  have hbegin' : exec .pathBegin s = .next ((earlyDenial v p).elim (firstStep flood v) (denyPath · v)) := hbegin
  rw [hbegin']
  have hfirst' : firstStep flood v = if p.req.kind = .transponder then
      (if fits v p (flood + 110000 + 10000) then tpBegins (enterFlood v) else deadlinePath v)
    else if fits v p (flood + wakeUs v + windowUs v + 5000 + tailUs v p) then enterFlood v
    else deadlinePath v := hfirst
  clear hbegin hbegin' hfirst
  clear_value v flood
  refine ⟨fun d hd => by rw [hd]; rfl, fun hk hd => ?_, fun hk hd => ?_⟩
  · rw [hd, Option.elim_none, hfirst', if_pos hk, ← tpBegins_enterFlood]
    exact ⟨fun hf => by rw [if_pos hf], fun hf => by rw [if_neg (by simp [hf])]⟩
  · rw [hd, Option.elim_none, hfirst', if_neg hk]
    exact ⟨fun hf => by rw [if_pos hf], fun hf => by rw [if_neg (by simp [hf])]⟩
theorem pathEnd_clears (p : Path) (s : State) (hp : s.path = some p) (he : p.ended = true) : Completes (exec .pathEnd s) (fun t => t.path = none) := by
  rw [exec_pathEnd, execPathEnd, hp]
  dsimp only
  rw [if_neg (by simp [he])]
  have h : ∀ u : State, (serveTx (activity { u with path := none })).path = none := fun u => serveTx_pathless rfl
  have hpush : ∀ (r : PathReq) {u : State}, u.path = none → (pushPath r u).2.path = none := fun r u hu => by
    unfold pushPath
    dsimp only
    rw [hu, if_neg (by simp)]
    split
    · exact hu
    · rfl
  split
  · exact ⟨_, rfl, hpush _ (h _)⟩
  · exact ⟨_, rfl, h _⟩
theorem closePath_path {n : Nat} {d : Option Nat} {p : Path} {s : State} (hp : s.path = some p) (hc : s.lf.cur = none) (ht : s.rad.tx = none) :
    ∃ q, (closePath n d s).path = some q ∧ q.ended = true ∧ q.outcome = some n ∧ q.denied = d ∧ q.step = .ended := by
  have hs : stopPathWork s = s := by simp [stopPathWork, hc, ht]
  unfold closePath
  rw [hs, path_ite, rxClose_path, ite_self]
  refine ⟨_, (congrArg (Option.map _) hp :), rfl, rfl, rfl, rfl⟩
theorem deadlinePath_ends {p : Path} {s : State} (hp : s.path = some p) (he : p.ended = false) (hc : s.lf.cur = none) (ht : s.rad.tx = none) :
    ∃ q, (deadlinePath s).path = some q ∧ q.ended = true ∧ q.outcome = some 2 ∧ q.denied = none ∧ q.step = .ended := by
  unfold deadlinePath
  rw [hp]
  dsimp only
  rw [if_neg (by simp [he])]
  exact closePath_path (p := p) ((emitX_path ..).trans hp) ((congrArg Lf.cur (emitX_lf ..)).trans hc) ((congrArg Rad.tx (emitX_rad ..)).trans ht)
theorem denyPath_ends {p : Path} {s : State} (k : Nat) (hp : s.path = some p) (he : p.ended = false) (hc : s.lf.cur = none) (ht : s.rad.tx = none) :
    ∃ q, (denyPath k s).path = some q ∧ q.ended = true ∧ q.outcome = some 1 ∧ q.denied = some k ∧ q.step = .ended := by
  unfold denyPath denyPathBy
  rw [hp]
  dsimp only
  rw [if_neg (by simp [he])]
  have h := fun (a b : Nat) (l : Bytes) (o : EvOpt) => closePath_path (n := 1) (d := some k) (s := emitX a b l o s) (p := p) ((emitX_path ..).trans hp)
    ((congrArg Lf.cur (emitX_lf ..)).trans hc) ((congrArg Rad.tx (emitX_rad ..)).trans ht)
  split
  · exact closePath_path hp hc ht
  · exact closePath_path hp hc ht
  · exact h ..

/-- Settles O34: a request waits in the queue; a path's first step is what its deadline leaves room for; the radio's work keeps the path. -/
theorem paths : Obligations.Paths := by
  unfold Obligations.Paths
  refine ⟨fun m s ref u => ⟨fun hb hl h2 h31 hw hp hn => ?_, fun hb hl h2 h31 hw hp hn => ?_, fun p hb hl h0 h31 hw hp hs he hk => ?_,
      transponderStart_queues m s ref u, transponderStart_busy m s ref u⟩,
    fun r p s w => ⟨pathBegin_outcomes r p s w, fun hp he => ?_, pathEnd_clears p s, fun hp he hc ht =>
      ⟨deadlinePath_ends hp he hc ht, fun k => denyPath_ends k hp he hc ht⟩⟩⟩
  · rw [pathStart_asks m s ref u hb hl h2 h31 hw, pushPath_queued _ hp hn]
    rfl
  · rw [pathStart_asks m s ref u hb hl h2 h31 hw, pushPath_full _ hp hn]
    rfl
  · rw [pathStart_asks m s ref u hb hl (by omega) h31 hw, pushPath_merged hp hs he hk (by dsimp only; rw [h0]; rfl), h0]
    rfl
  · rw [exec_pathDeadlineExpiry, execPathDeadlineExpiry, hp]
    dsimp only
    rw [if_neg (by simp [he])]
/-! ### The response window -/

@[simp] theorem rxSync_path (s : State) : (rxSync s).path = s.path := rfl
@[simp] theorem rxFrame_path (s : State) : (rxFrame s).path = s.path := packetBoundary_path _
theorem queueOverflow_path (row n : Nat) (s : State) : (queueOverflow row n s).path = s.path := by
  unfold queueOverflow
  split
  · rfl
  · exact emitX_path ..
theorem onPath_congr {f g : Path → Path} {p : Path} {s : State} (hp : s.path = some p) (h : f p = g p) : s.onPath f = s.onPath g := by
  simp only [State.onPath, hp, Option.map_some, h]
theorem onPath_some {p : Path} {s : State} (hp : s.path = some p) (f : Path → Path) : (s.onPath f).path = some (f p) := congrArg (Option.map f) hp
theorem responseWindowOpen_opens (temp : Int) (p : Path) (s v : State) (hp : s.path = some p) (he : p.ended = false) (hg : p.step = .guard)
    (hw : p.windowAt ≠ 0) (hr : riding s = false) (ht : txHolds 1 s = false) :
    let u := advanceTo p.windowAt (coexLead 1 (advanceTo (p.windowAt - 40) (strandReads temp s)))
    (fits u p (p.slots * twSlotUs u + 5000 + tailUs u p) = true →
      (rxOpen p.freq 1 u = (true, v) → exec (.responseWindowOpen temp) s = .next ((notifySlots 2
        ([byte p.poll, 0] ++ p.nDev ++ le48 (tide v) ++ [byte p.plan]) v).onPath (fun p => { p with step := .window, slot := 0, slotAns := false }))) ∧
      (rxOpen p.freq 1 u = (false, v) → exec (.responseWindowOpen temp) s = .next (denyPath 7 v))) ∧
    (fits u p (p.slots * twSlotUs u + 5000 + tailUs u p) = false → exec (.responseWindowOpen temp) s = .next (deadlinePath u)) := by
  intro u
  have hrow : exec (.responseWindowOpen temp) s = if !fits u p (p.slots * twSlotUs u + 5000 + tailUs u p) then next (deadlinePath u) else
      match rxOpen p.freq 1 u with
      | (false, s) => next (denyPath 7 s)
      | (true, s) => next ((notifySlots 2 ([byte p.poll, 0] ++ p.nDev ++ le48 (tide s) ++ [byte p.plan]) s).onPath
          (fun p => { p with step := .window, slot := 0, slotAns := false })) := by
    have hfilter : (strandReads temp s).path.filter (fun p => !p.ended && p.step = .guard && p.windowAt ≠ 0) = some p := by
      show s.path.filter _ = _
      rw [hp]
      simp [he, hg, hw]
    rw [exec_responseWindowOpen, execResponseWindowOpen]
    dsimp only
    rw [hfilter]
    dsimp only
    refine (if_neg ?_).trans ?_
    · show ¬(riding s || txHolds 1 s) = true
      rw [hr, ht]
      decide
    · exact rfl
  rw [hrow]
  clear_value u
  refine ⟨fun hf => ⟨fun ho => ?_, fun ho => ?_⟩, fun hf => ?_⟩
  · rw [hf, ho]
    rfl
  · rw [hf, ho]
    rfl
  · rw [hf]
    rfl
theorem slotEnd_ends (p : Path) (ovf : Nat) (energy sync : Bool) (s : State) (hp : s.path = some p) (hw : p.step = .window) (he : p.ended = false) :
    let u := packetBoundary (queueOverflow 3 ovf (advanceTo (p.windowAt + (p.slot + 1) * twSlotUs s) s))
    let r := if sync then rxFrame u else u
    let w := r.onPath (fun q => { q with collided := p.collided || (!p.slotAns && (energy || sync)), slot := p.slot + 1, slotAns := false })
    (chanOf r p.freq = none → exec (.slotEnd energy sync ovf) s = .next (denyPath 7 r)) ∧
    (chanOf r p.freq ≠ none → param r 0x0405 ≠ 1 →
      (p.slot + 1 < p.slots → exec (.slotEnd energy sync ovf) s = .next w) ∧
      (p.slots ≤ p.slot + 1 → exec (.slotEnd energy sync ovf) s = .next (serveTx (windowEnd w)))) := by
  intro u r w
  have hr : r.path = some p := by
    have hu : u.path = some p := (packetBoundary_path _).trans ((queueOverflow_path ..).trans ((advanceTo_path ..).trans hp))
    unfold r
    rw [path_ite, rxFrame_path, ite_self, hu]
  have hrow : exec (.slotEnd energy sync ovf) s = if (chanOf r p.freq).isNone then next (denyPath 7 r) else
      if param r 0x0405 = 1 && p.req.kind ≠ .attribution && !(p.collided || (!p.slotAns && (energy || sync))) &&
          p.answers.any (fun a => a.lfMet && a.plugin.isNone && a.poll == p.poll) then
        next (serveTx (beginAuths (w.onPath (fun p => { p with early := true }))))
      else if p.slot + 1 ≥ p.slots then next (serveTx (windowEnd w)) else next w := by
    have hfilter : s.path.filter (fun p => p.step = .window && !p.ended) = some p := by
      rw [hp]
      simp [he, hw]
    have hwr : w = r.onPath (fun q => { q with collided := p.collided || (!p.slotAns && (energy || sync)), slot := q.slot + 1, slotAns := false }) :=
      onPath_congr hr rfl
    rw [hwr, exec_slotEnd, execSlotEnd]
    dsimp only
    rw [hfilter]
    rfl
  rw [hrow]
  clear_value w r
  refine ⟨fun hc => ?_, fun hc hpar => ?_⟩
  · rw [if_pos (by rw [hc]; rfl)]
  · rw [if_neg (by rw [Option.isNone_iff_eq_none]; exact hc), if_neg (by simp [hpar])]
    exact ⟨fun h => if_neg (by omega), fun h => if_pos h⟩
theorem crystalSample_ero (token : Nat) (x : Int) (s : State) : ∃ e, crystalSample token x s = { s with ero := e } := by
  unfold crystalSample erodeAdd
  split
  · exact ⟨_, rfl⟩
  · exact ⟨_, rfl⟩
theorem answerReceived_kept (p : Path) (slot idx : Nat) (body : Bytes) (off carrier : Int) (s : State) (hp : s.path = some p) (hw : p.step = .window)
    (he : p.ended = false) (hs : slot = p.slot) (hl : body.length = 32) (h11 : u8 body 0 = 0x11) (hb : body.getD 28 0 = pollByte p.poll slot) :
    let r := rxFrame s
    r.path = some p → 1 ≤ u8 body 1 → u8 body 1 ≤ 3 → u8 body 1 ≤ p.version → zeros body 29 3 = true → tokenOf r (beNat (slice body 2 4)) = some idx →
    slotFor r (beNat (slice body 2 4)) p.nDev = slot → bitSet (u8 ((tokenRec r idx).getD []) 1) 2 = false →
    min (tokVersion r idx) p.version ≤ u8 body 1 → tokCounter r idx < beNat (slice body 14 4) →
    Completes (exec (.answerReceived slot body off carrier) s) (fun t => ∃ (q : Path) (a : Ans), t.path = some q ∧
      t.rad = r.rad ∧ t.lf = r.lf ∧ t.rel = r.rel ∧ t.zon = r.zon ∧ t.store = r.store ∧
      q.answers = p.answers.filter (fun x => x.idx ≠ idx) ++ [a] ∧ a.idx = idx ∧ a.counter = beNat (slice body 14 4) ∧
      a.nTok = slice body 6 8 ∧ a.nDev = p.nDev ∧ a.version = u8 body 1 ∧ a.offNs = off ∧ q.slotAns = true ∧ q.collided = p.collided) := by
  intro r hr h1 h3 hv hz ht hslot hrev hver hctr
  rw [exec_answerReceived, execAnswerReceived, hp]
  dsimp only
  rw [if_neg (by simp [hw, he, hs]), if_neg (by rw [hl, h11, hb, hz]; simp; omega), if_neg (by simp; omega), show tokenOf (rxFrame s) _ = some idx from ht]
  dsimp only
  rw [if_neg (Classical.not_not.mpr hslot)]
  have hrev' : ¬bitSet (u8 ((tokenRec (r.onPath (fun p => { p with slotAns := true })) idx).getD []) 1) 2 = true := Bool.eq_false_iff.mp hrev
  have hver' : ¬(u8 body 1 < min (tokVersion (r.onPath (fun p => { p with slotAns := true })) idx) p.version) := Nat.not_lt.mpr hver
  have hctr' : ¬(beNat (slice body 14 4) ≤ tokCounter (r.onPath (fun p => { p with slotAns := true })) idx) := Nat.not_le.mpr hctr
  rw [if_neg hrev', if_neg hver', if_neg hctr']
  obtain ⟨e, hs⟩ := crystalSample_ero idx carrier (r.onPath (fun p => { p with slotAns := true }))
  rw [show crystalSample idx carrier ((rxFrame s).onPath _) = _ from hs]
  clear_value r
  exact ⟨_, rfl, _, _, onPath_some (onPath_some hr _) _, rfl, rfl, rfl, rfl, rfl, rfl, rfl, rfl, rfl, rfl, rfl, rfl, rfl, rfl⟩
theorem answerReceived_collides (p : Path) (slot : Nat) (body : Bytes) (off carrier : Int) (s : State) (hp : s.path = some p) (hw : p.step = .window)
    (he : p.ended = false) (hs : slot = p.slot) (hl : body.length ≠ 32) (hr : (rxFrame s).path = some p) :
    exec (.answerReceived slot body off carrier) s = .next { rxFrame s with path := some { p with collided := true, slotAns := true } } := by
  rw [exec_answerReceived, execAnswerReceived, hp]
  dsimp only
  rw [if_neg (by simp [hw, he, hs]), if_pos (by simp [hl]), State.onPath, hr]
  rfl
theorem pluginFrame_offered (claim syncEnd : Nat) (body : Bytes) (offUs : Option Int) (s v : State) (hb : body ≠ []) (hl : body.length ≤ 240)
    (hh : halted s = false) (hr : running s = true) (hk : u8 body 0 ∉ [0x11, 0x12, 0x13]) (hp : s.path = none)
    (hc : claimant s (u8 body 0) = some claim) (ho : offerFrame claim body 0xFF syncEnd offUs s = (true, v)) (hs : v.ext.step = none) :
    exec (.pluginFrameReceived body syncEnd offUs) s = .next v := by
  rw [exec_pluginFrameReceived, execPluginFrameReceived]
  dsimp only
  have hk' : [0x11, 0x12, 0x13].contains (u8 body 0) = false := by simpa using hk
  rw [if_neg (by rw [List.isEmpty_eq_false_iff.mpr hb, hh, hr, hk']; simp; omega), hp]
  dsimp only
  rw [if_neg Bool.false_ne_true, hc]
  dsimp only
  rw [if_neg Bool.false_ne_true, ho]
  dsimp only
  rw [if_neg (by decide), if_neg Bool.false_ne_true, if_neg (by simp [hs])]

/-- Settles O35: the window's steps keep the path (`packetBoundary_path`), so what is heard is judged against the poll that was sent. -/
theorem responseWindow : Obligations.ResponseWindow := by
  unfold Obligations.ResponseWindow
  exact fun p slot idx claim syncEnd ovf energy sync body off carrier temp offUs s v => ⟨responseWindowOpen_opens temp p s v, slotEnd_ends p ovf energy sync s,
    answerReceived_kept p slot idx body off carrier s, answerReceived_collides p slot body off carrier s, pluginFrame_offered claim syncEnd body offUs s v⟩
/-! ### A path's authentication -/

theorem proofReceived_checks (p : Path) (a : Ans) (k body : Bytes) (off : Int) (s : State) (hp : s.path = some p) (ha : p.cur = some a)
    (hc : p.step = .challenge) (he : p.ended = false) (hd : p.cDev ≠ []) (hl : body.length = 10) (h12 : u8 body 0 = 0x12)
    (hb : body.getD 1 0 = pollByte a.poll a.slot) (hk : tokenKey s a.idx = some k) : exec (.proofReceived body off) s =
      if (proofs (sessionKey k a) (transcript (param (rxFrame s) 0x0402) a p.cDev)).2 == body.drop 2 then
        .next (nextAuth (authenticated a (some (sessionKey k a)) off a.version a.slot (rxFrame s)))
      else .next (nextAuth (emit evTokenAuthFail 1 (le16 a.idx ++ [1]) (rxFrame s))) := by
  rw [exec_proofReceived, execProofReceived, hp]
  dsimp only
  rw [ha]
  dsimp only
  rw [if_neg, hk]
  · rw [hc, he, hl, h12, hb, List.isEmpty_eq_false_iff.mpr hd]
    simp
theorem proofTimeout_checks (p : Path) (a : Ans) (s : State) (hp : s.path = some p) (ha : p.cur = some a) (hc : p.step = .challenge)
    (he : p.ended = false) (hd : p.cDev ≠ []) (h0 : p.stepEnd ≠ 0) (hk : (tokenKey s a.idx).isSome = true) (hr : riding s = false) :
    exec .proofTimeout s =
      if !p.repeated && fits (advanceTo p.stepEnd s) p (5000 + tailUs (advanceTo p.stepEnd s) p) then
        .next (transmitChallenge a p.cDev p.pDev ((advanceTo p.stepEnd s).onPath (fun p => { p with repeated := true })))
      else .next (nextAuth (emit evTokenAuthFail 1 (le16 a.idx ++ [2]) (advanceTo p.stepEnd s))) := by
  rw [exec_proofTimeout, execProofTimeout, hp]
  dsimp only
  rw [ha]
  dsimp only
  rw [if_neg, if_neg (by rw [← Option.not_isSome, hk]; decide)]
  · rw [hc, he, hr, List.isEmpty_eq_false_iff.mpr hd, decide_eq_false h0]
    decide
theorem pathZoneDecision_checks (p : Path) (s : State) (hp : s.path = some p) (he : p.ended = false) (hs : pathSettled p = true) (hr : riding s = false) :
    exec .pathZoneDecision s = if fits s p (1000 + signalUs s p) then .next (decidePath s) else .next (deadlinePath s) := by
  rw [exec_pathZoneDecision, execPathZoneDecision, hp]
  dsimp only
  rw [if_neg (by rw [he, hs, hr]; decide)]
  cases fits s p (1000 + signalUs s p) <;> rfl

/-! ### The transponder exchange -/

theorem tpAt_some {st : PathStep} {s : State} {p : Path} (h : tpAt st s = some p) : s.path = some p ∧ p.step = st ∧ p.ended = false := by
  unfold tpAt at h
  split at h
  · next q hq =>
    split at h
    · next hc =>
      cases h
      simp only [Bool.and_eq_true, decide_eq_true_eq, Bool.not_eq_true'] at hc
      exact ⟨hq, hc.1.1, hc.1.2⟩
    · cases h
  · cases h
theorem tpAt_ne {st st' : PathStep} {s : State} {p : Path} (h : tpAt st s = some p) (hne : st ≠ st') : tpAt st' s = none := by
  obtain ⟨hp, hs, -⟩ := tpAt_some h
  unfold tpAt
  rw [hp]
  simp [hs, hne]
theorem tpChargeEnd_ends (p : Path) (s : State) (h : tpAt .tpCharge s = some p) : Completes (exec .tpChargeEnd s) (fun t =>
    let e := max s.clk.base (p.since + 50000)
    t.path = some { p with step := .tpIdent, stepEnd := e + 1000, since := e } ∧ t.clk.base = e ∧ t.lf = { s.lf with lastEnd := e }) := by
  have hbase : now (advanceTo (p.since + 50000) s) = max s.clk.base (p.since + 50000) := (advanceTo_base ..).trans (Nat.max_comm ..)
  have hpath : (advanceTo (p.since + 50000) s).path = some p := (advanceTo_path ..).trans (tpAt_some h).1
  have hlf : (advanceTo (p.since + 50000) s).lf = s.lf := advanceTo_lf ..
  rw [exec_tpChargeEnd, execTpChargeEnd, h]
  dsimp only
  rw [← hbase, ← hlf]
  generalize advanceTo (p.since + 50000) s = u at *
  exact ⟨_, rfl, (congrArg (Option.map _) hpath :), rfl, rfl⟩
theorem tpIdent_challenges (p : Path) (idx : Nat) (frame : Bytes) (s : State) (h : tpAt .tpIdent s = some p) (hl : frame.length = 12)
    (h7 : u8 frame 0 = 0x7E) (hc : crc16 0x1021 0xFFFF (slice frame 1 9) = beNat (slice frame 10 2)) (ht : tokenOf s (beNat (slice frame 1 4)) = some idx)
    (hi : p.req.identOnly = false) (hb : bitSet (u8 ((tokenRec s idx).getD []) 1) 1 = true) (hn : tokCounter s idx < beNat (slice frame 5 4)) :
    exec (.tpIdentReceived frame) s = .next (tpChallenge (s.onPath (fun p => { p with
      tpIdx := some idx, tpId := beNat (slice frame 1 4), tpCounter := beNat (slice frame 5 4) }))) := by
  rw [exec_tpIdentReceived, execTpIdentReceived, h]
  dsimp only
  rw [if_neg (by rw [hl, h7, hc]; simp), ht]
  dsimp only
  have hn' : ∀ f : Path → Path, ¬(beNat (slice frame 5 4) ≤ tokCounter (s.onPath f) idx) := fun f => Nat.not_le.mpr hn
  have hb' : ∀ f : Path → Path, ¬(!bitSet (u8 ((tokenRec (s.onPath f) idx).getD []) 1) 1) = true := fun f => Bool.eq_false_iff.mp (congrArg (! ·) hb)
  rw [if_neg (by simp [hi]), if_neg (hb' _), if_neg (hn' _)]
theorem tpResponse_authenticates (p : Path) (idx : Nat) (frame k : Bytes) (s : State) (h : tpAt .tpResponse s = some p) (hf : fits s p 10000 = true)
    (hx : p.tpIdx = some idx) (hl : frame.length = 11) (h7 : u8 frame 0 = 0x7E) (hc : crc16 0x1021 0xFFFF (slice frame 1 8) = beNat (slice frame 9 2))
    (hk : tokenKey s idx = some k) (hm : (cmac k (8 :: beBytes 4 p.tpId ++ beBytes 4 p.tpCounter ++ p.cReq)).take 8 = slice frame 1 8) :
    exec (.tpResponseReceived frame) s = .next ((authenticated { idx := idx, id := p.tpId, counter := p.tpCounter, version := 3 } none 0 3 0xFF s).onPath
      (fun p => if p.ended then p else { p with step := .commitRange })) := by
  rw [exec_tpResponseReceived, execTpResponseReceived, h]
  dsimp only
  rw [if_neg (by rw [hf]; decide), if_neg (by rw [hl, h7, hc]; simp), hx, Option.getD_some, hk]
  dsimp only
  rw [if_pos (by rw [hm]; exact beq_self_eq_true _)]

/-- Settles O36: each step of the authentication and of the transponder exchange runs its checks in turn. -/
theorem pathAuthentication : Obligations.PathAuthentication := by
  unfold Obligations.PathAuthentication
  refine ⟨fun p a k body off s => ⟨fun hp ha hc he hd hl h12 hb hk hm => ?_, fun hp ha hc he hd hl h12 hb hk hm => ?_, fun hp ha hc he hd h0 hk hr hrep => ?_,
      fun hp ha hc he hd h0 hk hr hrep hf => ?_, fun hp he hs hr hf => ?_, fun hp he hs hr hf => ?_⟩,
    fun p ma idx frame k s => ⟨fun h hma => ?_, fun h hma => ?_, tpChargeEnd_ends p s, tpIdent_challenges p idx frame s, fun h hl => ?_, fun h hf => ?_,
      tpResponse_authenticates p idx frame k s, fun h => ?_, fun h => ?_⟩⟩
  · rw [proofReceived_checks p a k body off s hp ha hc he hd hl h12 hb hk, if_pos (beq_iff_eq.mpr hm)]
  · rw [proofReceived_checks p a k body off s hp ha hc he hd hl h12 hb hk, if_neg (fun h => hm (beq_iff_eq.mp h))]
  · rw [proofTimeout_checks p a s hp ha hc he hd h0 hk hr, hrep]
    rfl
  · rw [proofTimeout_checks p a s hp ha hc he hd h0 hk hr, hrep, hf]
    rfl
  · rw [pathZoneDecision_checks p s hp he hs hr, hf]
    rfl
  · rw [pathZoneDecision_checks p s hp he hs hr, hf]
    rfl
  · rw [exec_tpOpenCheck, execTpOpenCheck, h]
    dsimp only
    rw [if_neg (Nat.not_le.mpr hma)]
  · rw [exec_tpOpenCheck, execTpOpenCheck, h]
    exact ⟨_, if_pos hma, rfl⟩
  · rw [exec_tpIdentReceived, execTpIdentReceived, h]
    dsimp only
    rw [if_pos (by simp [hl])]
    rfl
  · rw [exec_tpResponseReceived, execTpResponseReceived, h]
    dsimp only
    rw [if_pos (by rw [hf]; decide)]
  · rw [exec_tpSyncTimeout, execTpSyncTimeout, h]
    rfl
  · rw [exec_tpSyncTimeout, execTpSyncTimeout, h, tpAt_ne h (by decide)]
    rfl
end Sys2Proof.Machine
end

section
/-! Releases, the radio's work and the capacitive channels (O38, O40, O43). -/

namespace Sys2Proof.Machine
open Sys2Proof
/-! ### What ends in its time -/

theorem askCommit_clk (a b : Nat) (s : State) : (askCommit a b s).clk = s.clk := by
  have hsend : (sendBlock 0x22 (le16 a ++ le32 b) s).clk = s.clk := by
    unfold sendBlock sendFlagged
    split
    · rfl
    · rfl
  unfold askCommit
  split
  · exact mirror_clk ..
  · dsimp only
    split
    · exact hsend
    · exact hsend
/-- What a release frame leaves: the sessions, the outputs and the clock. -/
def relRest (s : State) : Clk × List Access × Option Start × Bool × Bool := (s.clk, s.rel.access, s.rel.start, s.rel.startA, s.rel.startB)
theorem relRest_reserveBlock (s : State) : relRest (reserveBlock s) = relRest s := by
  unfold reserveBlock
  split
  · rfl
  · dsimp only
    simp only [relRest, askCommit_clk, askCommit_rel, queueJob_rel]
    rfl
theorem relRest_takeFresh (s : State) : relRest (takeFresh s).2 = relRest s := by
  unfold takeFresh
  split
  · split
    · dsimp only
      split
      · exact (relRest_reserveBlock _).trans rfl
      · rfl
    · exact relRest_reserveBlock _
  · rfl
theorem relRest_sendRel (bus ident ver type session permit : Nat) (key : Option Bytes) (s : State) :
    relRest (sendRel bus ident ver type session permit key s) = relRest s := by
  have h := relRest_takeFresh s
  unfold sendRel
  split
  · rfl
  · split
    · rfl
    · split
      · next u hu =>
        rw [hu] at h
        exact h
      · next f u hu =>
        rw [hu] at h
        refine Eq.trans ?_ h
        rfl
theorem relRest_startFrame (permit : Bool) (s : State) : relRest (startFrame permit s) = relRest s := by
  unfold startFrame
  split
  · rfl
  · split
    · rfl
    · exact relRest_sendRel ..
/-- What the end of the start session leaves: no session, no output, and the sessions of the doors. -/
theorem closeStart_ends {reason : Nat} {tag : Option Nat} {s : State} {t0 : Start} (h : s.rel.start = some t0) :
    (closeStart reason tag s).rel.start = none ∧ (closeStart reason tag s).rel.startA = false ∧ (closeStart reason tag s).rel.startB = false ∧
    (closeStart reason tag s).rel.access = s.rel.access ∧ (closeStart reason tag s).clk.base = s.clk.base := by
  unfold closeStart
  rw [h]
  dsimp only
  have hf := relRest_startFrame false (withdrawOutputs s)
  generalize startFrame false (withdrawOutputs s) = u at *
  have hrel : ∀ (o : EvOpt) (a b : Nat) (l : Bytes), (mirrorSessions [t0.id] (emitX a b l o (activity (u.onRel (fun r => { r with start := none }))))).rel =
      { u.rel with start := none } := fun o a b l => (mirror_rel ..).trans ((emitX_rel ..).trans rfl)
  have hclk : ∀ (o : EvOpt) (a b : Nat) (l : Bytes), (mirrorSessions [t0.id] (emitX a b l o (activity (u.onRel (fun r => { r with start := none }))))).clk.base =
      u.clk.base := fun o a b l => (congrArg Clk.base (mirror_clk ..)).trans ((congrArg Clk.base (emitX_clk ..)).trans rfl)
  rw [hrel, hclk]
  exact ⟨rfl, congrArg (·.2.2.2.1) hf, congrArg (·.2.2.2.2) hf, congrArg (·.2.1) hf, congrArg (·.1.base) hf⟩
theorem doorTimeout_ends (door : Nat) (a : Access) (d : DoorHold) (s : State)
    (ha : s.rel.access.find? (fun a => a.doors.any (fun d => d.door == door)) = some a) (hd : a.doors.find? (fun d => d.door == door) = some d) :
    exec (.doorTimeout door false) s = .next (dropDoor door (advanceTo d.due s)) ∧
    exec (.doorTimeout door true) s = .next (closeAccess a.id 0 none (advanceTo d.due s)) := by
  rw [exec_doorTimeout, execDoorTimeout, exec_doorTimeout, execDoorTimeout, ha]
  dsimp only
  rw [hd]
  exact ⟨rfl, rfl⟩
theorem startTimeout_ends (t0 : Start) (s : State) (h : s.rel.start = some t0) : Completes (exec .startTimeout s) (fun t =>
    t.rel.start = none ∧ t.rel.startA = false ∧ t.rel.startB = false ∧ t.rel.access = s.rel.access ∧ t.clk.base = max s.clk.base t0.due) := by
  rw [exec_startTimeout, execStartTimeout, h]
  obtain ⟨h0, hA, hB, hacc, hbase⟩ := closeStart_ends (reason := 1) (tag := none) ((advanceTo_rel_start t0.due s).trans h)
  exact ⟨_, rfl, h0, hA, hB, hacc.trans (advanceTo_rel_access ..), hbase.trans ((advanceTo_base ..).trans (Nat.max_comm ..))⟩
theorem gpioPulseEnd_ends (pin : Nat) (q : Nat × Nat) (s : State) (hq : s.rel.pulses.find? (fun p => p.1 == pin) = some q)
    (ha : s.rel.access.all (fun a => a.doors.all (fun d => u8 d.record 8 != pin)) = true) : Completes (exec (.gpioPulseEnd pin) s) (fun t =>
    t.rel.pulses = s.rel.pulses.filter (fun q => q.1 ≠ pin) ∧ t.bus.pins = modAt s.bus.pins pin (fun p => { p with out := false, level := true }) ∧
    t.clk.base = max s.clk.base q.2) := by
  rw [exec_gpioPulseEnd, execGpioPulseEnd, hq]
  dsimp only
  have hacc : (advanceTo q.2 s).rel.access = s.rel.access := advanceTo_rel_access ..
  have hpul : (advanceTo q.2 s).rel.pulses.filter (fun q => q.1 ≠ pin) = s.rel.pulses.filter (fun q => q.1 ≠ pin) :=
    congrArg (List.filter _) (advanceTo_rel_pulses q.2 s)
  have hpins : (advanceTo q.2 s).bus.pins = s.bus.pins := advanceTo_bus_pins ..
  have hbase : (advanceTo q.2 s).clk.base = max s.clk.base q.2 := (advanceTo_base ..).trans (Nat.max_comm ..)
  generalize advanceTo q.2 s = u at *
  have hw : pinWanted (u.onRel (fun r => { r with pulses := r.pulses.filter (fun q => q.1 ≠ pin) })) pin = false := by
    simp only [List.all_eq_true, bne_iff_ne] at ha
    simp only [pinWanted, State.onRel, hacc, Bool.or_eq_false_iff, List.any_eq_false, List.mem_flatMap, List.mem_filter]
    refine ⟨?_, ?_⟩
    · rintro d ⟨a, hm, hd⟩
      simp [ha a hm d hd]
    · rintro p ⟨-, hp⟩
      simpa using hp
  rw [hw, if_neg Bool.false_ne_true]
  exact ⟨_, rfl, hpul, congrArg (modAt · pin _) hpins, hbase⟩
theorem releaseFrameTimeout_abandons (bus : Nat) (f : CanFrame) (s : State) (hr : running s = true) (h1 : 1 ≤ bus) (h2 : bus ≤ 2)
    (hf : (s.bus.canTx ++ s.bus.canWait).find? (fun f => f.bus == bus && f.rel) = some f) :
    exec (.releaseFrameTimeout bus) s = .next (busDiag (bus - 1) 5 false (advanceTo (f.at_ + 5000) (s.onBus (fun b =>
      b.canWait.foldl (fun b x => if x = f then b else canPut x b) { b with canTx := b.canTx.erase f, canWait := [] })))) := by
  rw [exec_releaseFrameTimeout, execReleaseFrameTimeout, if_neg (by simp [hr]; omega), hf]
theorem busDiag_rel (bus kind : Nat) (clear : Bool) (s : State) : (busDiag bus kind clear s).rel = s.rel := by
  unfold busDiag
  split
  · rfl
  · dsimp only
    split
    · exact emitX_rel ..
    · exact emitX_rel ..
theorem busDiag_canTx (bus kind : Nat) (clear : Bool) (s : State) : (busDiag bus kind clear s).bus.canTx = s.bus.canTx := by
  unfold busDiag
  split
  · rfl
  · dsimp only
    split
    · exact (congrArg Buses.canTx (emitX_bus ..)).trans rfl
    · exact (congrArg Buses.canTx (emitX_bus ..)).trans rfl
theorem canPass_sends (f : CanFrame) (bus : Nat) (s : State) (hb : f.bus = bus) (hr : f.rel = true) (hu : canUp s bus = true) (hn : now s ≤ f.at_ + 5000)
    (ht : s.bus.canTx = [f]) (hw : s.bus.canWait = []) :
    (canPass s).bus.canTx = [] ∧ (canPass s).rel.lastSent = some (max (relFresh f) (s.rel.lastSent.getD 0)) := by
  unfold canPass
  extract_lets goes
  have hg : goes f = true := by
    simp [goes, hb, hu, hr, hn]
  rw [if_neg (by simp [ht]), ht, List.filter_cons_of_pos (by simp [hg, hr]), List.filter_nil, List.foldl_cons, List.foldl_nil]
  unfold relSent
  dsimp only
  rw [busDiag_canTx, busDiag_rel]
  refine ⟨?_, rfl⟩
  simp [State.onRel, State.onBus, ht, hw, hg]

/-! ### ENGINE_STATUS and the start outputs -/

theorem engineStatus_short (bus : Nat) (f : Bytes) (s : State) (hr : running s = true) (hs : s.rel.start = none) (hp : param s 0x0606 = bus)
    (hb : bus = 1 ∨ bus = 2) (hu : canUp s bus = true) (hl : f.length ≠ 16) : Completes (exec (.engineStatus f) s) (fun t => t = s.onBus (fun b => { b with
      rejected := if bus = 1 then (sat 255 (b.rejected.1 + 1), b.rejected.2) else (b.rejected.1, sat 255 (b.rejected.2 + 1)) })) := by
  rw [exec_engineStatus, execEngineStatus, hs]
  dsimp only
  rw [hp, if_neg (by rw [hr, hu]; simp; omega)]
  split
  · exact ⟨_, if_pos (by simp [hl]), rfl⟩
  · exact ⟨_, rfl, rfl⟩
theorem engineStatus_accepted (f k : Bytes) (lo hi : Nat) (s : State) (hr : running s = true) (hp : param s 0x0606 ≠ 0)
    (hu : canUp s (param s 0x0606) = true) (hs : s.rel.start = none) (hk : vaultKey s 3 = some k) (hlo : s.rel.firstSent = some lo)
    (hhi : s.rel.lastSent = some hi) (hl : f.length = 16) (h3 : u8 f 1 ≤ 3) (hz : zeros f 6 2 = true) (h1 : lo ≤ beNat (slice f 2 4))
    (h2 : beNat (slice f 2 4) ≤ hi) (hm : (cmac k (beBytes 4 (param s 0x0608) ++ f.take 8)).take 8 = f.drop 8) :
    let u := s.onRel (fun r => { r with engVer := some (max 1 (u8 f 0)), engine := (r.engine.1, bitSet (u8 f 1) 1) })
    let v := if ignInput u = 0 then ignitionReads (bitSet (u8 f 1) 1) u else u
    exec (.engineStatus f) s = .next (if runInput v ≠ 0 then v else if !bitSet (u8 f 1) 0 then v.onRel (fun r => { r with engine := (false, r.engine.2) })
      else runningConfirmed v) := by
  intro u v
  have hv : v.rel.start = none := by
    have hu : u.rel.start = none := hs
    unfold v
    split
    · exact congrArg (Option.map _) hu
    · exact hu
  rw [exec_engineStatus, execEngineStatus, hs]
  dsimp only
  rw [if_neg (by rw [hr, hu]; simp [hp]), hk, hlo, hhi]
  dsimp only
  rw [if_neg (by rw [hl, hz, hm]; simp; omega)]
  change (if runInput v ≠ 0 then next v else if (!bitSet (u8 f 1) 0) = true then next (v.onRel (fun r => { r with engine := (false, r.engine.2) }))
    else match v.rel.start with
      | some t => if beNat (slice f 2 4) < t.openFresh then next v else next (runningConfirmed v)
      | none => next (runningConfirmed v)) = _
  rw [hv]
  clear_value v
  simp only [apply_ite next]
theorem outChecked_clear {out : Nat} {s : State} (h : (outDiag s out).1 = 0) : outChecked out 0 s = s := by
  unfold outChecked
  dsimp only
  rw [if_neg (by decide), if_pos h]
theorem outFound_rel (out code : Nat) (on : Bool) (s : State) : (outFound out code on s).rel = (setOutDiag out (setBit (outDiag s out).1 code,
    if code ≠ 3 then (outDiag s out).2 else if bitSet (outDiag s out).1 3 then (outDiag s out).2 && on else on) 0 s).rel := by
  unfold outFound
  dsimp only
  split
  · rfl
  · exact emitX_rel ..
/-- A measurement of the outputs, both of which are off. -/
theorem startOutputCheck_off (aBat aOpen bGnd bOpen : Bool) (s : State) (hd : drives s = true)
    (ha : awake s = true ∨ (started s = true ∧ s.pwr.state = .stranded)) (hA : s.rel.startA = false) (hB : s.rel.startB = false) :
    exec (.startOutputCheck aBat aOpen bGnd bOpen) s = .next (outChecked 1 (if bGnd then 1 else if bOpen then 3 else 0)
      (outChecked 0 (if aBat then 2 else if aOpen then 3 else 0)
        ((advanceTo s.rel.checkAt s).onRel (fun r => { r with checkAt := max s.clk.base s.rel.checkAt + 1000000 })))) := by
  have hok : ¬(!drives s || !(awake s || (started s && s.pwr.state = .stranded))) = true := by
    rcases ha with ha | ⟨hst, hsd⟩
    · simp [hd, ha]
    · simp [hd, hst, hsd]
  have h1A : (advanceTo s.rel.checkAt s).rel.startA = false := (advanceTo_rel_startA ..).trans hA
  have h1B : (advanceTo s.rel.checkAt s).rel.startB = false := (advanceTo_rel_startB ..).trans hB
  have hnow : now (advanceTo s.rel.checkAt s) = max s.clk.base s.rel.checkAt := (advanceTo_base ..).trans (Nat.max_comm ..)
  rw [exec_startOutputCheck, execStartOutputCheck, if_neg hok, ← hnow]
  generalize advanceTo s.rel.checkAt s = u at *
  have hout : ∀ (c : Nat) (w : State), w.rel.startB = false → (outChecked 0 c w).rel.startB = false := fun c w hw => by
    unfold outChecked
    dsimp only
    split
    · rw [outFound_rel]
      exact hw
    · split
      · exact hw
      · exact (congrArg Rel.startB (foldl_keeps State.rel (fun s k => emitX_rel ..) _ _)).trans hw
  have hA' : ¬(u.onRel (fun r => { r with checkAt := now u + 1000000 })).rel.startA = true := Bool.eq_false_iff.mp h1A
  have hB' := hout (if aBat then 2 else if aOpen then 3 else 0) (u.onRel (fun r => { r with checkAt := now u + 1000000 })) h1B
  dsimp only
  rw [if_neg hA', if_neg (Bool.eq_false_iff.mp hB')]
theorem startOutputCheck_finds (s : State) (hd : drives s = true) (ha : awake s = true) (hA : s.rel.startA = false) (hB : s.rel.startB = false)
    (hdA : s.rel.diagA = (0, false)) (hdB : s.rel.diagB = (0, false)) : Completes (exec (.startOutputCheck true false false true) s) (fun t =>
      t.rel.diagA = (4, false) ∧ t.rel.diagB = (8, false) ∧ t.rel.startA = false ∧ t.rel.startB = false) := by
  rw [startOutputCheck_off _ _ _ _ s hd (.inl ha) hA hB]
  have h0A : (advanceTo s.rel.checkAt s).rel.diagA = s.rel.diagA := advanceTo_rel_diagA ..
  have h0B : (advanceTo s.rel.checkAt s).rel.diagB = s.rel.diagB := advanceTo_rel_diagB ..
  have h1A : (advanceTo s.rel.checkAt s).rel.startA = s.rel.startA := advanceTo_rel_startA ..
  have h1B : (advanceTo s.rel.checkAt s).rel.startB = s.rel.startB := advanceTo_rel_startB ..
  generalize advanceTo s.rel.checkAt s = u at *
  generalize hv : u.onRel (fun r => { r with checkAt := max s.clk.base s.rel.checkAt + 1000000 }) = v
  have hvr : v.rel.diagA = (0, false) ∧ v.rel.diagB = (0, false) ∧ v.rel.startA = false ∧ v.rel.startB = false :=
    hv ▸ ⟨h0A.trans hdA, h0B.trans hdB, h1A.trans hA, h1B.trans hB⟩
  obtain ⟨hvA, hvB, hsA, hsB⟩ := hvr
  refine ⟨_, rfl, ?_⟩
  show (outFound 1 3 false (outFound 0 2 false v)).rel.diagA = _ ∧ (outFound 1 3 false (outFound 0 2 false v)).rel.diagB = _ ∧
    (outFound 1 3 false (outFound 0 2 false v)).rel.startA = _ ∧ (outFound 1 3 false (outFound 0 2 false v)).rel.startB = _
  simp [outFound_rel, setOutDiag, State.onRel, outDiag, hvA, hvB, hsA, hsB, bitSet, setBit]
theorem startOutputCheck_clean (s : State) (hd : drives s = true) (ha : awake s = true ∨ (started s = true ∧ s.pwr.state = .stranded))
    (hA : s.rel.startA = false) (hB : s.rel.startB = false) (hdA : s.rel.diagA = (0, false)) (hdB : s.rel.diagB = (0, false)) :
    exec (.startOutputCheck false false false false) s =
      .next ((advanceTo s.rel.checkAt s).onRel (fun r => { r with checkAt := max s.clk.base s.rel.checkAt + 1000000 })) := by
  rw [startOutputCheck_off _ _ _ _ s hd ha hA hB]
  have h0A : (advanceTo s.rel.checkAt s).rel.diagA = s.rel.diagA := advanceTo_rel_diagA ..
  have h0B : (advanceTo s.rel.checkAt s).rel.diagB = s.rel.diagB := advanceTo_rel_diagB ..
  generalize advanceTo s.rel.checkAt s = u at *
  have hcA : outChecked 0 0 (u.onRel (fun r => { r with checkAt := max s.clk.base s.rel.checkAt + 1000000 })) = _ :=
    outChecked_clear (congrArg Prod.fst (h0A.trans hdA))
  have hcB : outChecked 1 0 (u.onRel (fun r => { r with checkAt := max s.clk.base s.rel.checkAt + 1000000 })) = _ :=
    outChecked_clear (congrArg Prod.fst (h0B.trans hdB))
  exact congrArg next ((congrArg (outChecked 1 0) hcA).trans hcB)
theorem startOutputFault_A (kind : Nat) (s : State) (hr : running s = true) (hA : s.rel.startA = true) (hk : kind ≠ 3) :
    Completes (exec (.startOutputFault 0 kind) s) (fun t => t.rel.startA = false ∧
      t.rel.diagA.1 = setBit s.rel.diagA.1 1 ∧ t.rel.startB = s.rel.startB ∧ t.rel.start = s.rel.start.map (fun t => { t with aKilled := true })) := by
  rw [exec_startOutputFault, execStartOutputFault]
  dsimp only
  rw [if_neg (by simp [hA, hr]), if_neg hk]
  refine ⟨_, rfl, ?_⟩
  dsimp only
  rw [outFound_rel]
  exact ⟨rfl, rfl, rfl, rfl⟩
theorem startOutputFault_B (kind : Nat) (s : State) (hr : running s = true) (hB : s.rel.startB = true) (hk : kind ≠ 3) :
    Completes (exec (.startOutputFault 1 kind) s) (fun t => t.rel.startB = false ∧
      t.rel.diagB.1 = setBit s.rel.diagB.1 2 ∧ t.rel.startA = s.rel.startA ∧ t.rel.start = s.rel.start.map (fun t => { t with bKilled := true })) := by
  rw [exec_startOutputFault, execStartOutputFault]
  dsimp only
  rw [if_neg (by simp [hB, hr]), if_neg hk]
  refine ⟨_, rfl, ?_⟩
  dsimp only
  rw [outFound_rel]
  exact ⟨rfl, rfl, rfl, rfl⟩
theorem startOutputFault_open (s : State) (hr : running s = true) (hA : s.rel.startA = true) :
    Completes (exec (.startOutputFault 0 3) s) (fun t => t.rel.startA = true ∧ t.rel.diagA.1 = setBit s.rel.diagA.1 3) := by
  rw [exec_startOutputFault, execStartOutputFault]
  dsimp only
  rw [if_neg (by simp [hA, hr]), if_pos rfl]
  refine ⟨_, rfl, ?_⟩
  dsimp only
  rw [outFound_rel]
  exact ⟨hA, rfl⟩

/-- Settles O38: a session's end withdraws its outputs; a release frame and a diagnosis leave the sessions (`relRest`, `outFound_rel`). -/
theorem releases : Obligations.Releases := by
  unfold Obligations.Releases
  refine ⟨fun door pin bus a d t0 f q s => ⟨doorTimeout_ends door a d s, startTimeout_ends t0 s, gpioPulseEnd_ends pin q s, fun h => ?_, fun h hb => ?_,
      releaseFrameTimeout_abandons bus f s, canPass_sends f bus s⟩,
    fun f k lo hi kind bus s => ⟨engineStatus_short bus f s, fun hr hp hu hs hk hlo hhi hl h3 hz h1 h2 hm => ?_, fun ha hi hr => ?_, startOutputCheck_finds s,
      fun hd => ?_, startOutputCheck_clean s, startOutputFault_A kind s, startOutputFault_B kind s, startOutputFault_open s⟩⟩
  · rw [exec_releaseRepeat, execReleaseRepeat, h]
  · rw [startFrame, h]
    exact if_pos hb
  · have hrow := engineStatus_accepted f k lo hi s hr hp hu hs hk hlo hhi hl h3 hz h1 h2 hm
    dsimp only at hrow ⊢
    rw [hrow]
    refine ⟨fun h => by rw [if_pos h], fun h hb => by rw [if_neg (Classical.not_not.mpr h), if_pos (by rw [hb]; rfl)],
      fun h hb _ => by rw [if_neg (Classical.not_not.mpr h), if_neg (by rw [hb]; decide)]⟩
  · rw [exec_runInputConfirmed, execRunInputConfirmed]
    exact if_neg (by simp [hi, hr, ha])
  · rw [exec_startOutputCheck, execStartOutputCheck, if_pos (by simp [hd])]
/-! ### Calibration -/

theorem coexEarly_rest (r : CalRun) (n : Nat) (s : State) : (coexEarly r n s).rad.cal = s.rad.cal ∧ (coexEarly r n s).rad.temp = s.rad.temp ∧
    ((coexEarly r n s).clk.base = s.clk.base ∨ (r.step = 2 ∧ (coexEarly r n s).clk.base = max (n + 28) s.clk.base)) := by
  have hraise : ∀ (p : Nat) (u : State), (coexRaise p u).rad.cal = u.rad.cal ∧ (coexRaise p u).rad.temp = u.rad.temp ∧ (coexRaise p u).clk = u.clk := fun p u => by
    unfold coexRaise
    split
    · exact ⟨rfl, rfl, rfl⟩
    · exact ⟨rfl, rfl, rfl⟩
  unfold coexEarly
  split
  · next t _ =>
    split
    · next h =>
      obtain ⟨hc, ht, hk⟩ := hraise t.prec (advanceTo (n + 28) s)
      simp only [Bool.and_eq_true, decide_eq_true_eq] at h
      exact ⟨hc.trans (congrArg Rad.cal (advanceTo_rad ..)), ht.trans (congrArg Rad.temp (advanceTo_rad ..)),
        .inr ⟨h.1.1.2, (congrArg Clk.base hk).trans (advanceTo_base ..)⟩⟩
    · exact ⟨rfl, rfl, .inl rfl⟩
  · exact ⟨rfl, rfl, .inl rfl⟩
theorem calStepDone_base (r : CalRun) (n : Nat) (s : State) :
    (advanceTo (n + calStepUs r.step) (coexEarly r n s)).clk.base = max s.clk.base (n + calStepUs r.step) := by
  rw [advanceTo_base]
  rcases (coexEarly_rest r n s).2.2 with h | ⟨h2, h⟩
  · rw [h, Nat.max_comm]
  · rw [h, h2, show calStepUs 2 = 35 from rfl]
    omega
theorem calStepDone_step (value n : Nat) (dc : List Nat) (r : CalRun) (s : State) (hr : s.rad.run = some r) (hf : r.stepFrom = some n) (h4 : r.step < 4) :
    Completes (exec (.radioCalStepDone value dc) s) (fun t =>
      ∃ q, t.rad.run = some q ∧ q.chan = r.chan ∧ q.step = r.step + 1 ∧ q.shadow = calField r.step value dc r.shadow ∧
        t.rad.cal = s.rad.cal ∧ t.clk.base = max s.clk.base (n + [70, 40, 35, 23, 10].getD r.step 0)) := by
  rw [exec_radioCalStepDone, execRadioCalStepDone, hr]
  dsimp only
  rw [hf]
  dsimp only
  rw [if_pos (by omega)]
  refine ⟨_, rfl, _, rfl, rfl, rfl, rfl, ?_, calStepDone_base r n s⟩
  exact (congrArg Rad.cal (advanceTo_rad ..)).trans (coexEarly_rest r n s).1
theorem storeCal_rad (r : CalRun) (s : State) : (storeCal r s).rad.run = none ∧
    (storeCal r s).rad.cal = s.rad.cal.filter (fun c => c.chan ≠ r.chan) ++ [{ r.shadow with chan := r.chan, at_ := now s, temp := s.rad.temp }] := by
  unfold storeCal
  extract_lets asked c u tag v
  have hu : u.rad.run = none ∧
      u.rad.cal = s.rad.cal.filter (fun c => c.chan ≠ r.chan) ++ [{ r.shadow with chan := r.chan, at_ := now s, temp := s.rad.temp }] := ⟨rfl, rfl⟩
  have hv : v.rad = u.rad := by
    unfold v
    split
    · exact emitX_rad ..
    · rfl
  clear_value v u
  split
  · rw [cmdDoneO_rad]
    exact ⟨(congrArg Rad.run hv).trans hu.1, (congrArg Rad.cal hv).trans hu.2⟩
  · rw [hv]
    exact hu
theorem calStepDone_stores (value n : Nat) (dc : List Nat) (r : CalRun) (s : State) (hr : s.rad.run = some r) (hf : r.stepFrom = some n) (h4 : r.step = 4)
    (hm : r.mandatory = false) : Completes (exec (.radioCalStepDone value dc) s) (fun t =>
      t.rad.run = none ∧ { r.shadow with pa := value % 64, chan := r.chan, temp := s.rad.temp, at_ := max s.clk.base (n + 10) } ∈ t.rad.cal) := by
  have hbase := calStepDone_base r n s
  have htemp : (advanceTo (n + calStepUs r.step) (coexEarly r n s)).rad.temp = s.rad.temp := (congrArg Rad.temp (advanceTo_rad ..)).trans (coexEarly_rest r n s).2.1
  rw [exec_radioCalStepDone, execRadioCalStepDone, hr]
  dsimp only
  rw [hf]
  dsimp only
  rw [if_neg (by omega), if_neg (by simp [hm])]
  generalize advanceTo (n + calStepUs r.step) (coexEarly r n s) = u at *
  rw [h4] at hbase
  refine ⟨_, rfl, (storeCal_rad _ u).1, ?_⟩
  rw [(storeCal_rad _ u).2, ← htemp, ← show now u = max s.clk.base (n + 10) from hbase, h4]
  exact List.mem_append_right _ (List.mem_singleton_self _)
theorem hopLockFail_recalibrates (chan : Nat) (x : Tx) (s : State) (hl : s.rad.locked = some chan) (ht : s.rad.tx = some x) (hx : x.chan = chan)
    (hr : x.radiating = true → now s ≤ x.since + 20) (hu : calUsable s chan = true) : Completes (exec (.hopLockFail chan) s) (fun t =>
      t.rad.cal = s.rad.cal.filter (fun c => c.chan ≠ chan) ∧ t.rad.locked = none ∧
      t.rad.tx = some { x with radiating := false, waiting := true } ∧
      t.rad.run = some { chan := chan, mandatory := true, stepFrom := some (now s) }) := by
  rw [exec_hopLockFail, execHopLockFail, if_neg (by simp [hl, hu]), ht]
  dsimp only
  rw [if_neg]
  · have hrad : (invalidateCal chan s).rad = { s.rad with cal := s.rad.cal.filter (fun c => c.chan ≠ chan), locked := none } := (emitX_rad ..).trans rfl
    have hnow : now (invalidateCal chan s) = now s := congrArg Clk.base (emitX_clk ..)
    generalize invalidateCal chan s = u at *
    refine ⟨_, rfl, congrArg Rad.cal hrad, congrArg Rad.locked hrad, rfl, ?_⟩
    rw [← hnow]
    rfl
  · simp only [Bool.or_eq_true, Bool.and_eq_true, decide_eq_true_eq, not_or, not_and, hx, ne_eq, not_true_eq_false, not_false_eq_true, true_and]
    intro h
    exact Nat.not_lt.mpr (hr h)

/-! ### The tuner -/

theorem tunerOf_band (s : State) (b : Nat) : (tunerOf s b).band = b := by
  unfold tunerOf
  cases h : s.rad.tuners.find? (fun t => t.band == b) with
  | none => rfl
  | some t => simpa using List.find?_some h
theorem tunerOf_onTuner {b : Nat} {f : Tuner → Tuner} (s : State) (h : ∀ t, (f t).band = t.band) : tunerOf (onTuner b f s) b = f (tunerOf s b) := by
  have hb : (f (tunerOf s b)).band = b := (h _).trans (tunerOf_band s b)
  show (List.find? (fun t => t.band == b) (s.rad.tuners.filter (fun x => x.band ≠ b) ++ [f (tunerOf s b)])).getD { band := b } = _
  rw [List.find?_append, List.find?_eq_none.mpr]
  · simp [hb]
  · intro t ht
    simp only [List.mem_filter, decide_eq_true_eq] at ht
    simp [ht.2]
theorem acquired_tuner (band vswr : Nat) (s : State) : (tunerOf (acquired band vswr s) band).state =
      (if s.rad.mismatch = true ∧ (tunerOf s band).state = 4 then 4 else if vswr ≤ param s 0x0706 then 1 else 3) ∧
    (tunerOf (acquired band vswr s) band).high = 0 ∧ (acquired band vswr s).rad.vswr = sat 255 vswr := by
  have hd : (drawCodes s).2.rad = s.rad ∧ (drawCodes s).2.par = s.par := ⟨rfl, rfl⟩
  unfold acquired
  generalize drawCodes s = d at *
  obtain ⟨codes, u⟩ := d
  obtain ⟨hrad, hpar⟩ := hd
  dsimp only at hrad hpar ⊢
  rw [tunerOf_onTuner]
  case h => exact fun _ => rfl
  have ht : tunerOf (u.onRad (fun r => { r with vswr := sat 255 vswr })) band = tunerOf s band := by
    have h := congrArg (fun r : Rad => (r.tuners.find? (fun t : Tuner => t.band == band)).getD { band := band }) hrad
    exact h
  refine ⟨?_, rfl, rfl⟩
  rw [ht]
  show (if u.rad.mismatch && (tunerOf s band).state = 4 then 4 else if vswr ≤ param u 0x0706 then 1 else 3) = _
  rw [hrad, show param u 0x0706 = param s 0x0706 from congrArg (fun p : Par => pGet p.active 0x0706) hpar]
  simp only [Bool.and_eq_true, decide_eq_true_eq]
theorem tunerAcquire_asks (band c st : Nat) (temp : Int) (s w : State) :
    let v := strandReads temp s
    (List.range 256).find? (fun n => allowed v n && bandOf v n = band) = some c → param s 0x0707 ≠ 0 → (tunerOf s band).high ≥ 3 →
    (tunerOf s band).last = 0 → s.pair.role ≠ .lee → radioGap v 200 = true → s.rad.run = none →
    txRequest { freq := (chanFreqs (s.rad.reg.getD [])).getD c 0, asked := 0, airUs := 200, prec := 4, probe := some band } v = (st, w) →
    st = stOk ∨ st = stAccepted →
    exec (.tunerAcquire band temp) s = .next (onTuner band (fun x => { x with last := now w }) w) := by
  intro v hc hp hh hl hr hg hrun hreq hst
  rw [exec_tunerAcquire, execTunerAcquire]
  dsimp only
  rw [show List.find? _ (List.range 256) = some c from hc]
  dsimp only
  refine (if_neg ?_).trans ?_
  · show ¬(param s 0x0707 = 0 || !(((tunerOf s band).state = 0 && s.rad.band = some band) || (tunerOf s band).high ≥ 3 ||
      (s.rad.mismatch && (tunerOf s band).state = 4)) || s.pair.role = .lee || !radioGap v 200 || s.rad.run.any (·.mandatory) ||
      ((tunerOf s band).last ≠ 0 && now s < (tunerOf s band).last + 1000000)) = true
    rw [hg, hrun, hl, decide_eq_true hh]
    simp [hp, hr]
  · have hreq' : txRequest { freq := (chanFreqs ((strandReads temp s).rad.reg.getD [])).getD c 0, asked := 0, airUs := 200, prec := 4, probe := some band }
        (strandReads temp s) = (st, w) := hreq
    rw [hreq']
    exact if_pos (by simpa using hst)

/-! ### Transmissions -/

theorem radioPacketEnd_ends (vswr : Nat) (fwd : Int) (x : Tx) (s : State) (ht : s.rad.tx = some x) (hr : x.radiating = true) (hn : x.ref = none)
    (hp : x.probe = none) : let u := advanceTo (x.since + x.airUs) s
    exec (.radioPacketEnd vswr fwd) s = .next (serveTx (txEnded x stOk (endTx (tunerPacket (bandOf u x.chan) vswr (paMeasured x fwd u))))) := by
  intro u
  rw [exec_radioPacketEnd, execRadioPacketEnd, ht]
  dsimp only
  rw [if_neg (by simp [hr, hn]), hp]
theorem radioPacketEnd_acquires (vswr b : Nat) (fwd : Int) (x : Tx) (s : State) (ht : s.rad.tx = some x) (hr : x.radiating = true) (hn : x.ref = none)
    (hp : x.probe = some b) : Completes (exec (.radioPacketEnd vswr fwd) s) (fun t =>
      t = serveTx (acquired b vswr (endTx (advanceTo (x.since + x.airUs) s)))) := by
  rw [exec_radioPacketEnd, execRadioPacketEnd, ht]
  dsimp only
  rw [if_neg (by simp [hr, hn]), hp]
  exact ⟨_, rfl, rfl⟩
theorem radioTestTxEnd_ends (vswr : Nat) (fwd : Int) (x : Tx) (s : State) (ht : s.rad.tx = some x) (hr : x.radiating = true) (h3 : x.prec = 3)
    (hn : x.ref.isSome = true) : let u := advanceTo (x.since + x.airUs) s
    exec (.radioTestTxEnd vswr fwd) s = .next (serveTx (txEnded x stOk (endTx (tunerPacket (bandOf u x.chan) vswr (paMeasured x fwd u))))) := by
  intro u
  rw [exec_radioTestTxEnd, execRadioTestTxEnd, ht]
  dsimp only
  rw [if_neg (by rw [hr, ← Option.not_isSome, hn]; simp [h3])]

/-! ### The coexistence wires -/

theorem coexGrant_resumes (x : Tx) (s : State) (ht : s.rad.tx = some x) (hw : x.waiting = true) (hr : s.rad.run = none) :
    exec .coexGrantAssert s = .next (if allowed s x.chan then txGo (s.onRad (fun r => { r with grant := true }))
      else serveTx (txEnded x stRegulatory (endTx (s.onRad (fun r => { r with grant := true, lastTx := stRegulatory }))))) := by
  rw [exec_coexGrantAssert, execCoexGrantAssert]
  have ht' : (s.onRad (fun r => { r with grant := true })).rad.tx = some x := ht
  rw [ht']
  dsimp only
  rw [if_pos (by simp [hw, hr]), txResume, ht']
  rfl
theorem txGo_radiates {x : Tx} {s : State} (ht : s.rad.tx = some x) (hg : s.rad.grant = true) (hu : calUsable s x.chan = true) (hc : s.rad.coex.1 = true) :
    (txGo s).rad.grant = true ∧ (txGo s).rad.lastTx = stOk ∧ (txGo s).rad.locked = some x.chan ∧
    (txGo s).rad.tx = some { x with waiting := false, radiating := true, since := now s, stage := paStageOf s x.entry, drive := driveOf s x.entry,
                                    tuner := tunerCodes s (bandOf s x.chan) } := by
  have hlead : ∃ c, coexLead x.prec s = s.onRad (fun r => { r with coex := c }) := by
    unfold coexLead
    rw [if_neg (by simp [hc])]
    unfold coexRaise
    split
    · exact ⟨_, rfl⟩
    · exact ⟨s.rad.coex, rfl⟩
  obtain ⟨c, hlead⟩ := hlead
  unfold txGo
  rw [ht]
  dsimp only
  rw [if_pos hu]
  unfold radiate
  rw [ht]
  dsimp only
  rw [hlead, if_neg]
  · exact ⟨hg, rfl, rfl, rfl⟩
  · simp [hopTo, State.onRad, hg]
theorem coexGrant_radiates (x : Tx) (s : State) (ht : s.rad.tx = some x) (hw : x.waiting = true) (hr : s.rad.run = none)
    (ha : allowed s x.chan = true) (hu : calUsable s x.chan = true) (hc : s.rad.coex.1 = true) : Completes (exec .coexGrantAssert s) (fun t =>
      t.rad.grant = true ∧ t.rad.lastTx = stOk ∧ t.rad.locked = some x.chan ∧
      t.rad.tx = some { x with waiting := false, radiating := true, since := now s, stage := paStageOf s x.entry, drive := driveOf s x.entry,
                               tuner := tunerCodes s (bandOf s x.chan) }) := by
  rw [coexGrant_resumes x s ht hw hr, if_pos ha]
  exact ⟨_, rfl, txGo_radiates (s := s.onRad (fun r => { r with grant := true })) ht rfl hu hc⟩
theorem coexNegate_aborts (x : Tx) (s : State) (ht : s.rad.tx = some x) (hr : x.radiating = true) (hp : param s 0x0704 = 1) :
    exec .coexGrantNegate s = .next (serveTx (txEnded x stBusy (endTx
      (emit evCoexAbort 0 (le32 x.freq) (s.onRad (fun r => { r with grant := false, lastTx := stBusy })))))) := by
  rw [exec_coexGrantNegate, execCoexGrantNegate]
  have ht' : (s.onRad (fun r => { r with grant := false })).rad.tx = some x := ht
  have hp' : param (s.onRad (fun r => { r with grant := false })) 0x0704 = 1 := hp
  dsimp only
  rw [ht']
  dsimp only
  rw [if_neg (by rw [hr, hp']; decide)]
  rfl
theorem coexWait_expires (x : Tx) (s : State) (ht : s.rad.tx = some x) (hw : x.waiting = true) (hg : s.rad.grant = false) (hp : param s 0x0704 = 1)
    (hr : s.rad.run = none) : exec .coexWaitExpiry s = .next (serveTx (txEnded x
      stBusy (endTx ((advanceTo (x.since + 10 * param s 0x0705) s).onRad (fun r => { r with lastTx := stBusy }))))) := by
  rw [exec_coexWaitExpiry, execCoexWaitExpiry, ht]
  dsimp only
  rw [if_neg (by rw [hw, hg, hr]; simp [hp])]

/-- Settles O40: a calibration's step keeps the entries; the wires' rows resume, abort or give up the transmission that waits. -/
theorem radioWork : Obligations.RadioWork := by
  unfold Obligations.RadioWork
  refine ⟨fun n value chan from_ dc temp r x s => ⟨fun hr hg hn => ?_, calStepDone_step value from_ dc r s, calStepDone_stores value from_ dc r s,
      hopLockFail_recalibrates chan x s⟩,
    fun vswr band c st fwd temp x s w => ⟨radioPacketEnd_ends vswr fwd x s, fun b => radioPacketEnd_acquires vswr b fwd x s, acquired_tuner band vswr s,
      radioTestTxEnd_ends vswr fwd x s, tunerAcquire_asks band c st temp s w, fun ht hw hr ha => ?_, fun ht hw hr ha => ?_,
      coexGrant_radiates x s, fun ht hp => ?_, coexNegate_aborts x s, fun ht => ?_, coexWait_expires x s, fun h => ?_⟩⟩
  · rw [exec_radioBgCalStep, execRadioBgCalStep]
    have hr' : (strandReads temp s).rad.run = none := hr
    have hg' : ¬(!radioGap (strandReads temp s) (calStepUs 0)) = true := Bool.eq_false_iff.mp (congrArg (! ·) hg)
    rw [hr']
    dsimp only
    rw [if_neg hg', hn]
    exact ⟨_, rfl, rfl⟩
  · rw [coexGrant_resumes x s ht hw hr, if_pos ha]
  · rw [coexGrant_resumes x s ht hw hr, if_neg (by simp [ha])]
  · rw [exec_coexGrantAssert, execCoexGrantAssert]
    have ht' : (s.onRad (fun r => { r with grant := true })).rad.tx = none := ht
    have hp' : (s.onRad (fun r => { r with grant := true })).path = none := hp
    rw [ht', resendRepoll, hp']
    exact ⟨_, rfl, rfl⟩
  · rw [exec_coexGrantNegate, execCoexGrantNegate]
    have ht' : (s.onRad (fun r => { r with grant := false })).rad.tx = none := ht
    rw [ht']
    exact ⟨_, rfl, rfl⟩
  · rw [exec_radioDutyBinRoll, execRadioDutyBinRoll, if_neg h]
/-! ### Scans: what lies outside them, and the one channel that is scanned -/

/-- What a scan leaves alone, whatever it measures: the power state, the LF engine and the store. -/
def unsensed (s : State) : Power × Lf × Store := (s.pwr.state, s.lf, s.store)
theorem unsensed_emitX (code cls : Nat) (p : Bytes) (o : EvOpt) (s : State) : unsensed (emitX code cls p o s) = unsensed s := by simp [unsensed]
theorem unsensed_dueAt (n : Nat) (s : State) : unsensed (dueAt n s) = unsensed s := by
  unfold dueAt
  split
  · rfl
  · simp [unsensed]
theorem unsensed_boundaryM (b : Bound) (s : State) : unsensed (boundaryM b s) = unsensed s := by
  unfold boundaryM
  simp only [unsensed, mirror_pwr_state, mirror_lf, mirror_store]
  rfl
theorem unsensed_capLeaves (s : State) (c : Nat) : unsensed (capLeaves s c) = unsensed s := by
  unfold capLeaves
  split
  · rfl
  · split
    · exact unsensed_emitX ..
    · rfl
theorem unsensed_eolLeaves (s : State) (n : Nat) : unsensed (eolLeaves s n) = unsensed s := by
  unfold eolLeaves
  split
  · rfl
  · exact unsensed_emitX ..
theorem unsensed_scanEnd (s : State) : unsensed (scanEnd s) = unsensed s := by
  unfold scanEnd
  refine (foldl_keeps unsensed unsensed_eolLeaves _ _).trans ((foldl_keeps unsensed unsensed_capLeaves _ _).trans ((unsensed_boundaryM _ _).trans ?_))
  exact foldl_keeps (f := fun s c => rebaseline c s) unsensed (fun _ _ => rfl) _ s
theorem scanBegins_rest (s : State) : (scanBegins s).par = s.par ∧ (scanBegins s).sen.cap = s.sen.cap ∧ (scanBegins s).sen.guards = s.sen.guards ∧
    (scanBegins s).sen.rebase = s.sen.rebase ∧ unsensed (scanBegins s) = unsensed s := by
  unfold scanBegins
  split
  · exact ⟨rfl, rfl, rfl, rfl, rfl⟩
  · have hs : (dueAt s.sen.scanAt s).sen = s.sen := dueAt_sen ..
    have h1 := congrArg Sen.cap hs
    have h2 := congrArg Sen.guards hs
    have h3 := congrArg Sen.rebase hs
    exact ⟨(dueAt_pins_par _ _).2, h1, h2, h3, unsensed_dueAt ..⟩
theorem eolOrder_none {s : State} (h : ∀ n, 1 ≤ n → n ≤ 8 → bitSet (cinConfig s n) 3 = false) : eolOrder [] s = ([], s) := by
  unfold eolOrder
  rw [List.filter_eq_nil_iff.mpr]
  · rfl
  · intro n hn
    have hr : 1 ≤ n ∧ n ≤ 8 := by simp only [List.mem_cons, List.not_mem_nil, or_false] at hn; omega
    simp [h n hr.1 hr.2]
theorem scanOrder_none {s : State} (h : param s 0x0801 = 0) : scanOrder [] s = ([], s) := by
  unfold scanOrder
  rw [List.filter_eq_nil_iff.mpr]
  · rfl
  · intro c _
    simp [capOn, h, bitSet]
theorem scanOrder_one {chan counts : Nat} {s : State} (hc : chan < 16) (h : param s 0x0801 = 2 ^ chan) (hv : counts ≤ 65535) :
    scanOrder [⟨chan, some counts⟩] s = ([⟨chan, some counts⟩], s) := by
  have hone : ∀ k < 16, (List.range 16).filter (fun c => c == k) = [k] := by decide
  have hon : (List.range 16).filter (capOn s) = [chan] := by
    rw [← hone chan hc]
    refine List.filter_congr fun c hm => ?_
    rw [Bool.eq_iff_iff]
    simp only [capOn, h, bitSet, List.mem_range.mp hm, Nat.testBit_two_pow, decide_true, Bool.true_and, decide_eq_true_eq, beq_iff_eq]
    exact eq_comm
  unfold scanOrder
  rw [hon]
  simp [hv]
theorem scan_ends (s : State) (hs : sensing s = true) (hf : fieldOn s = false) (h1 : param s 0x0801 = 0)
    (hn : ∀ n, 1 ≤ n → n ≤ 8 → bitSet (cinConfig s n) 3 = false) : exec (.scan [] [] true true) s = .next (scanEnd (scanBegins s)) := by
  have hp : ∀ a, param (scanBegins s) a = param s a := fun a => congrArg (fun p : Par => pGet p.active a) (scanBegins_rest s).1
  rw [exec_scan, execScan, if_neg (by simp [hs, hf])]
  dsimp only
  rw [scanOrder_none ((hp _).trans h1)]
  dsimp only
  rw [eolOrder_none (fun n a b => (congrArg (bitSet · 3) (hp _)).trans (hn n a b))]
  refine congrArg (fun u => next (scanEnd u)) ?_
  exact ite_self _

/-! ### The first conversion of a touch -/

theorem capChan_onCap_same {c : Nat} {s : State} (h : c < s.sen.cap.length) (f : CapChan → CapChan) : capChan (onCap c f s) c = f (capChan s c) :=
  getD_modAt_same h ..
theorem capChan_onCap_ne {c k : Nat} (h : k ≠ c) (f : CapChan → CapChan) (s : State) : capChan (onCap c f s) k = capChan s k :=
  getD_modAt_ne h ..
theorem dueAt_capChan (n c : Nat) (s : State) : capChan (dueAt n s) c = capChan s c := congrArg (fun x : Sen => x.cap.getD c {}) (dueAt_sen n s)
theorem dueAt_param (n a : Nat) (s : State) : param (dueAt n s) a = param s a := congrArg (fun p : Par => pGet p.active a) (dueAt_pins_par n s).2
theorem capLeaves_keeps {s : State} {c chan : Nat} (h : capOn s chan = true) : (capLeaves s c).par = s.par ∧ capChan (capLeaves s c) chan = capChan s chan := by
  unfold capLeaves
  split
  · exact ⟨rfl, rfl⟩
  next hoff =>
    have hne : chan ≠ c := fun e => hoff (e ▸ h)
    split
    · refine ⟨emitX_par .., (capChan_onCap_ne hne ..).trans ((congrArg (fun x : Sen => x.cap.getD chan {}) (emitX_sen ..)).trans ?_)⟩
      exact capChan_onCap_ne hne ..
    · exact ⟨rfl, capChan_onCap_ne hne ..⟩
theorem eolLeaves_cap (s : State) (n : Nat) : (eolLeaves s n).sen.cap = s.sen.cap := by
  unfold eolLeaves
  split
  · rfl
  · exact (congrArg Sen.cap (emitX_sen ..)).trans rfl
theorem boundaryM_sen (b : Bound) (s : State) : (boundaryM b s).sen = s.sen := mirror_sen ..
theorem leaves_keep {u : State} {chan : Nat} (hon : capOn u chan = true) :
    capChan ([1, 2, 3, 4, 5, 6, 7, 8].foldl eolLeaves ((List.range 16).foldl capLeaves u)) chan = capChan u chan := by
  refine (congrArg (fun x : List CapChan => x.getD chan {}) (foldl_keeps (fun t : State => t.sen.cap) eolLeaves_cap _ _)).trans ?_
  have hf := foldl_keeps_prop (p := fun t : State => t.par = u.par ∧ capChan t chan = capChan u chan) (f := capLeaves) (List.range 16) (fun t c _ ht => by
    obtain ⟨hp, hc⟩ := ht
    have hon' : capOn t chan = true := (congrArg (fun p : Par => chan < 16 && bitSet (pGet p.active 0x0801) chan) hp).trans hon
    obtain ⟨hp', hc'⟩ := capLeaves_keeps (c := c) hon'
    exact ⟨hp'.trans hp, hc'.trans hc⟩) u ⟨rfl, rfl⟩
  exact hf.2
theorem scanEnd_keeps {s : State} {chan : Nat} (hr : s.sen.rebase = 0) (h : capOn (boundary .scan s) chan = true) : capChan (scanEnd s) chan = capChan s chan := by
  have hb : bitsOf 16 0 = [] := by decide
  unfold scanEnd
  rw [hr, hb]
  refine (leaves_keep ?_).trans ?_
  · exact (congrArg (fun p : Par => chan < 16 && bitSet (pGet p.active 0x0801) chan) (mirror_par ..)).trans h
  · exact (congrArg (fun x : Sen => x.cap.getD chan {}) (boundaryM_sen ..)).trans rfl
theorem takeBase_above {th v t b : Nat} {x : CapChan} (hb : x.base = some b) (h : b < v + th) : takeBase th v t x = { x with neg := [] } := by
  unfold takeBase
  rw [hb]
  dsimp only
  rw [if_neg (by simp [h])]
/-- One conversion at or above the threshold begins a confirmation, where nothing else is pending on the channel (R321). -/
theorem scanConv_begins {chan counts b : Nat} {s : State} (hl : chan < s.sen.cap.length) (hb : (capChan s chan).base = some b)
    (ht : (capChan s chan).touched = false) (hd : (capChan s chan).diag = 0) (hc : (capChan s chan).confirm = 0)
    (hg : s.sen.guards.getD (chan / 8) (false, 0) = (false, 0)) (hth : 0 < touchTh s chan) (hv : b + touchTh s chan ≤ counts) (hlow : param s 0x0808 = 0) :
    (scanConv true s ⟨chan, some counts⟩).par = s.par ∧ (scanConv true s ⟨chan, some counts⟩).sen.rebase = s.sen.rebase ∧
    (capChan (scanConv true s ⟨chan, some counts⟩) chan).confirm = 1 ∧ (capChan (scanConv true s ⟨chan, some counts⟩) chan).last = counts ∧
    (capChan (scanConv true s ⟨chan, some counts⟩) chan).base = some b ∧ (capChan (scanConv true s ⟨chan, some counts⟩) chan).touched = false := by
  unfold scanConv
  extract_lets _ u
  have hsen : u.sen = s.sen := dueAt_sen ..
  have hpar : u.par = s.par := (dueAt_pins_par ..).2
  clear_value u
  have hcap : capChan u chan = capChan s chan := congrArg (fun x : Sen => x.cap.getD chan {}) hsen
  have hth' : touchTh u chan = touchTh s chan := congrArg (fun p : Par => pGet p.active (0x0811 + chan)) hpar
  have hlen : chan < u.sen.cap.length := hsen ▸ hl
  have hguard : guardBad u chan = false := (congrArg (fun x : Sen => (x.guards.getD (chan / 8) (false, 0)).1) hsen).trans (congrArg Prod.fst hg)
  dsimp only
  generalize hw : onCap chan (fun x => { takeBase (touchTh u chan) counts (now u) x with last := counts }) u = w
  have hx : capChan w chan = { capChan s chan with neg := [], last := counts } := by
    subst hw
    rw [capChan_onCap_same hlen, hcap, hth', takeBase_above hb (by omega)]
  have hwlen : chan < w.sen.cap.length := by
    subst hw
    simpa [onCap, modAt_eq_modify] using hlen
  have hwp : w.par = u.par ∧ guardBad w chan = guardBad u chan ∧ w.sen.rebase = u.sen.rebase := by
    subst hw
    exact ⟨rfl, rfl, rfl⟩
  obtain ⟨hwpar, hwg, hwr⟩ := hwp
  have hlow' : param w 0x0808 = 0 := (congrArg (fun p : Par => pGet p.active 0x0808) (hwpar.trans hpar)).trans hlow
  have hat : atLeast (capChan w chan) counts (touchTh u chan) = true := by
    rw [hx, hth']
    simp [atLeast, hb, hv]
  have hcond : (true && atLeast (capChan w chan) counts (touchTh u chan) && (capChan w chan).confirm = 0 && !guardBad w chan) = true := by
    rw [hat, hwg, hguard, hx]
    simp [hc]
  have hd' : (capChan w chan).diag = 0 := (congrArg CapChan.diag hx).trans hd
  have ht' : (capChan w chan).touched = false := (congrArg CapChan.touched hx).trans ht
  rw [hlow', hd', ht', if_neg (by simp), if_neg (by simp), if_neg (by simp), if_neg (by simp), if_pos hcond]
  have hy := capChan_onCap_same hwlen (fun x => { x with confirm := 1, confAt := now w })
  rw [hx] at hy
  refine ⟨hwpar.trans hpar, hwr.trans (congrArg Sen.rebase hsen), ?_⟩
  exact ⟨congrArg CapChan.confirm hy, congrArg CapChan.last hy, (congrArg CapChan.base hy).trans hb, (congrArg CapChan.touched hy).trans ht⟩
theorem scanBegins_param (a : Nat) (s : State) : param (scanBegins s) a = param s a := congrArg (fun p : Par => pGet p.active a) (scanBegins_rest s).1
theorem scanBegins_capChan (c : Nat) (s : State) : capChan (scanBegins s) c = capChan s c :=
  congrArg (fun l : List CapChan => l.getD c {}) (scanBegins_rest s).2.1
theorem guardTest_true {g : Nat} {s : State} (h : s.sen.guards.getD g (false, 0) = (false, 0)) : guardTest g true s = s := by
  unfold guardTest
  rw [h]
theorem scan_converts {chan counts : Nat} {s : State} (hs : sensing s = true) (hf : fieldOn s = false) (hc : chan < 16) (h1 : param s 0x0801 = 2 ^ chan)
    (hv : counts ≤ 65535) (hn : ∀ n, 1 ≤ n → n ≤ 8 → bitSet (cinConfig s n) 3 = false) (hg : s.sen.guards.getD (chan / 8) (false, 0) = (false, 0))
    (hfew : 1 ≤ param s 0x0807) (h4 : param s 0x0804 ≠ 1)
    (hpar : (scanConv true (scanBegins s) ⟨chan, some counts⟩).par = s.par) :
    exec (.scan [⟨chan, some counts⟩] [] true true) s = .next (scanEnd (scanConv true (scanBegins s) ⟨chan, some counts⟩)) := by
  have hp := fun a => scanBegins_param a s
  have hg' : (scanBegins s).sen.guards.getD (chan / 8) (false, 0) = (false, 0) := (congrArg (fun l => l.getD (chan / 8) (false, 0)) (scanBegins_rest s).2.2.1).trans hg
  rw [exec_scan, execScan, if_neg (by simp [hs, hf])]
  dsimp only
  rw [scanOrder_one hc ((hp _).trans h1) hv]
  dsimp only
  rw [eolOrder_none (fun n a b => (congrArg (bitSet · 3) (hp _)).trans (hn n a b))]
  dsimp only
  generalize scanBegins s = v at *
  have hfirst : (if [(⟨chan, some counts⟩ : Conv)].any (fun k => k.chan < 8) then guardTest 0 true v else v) = v := by
    split
    next h =>
      have h8 : chan / 8 = 0 := Nat.div_eq_of_lt (by simpa using h)
      exact guardTest_true (h8 ▸ hg')
    · rfl
  have hsecond : (if [(⟨chan, some counts⟩ : Conv)].any (fun k => k.chan ≥ 8) then guardTest 1 true v else v) = v := by
    split
    next h =>
      have h8 : chan / 8 = 1 := by
        have h' : 8 ≤ chan := of_decide_eq_true ((Bool.or_false _).symm.trans h)
        omega
      exact guardTest_true (h8 ▸ hg')
    · rfl
  rw [hfirst, hsecond]
  have hlen : ∀ p : Conv → Bool, decide (([(⟨chan, some counts⟩ : Conv)].filter p).length ≤ param v 0x0807) = true := fun p => by
    have := List.length_filter_le p [(⟨chan, some counts⟩ : Conv)]
    rw [hp]
    simp only [List.length_singleton] at this
    exact decide_eq_true (Nat.le_trans this hfew)
  have h4' : ¬param (scanConv true v ⟨chan, some counts⟩) 0x0804 = 1 := fun e => h4 ((congrArg (fun p : Par => pGet p.active 0x0804) hpar).symm.trans e)
  rw [hlen]
  exact congrArg (fun u => next (scanEnd u)) (if_neg h4')
theorem scan_begins_touch {chan counts b : Nat} {s : State} (hs : sensing s = true) (hf : fieldOn s = false) (hr : s.sen.rebase = 0) (hc : chan < 16)
    (h1 : param s 0x0801 = 2 ^ chan) (hv : counts ≤ 65535) (hn : ∀ n, 1 ≤ n → n ≤ 8 → bitSet (cinConfig s n) 3 = false)
    (hon : capOn (boundary .scan s) chan = true) (hl : chan < s.sen.cap.length) (hb : (capChan s chan).base = some b) (ht : (capChan s chan).touched = false)
    (hd : (capChan s chan).diag = 0) (hcf : (capChan s chan).confirm = 0) (hg : s.sen.guards.getD (chan / 8) (false, 0) = (false, 0))
    (hth : 0 < touchTh s chan) (hab : b + touchTh s chan ≤ counts) (hlow : param s 0x0808 = 0) (hfew : 1 ≤ param s 0x0807) (h4 : param s 0x0804 ≠ 1) :
    Completes (exec (.scan [⟨chan, some counts⟩] [] true true) s) (fun t =>
      (capChan t chan).confirm = 1 ∧ (capChan t chan).last = counts ∧ (capChan t chan).base = some b ∧ (capChan t chan).touched = false) := by
  obtain ⟨hpar, hcap, hguards, hrebase, -⟩ := scanBegins_rest s
  have hchan := scanBegins_capChan chan s
  have hth' : touchTh (scanBegins s) chan = touchTh s chan := scanBegins_param ..
  obtain ⟨hp, hreb, hlast⟩ := scanConv_begins (s := scanBegins s) (chan := chan) (counts := counts) (b := b) (hcap ▸ hl) (by rw [hchan, hb]) (by rw [hchan, ht])
    (by rw [hchan, hd]) (by rw [hchan, hcf]) (hguards ▸ hg) (hth' ▸ hth) (hth' ▸ hab) ((scanBegins_param ..).trans hlow)
  refine ⟨_, scan_converts hs hf hc h1 hv hn hg hfew h4 (hp.trans hpar), ?_⟩
  have hon' : capOn (boundary .scan (scanConv true (scanBegins s) ⟨chan, some counts⟩)) chan = true :=
    (congrArg (fun p : Par => chan < 16 && bitSet (pGet (boundary .scan { s with par := p }).par.active 0x0801) chan) (hp.trans hpar)).trans hon
  show (capChan (scanEnd _) chan).confirm = 1 ∧ _
  rw [scanEnd_keeps (hreb.trans (hrebase.trans hr)) hon']
  exact hlast

/-! ### Confirmation, drift and the longest touch -/

theorem confirm_below {chan counts b : Nat} {s : State} (hs : sensing s = true) (hc : (capChan s chan).confirm ≠ 0) (hon : capOn s chan = true)
    (hf : fieldOn s = false) (hst : s.pwr.state ≠ .neap) (hb : (capChan s chan).base = some b) (hl : chan < s.sen.cap.length) (hv : counts ≤ 65535)
    (hlow : counts < b + touchTh s chan) : Completes (exec (.confirmConversion chan counts) s) (fun t =>
      capChan t chan = { capChan s chan with confirm := 0, last := counts } ∧ t.clk.base = max s.clk.base (max (capChan s chan).confAt s.lf.lastEnd + 1120)) := by
  have hth : touchTh (dueAt (max (capChan s chan).confAt s.lf.lastEnd + 1120) s) chan = touchTh s chan := dueAt_param ..
  rw [exec_confirmConversion, execConfirmConversion]
  dsimp only
  rw [Nat.min_eq_right hv, if_neg (by simp [hs, hc, hon, hf]), hth, if_pos (by simp [atLeast, hb, hlow])]
  refine ⟨_, rfl, ?_, ?_⟩
  · rw [capChan_onCap_same (by rw [dueAt_sen]; exact hl), dueAt_capChan]
  · exact (dueAt_base hst).trans (Nat.max_comm ..)
theorem confirm_ends {chan counts b : Nat} {s : State} (hs : sensing s = true) (hc : (capChan s chan).confirm ≠ 0) (hon : capOn s chan = true)
    (hf : fieldOn s = false) (hb : (capChan s chan).base = some b) (hv : counts ≤ 65535) (hab : b + touchTh s chan ≤ counts)
    (hn : param s 0x0804 ≤ (capChan s chan).confirm + 1) : exec (.confirmConversion chan counts) s = .next
      (confirmTouch chan counts (onCap chan (fun x => { x with last := counts }) (dueAt (max (capChan s chan).confAt s.lf.lastEnd + 1120) s))) := by
  have hth : touchTh (dueAt (max (capChan s chan).confAt s.lf.lastEnd + 1120) s) chan = touchTh s chan := dueAt_param ..
  have hp : param (dueAt (max (capChan s chan).confAt s.lf.lastEnd + 1120) s) 0x0804 = param s 0x0804 := dueAt_param ..
  rw [exec_confirmConversion, execConfirmConversion]
  dsimp only
  rw [Nat.min_eq_right hv, if_neg (by simp [hs, hc, hon, hf]), hth, if_neg (by simp [atLeast, hb, hab]), hp, if_pos hn]
/-- Where the drift's conditions hold, the baseline moves by one toward the last counts (R320). -/
theorem baselineDrift_moves {chan b : Nat} {s : State} (hs : sensing s = true) (hon : capOn s chan = true) (hb : (capChan s chan).base = some b)
    (hl : chan < s.sen.cap.length) (ht : (capChan s chan).touched = false) (hd : (capChan s chan).diag = 0)
    (hth : 2 * (((capChan s chan).last : Int) - b).natAbs < touchTh s chan) : Completes (exec (.baselineDrift chan) s) (fun t =>
      (capChan t chan).base = some (if ((capChan s chan).last : Int) - b > 0 then b + 1 else if ((capChan s chan).last : Int) - b < 0 then b - 1 else b)) := by
  rw [exec_baselineDrift, execBaselineDrift]
  dsimp only
  rw [hb]
  dsimp only
  rw [if_neg (by simp [hs, hon, ht, hd, hth])]
  exact ⟨_, rfl, congrArg CapChan.base (capChan_onCap_same (by rw [dueAt_sen]; exact hl) _)⟩
theorem maxTouch_rebases {chan : Nat} {s : State} (hs : sensing s = true) (ht : (capChan s chan).touched = true) (hl : chan < s.sen.cap.length) :
    Completes (exec (.maxTouchExpiry chan) s) (fun t =>
      (capChan t chan).touched = false ∧ (capChan t chan).base = none ∧ ∀ k, k ≠ chan → capChan t k = capChan s k) := by
  rw [exec_maxTouchExpiry, execMaxTouchExpiry]
  rw [if_neg (by simp [hs, ht])]
  refine ⟨_, rfl, ?_⟩
  have hsame := capChan_onCap_same (c := chan) (s := dueAt ((capChan s chan).touchedAt + 1000000 * param s 0x0806) s) (by rw [dueAt_sen]; exact hl)
    (fun x => { x with base := none, gather := [], touched := false, low := 0, neg := [], confirm := 0 })
  exact ⟨congrArg CapChan.touched hsame, congrArg CapChan.base hsame, fun k hk => (capChan_onCap_ne hk ..).trans (dueAt_capChan ..)⟩

/-- Settles O43: a scan's end keeps the channels that stay enabled, so what the one conversion did stands after it. -/
theorem touches : Obligations.Touches := by
  unfold Obligations.Touches
  refine fun chan counts b s => ⟨fun hs hf hr h1 hn => ?_, fun hs hf hr hc h1 hv hn hon hl hb ht hd hcf hg hth hab hlow hfew h4 => ?_,
    fun hs hc hon hf hst hb hl hv hlow => confirm_below hs hc hon hf hst hb hl hv hlow, fun hs hc hon hf _ hb hv hab hn => confirm_ends hs hc hon hf hb hv hab hn,
    fun hs hon hb hl ht hd hgt hth => ?_, fun hs hon hb hl ht hd hlt hth => ?_, fun hs ht hl => maxTouch_rebases hs ht hl⟩
  · have hun := (unsensed_scanEnd (scanBegins s)).trans (scanBegins_rest s).2.2.2.2
    exact ⟨_, scan_ends s hs hf h1 hn, congrArg Prod.fst hun, congrArg (·.2.1) hun, congrArg (·.2.2) hun⟩
  · exact scan_begins_touch hs hf hr hc h1 hv hn hon hl hb ht hd hcf hg hth hab hlow hfew h4
  · obtain ⟨t, he, hbase⟩ := baselineDrift_moves hs hon hb hl ht hd (by omega)
    exact ⟨t, he, hbase.trans (congrArg some (if_pos (by omega)))⟩
  · obtain ⟨t, he, hbase⟩ := baselineDrift_moves hs hon hb hl ht hd (by omega)
    exact ⟨t, he, hbase.trans (congrArg some ((if_neg (by omega)).trans (if_pos (by omega))))⟩
end Sys2Proof.Machine
end

section
/-! The ends of verifications, tamper and debug, the writer of the store (O45, O47, O49). -/

namespace Sys2Proof.Machine
open Sys2Proof
/-! ### The end of a verification -/

theorem envelopeVerifyDone_applies {ref : CmdRef} {what : VerifyFor} {s : State} (hv : s.sec.verify = some (what, ref)) (hw : s.rng.waiting = []) :
    exec .envelopeVerifyDone s = .next (applyVerified what ref s) := by
  rw [exec_envelopeVerifyDone, execEnvelopeVerifyDone, hv, hw]
  rfl
theorem envCheck_empty (s : State) (what : VerifyFor) : envCheck s what [] = some (1, stBadParam) := if_pos rfl
/-- A firmware envelope that fails a check clears the bank it was for and leaves the running one. -/
theorem firmwareVerified_fails {ref : CmdRef} {n st : Nat} {e : Bytes} {s : State} (ha : s.sec.active < 2) (hb : s.sec.banks.length = 2) :
    (firmwareVerified ref (some (n, st)) e s).sec.verify = s.sec.verify ∧ ((firmwareVerified ref (some (n, st)) e s).sec.banks.getD (1 - s.sec.active) {}).pending = false ∧
    ((firmwareVerified ref (some (n, st)) e s).sec.banks.getD (1 - s.sec.active) {}).present = false ∧
    (firmwareVerified ref (some (n, st)) e s).sec.banks.getD s.sec.active {} = s.sec.banks.getD s.sec.active {} := by
  have hsec : (firmwareVerified ref (some (n, st)) e s).sec =
      { s.sec with banks := modAt s.sec.banks (1 - s.sec.active) (fun b => { programs := b.programs }) } := (emitX_sec ..).trans (emitX_sec ..)
  have hk : 1 - s.sec.active < s.sec.banks.length := by omega
  have hne : s.sec.active ≠ 1 - s.sec.active := by omega
  have hset := getD_modAt_same hk (fun b : Bank => ({ programs := b.programs } : Bank)) {}
  rw [hsec]
  exact ⟨rfl, congrArg Bank.pending hset, congrArg Bank.present hset, getD_modAt_ne hne ..⟩
theorem envelopeVerifyDone_firmware {ref : CmdRef} {s : State} (hv : s.sec.verify = some (.firmware, ref)) (hw : s.rng.waiting = []) (ha : s.sec.active < 2)
    (hb : s.sec.banks.length = 2) (h1 : s.sec.stage1 = []) : Completes (exec .envelopeVerifyDone s) (fun t =>
      t.sec.verify = none ∧ (t.sec.banks.getD (1 - s.sec.active) {}).pending = false ∧
      (t.sec.banks.getD (1 - s.sec.active) {}).present = false ∧ t.sec.banks.getD s.sec.active {} = s.sec.banks.getD s.sec.active {}) := by
  refine ⟨_, envelopeVerifyDone_applies hv hw, ?_⟩
  have hfail : envCheck s .firmware (stageOf s 1) = some (1, stBadParam) := (congrArg (envCheck s .firmware) h1).trans (envCheck_empty ..)
  have happ : applyVerified .firmware ref s =
      firmwareVerified ref (some (1, stBadParam)) (stageOf s 1) (setStage 1 [] (s.onSec (fun x => { x with verify := none }))) :=
    congrArg (fun f => firmwareVerified ref f (stageOf s 1) (setStage 1 [] (s.onSec (fun x => { x with verify := none })))) hfail
  rw [happ]
  exact firmwareVerified_fails (s := setStage 1 [] (s.onSec (fun x => { x with verify := none }))) ha hb

/-! ### The end of a signature -/

theorem checkpointBegin_begins {r : Option CmdRef} {s : State} (hc : s.sec.ckptDue = some r) (hs : started s = true) (hg : s.sec.sign = none)
    (hv : s.sec.verify = none) (hk : (vaultKey s 0).isSome = true) : exec .checkpointBegin s = .next (beginCheckpoint r s) := by
  rw [exec_checkpointBegin, execCheckpointBegin, hc]
  dsimp only
  rw [if_pos (by simp [hs, hg, hv, hk])]
theorem startReport_none {s : State} (h : s.pair.reportDue = none) : startReport s = s := by
  unfold startReport
  rw [h]
theorem signatureDone_attests {ref : CmdRef} {o : Bytes} {s : State} (hs : s.sec.sign = some (.attest ref o)) :
    exec .signatureDone s = .next (startReport (cmdDone ref stOk [] (emitT (some ref.tag) evAttestReady 0 (le32 (signObject s o).length)
      (s.onSec (fun x => { x with sign := none, report := some (signObject s o) }))))) := by
  rw [exec_signatureDone, execSignatureDone, hs]
  rfl
theorem signatureDone_reports {ref : CmdRef} {o : Bytes} {s : State} (hs : s.sec.sign = some (.attest ref o)) (hr : s.pair.reportDue = none) :
    Completes (exec .signatureDone s) (fun t =>
      t.sec.sign = none ∧ t.sec.report = some (o ++ Config.slhSign ((vaultKey s 0).getD []) Config.slhContext (o.take 128))) := by
  refine ⟨_, signatureDone_attests hs, ?_⟩
  have hsec : (cmdDone ref stOk [] (emitT (some ref.tag) evAttestReady 0 (le32 (signObject s o).length)
      (s.onSec (fun x => { x with sign := none, report := some (signObject s o) })))).sec = { s.sec with sign := none, report := some (signObject s o) } :=
    (emitX_sec ..).trans (emitX_sec ..)
  have hpair : (cmdDone ref stOk [] (emitT (some ref.tag) evAttestReady 0 (le32 (signObject s o).length)
      (s.onSec (fun x => { x with sign := none, report := some (signObject s o) })))).pair.reportDue = none :=
    (congrArg Pair.reportDue ((emitX_pair ..).trans (emitX_pair ..))).trans hr
  rw [startReport_none hpair]
  exact ⟨congrArg Sec.sign hsec, congrArg Sec.report hsec⟩

/-! ### Counters whose write is tried again -/

theorem counterWriteRetry_none {s : State} (hf : s.sec.fwRetry = false) (hl : s.sec.famRetry = []) :
    Completes (exec .counterWriteRetry s) (fun t => t.store = s.store) := by
  rw [exec_counterWriteRetry, execCounterWriteRetry]
  rw [if_neg (Bool.eq_false_iff.mp hf), hl]
  exact ⟨_, rfl, rfl⟩
theorem counterWriteRetry_firmware {s : State} (hf : s.sec.fwRetry = true) (hl : s.sec.famRetry = []) :
    Completes (exec .counterWriteRetry s) (fun t => t.sec.fwRetry = false ∧
      t.store.queue = s.store.queue ++ [{ cls := 3, items := [.ctr 0x0201 (max (runningBank s).secVersion (fwCounter s))], after := .fwCounter }]) := by
  have hl' : (queueJob { cls := 3, items := [.ctr 0x0201 (max (runningBank s).secVersion (fwCounter s))], after := .fwCounter }
      (s.onSec (fun x => { x with fwRetry := false }))).sec.famRetry = [] := hl
  rw [exec_counterWriteRetry, execCounterWriteRetry]
  rw [if_pos hf]
  refine ⟨_, congrArg (fun l => next (List.foldl _ _ l)) hl', rfl, rfl⟩

/-- Settles O45: an empty firmware stage stands for the envelope that fails its first check, whose bank is cleared. -/
theorem securityEnds : Obligations.SecurityEnds := by
  unfold Obligations.SecurityEnds
  exact fun ref what o r s => ⟨envelopeVerifyDone_applies, envelopeVerifyDone_firmware, fun hc hs hg hv hk => ⟨checkpointBegin_begins hc hs hg hv hk, rfl⟩,
    signatureDone_reports, counterWriteRetry_none, counterWriteRetry_firmware⟩
/-! ### A sensor trips -/

theorem leaveNeap_awake {wake : Option Nat} {flood : Bool} {s : State} (h : s.pwr.state ≠ .neap) (he : s.pwr.neapEntry = false) : leaveNeap wake flood s = s := by
  unfold leaveNeap
  exact if_pos (by simp [h, he])
/-- In mailbox ready a sensor that is watched trips, out of Neap where it has that wake (R348). -/
theorem tamperTrip_ready {k : Nat} {s : State} (hk : k ≤ 11) (hp : s.pwr.phase = .ready) (hn : s.pwr.state = .neap → bitSet neapSensors k = true) :
    exec (.tamperTrip k) s = .next (tamperTrips k
      (if bitSet neapSensors k && bitSet (armedMask s) k && !bitSet s.sec.reads k && !bitSet s.sec.heldTripped k then leaveNeap (some 0x43) false s else s)) := by
  rw [exec_tamperTrip, execTamperTrip, if_neg (by omega), if_neg (by simp [hp]), if_neg (by simp [hp]), if_neg (by simpa using hn)]
  rfl
theorem tamperTrip_awake {k : Nat} {s : State} (hk : k ≤ 11) (hp : s.pwr.phase = .ready) (hs : s.pwr.state ≠ .neap) (he : s.pwr.neapEntry = false) :
    exec (.tamperTrip k) s = .next (tamperTrips k s) := by
  rw [tamperTrip_ready hk hp (fun h => absurd h hs), leaveNeap_awake hs he, ite_self]
theorem tamperTrip_wakes {k : Nat} {s : State} (hk : k ≤ 11) (hp : s.pwr.phase = .ready) (hb : bitSet neapSensors k = true) (ha : bitSet (armedMask s) k = true)
    (hr : bitSet s.sec.reads k = false) (hh : bitSet s.sec.heldTripped k = false) :
    exec (.tamperTrip k) s = .next (tamperTrips k (leaveNeap (some 0x43) false s)) := by
  rw [tamperTrip_ready hk hp (fun _ => hb), if_pos (by simp [hb, ha, hr, hh])]
theorem tamperTrip_unwatched {k : Nat} {s : State} (hk : k ≤ 11) (hp : s.pwr.phase = .ready) (hs : s.pwr.state = .neap) (hb : bitSet neapSensors k = false) :
    exec (.tamperTrip k) s = .next s := by
  rw [exec_tamperTrip, execTamperTrip, if_neg (by omega), if_neg (by simp [hp]), if_neg (by simp [hp]), if_pos (by simp [hs, hb])]
/-- The events of a trip leave the security state to the trip, and with response 0 nothing else follows them. -/
theorem tamperTrips_told {k : Nat} {s : State} (ha : bitSet (armedMask s) k = true) (hr : bitSet s.sec.reads k = false) (hh : bitSet s.sec.heldTripped k = false)
    (hc : s.sec.chatter = []) (hb : s.pwr.state ≠ .breach) (h0 : tamperResp s k = 0) : (tamperTrips k s).pwr.state = s.pwr.state ∧ (tamperTrips k s).sec =
      { s.sec with reads := setBit s.sec.reads k, tripped := setBit s.sec.tripped k, lastResp := 0, strikes := s.sec.strikes.filter (fun t => s.clk.mono < t + dayUs) } := by
  have hpin : ∀ (c : Byte) (u : State), (emitX evTamperTestPin 1 [c] { at_ := none } u).pwr.state = u.pwr.state ∧ (emitX evTamperTestPin 1 [c] { at_ := none } u).sec = u.sec :=
    fun c u => ⟨emitX_pwr_state .., emitX_sec ..⟩
  unfold tamperTrips tamperTripsAt
  rw [if_neg (by simp [ha]), if_neg (by simp [hr, hh]), hc]
  dsimp only [List.filter_nil]
  rw [if_neg (by simp)]
  rw [if_neg hb, h0]
  have hresp : (if ((0 : Nat) = 1 && decide ((s.sec.strikes.filter (fun t => s.clk.mono < t + dayUs) ++ (if (0 : Nat) = 1 then [s.clk.mono] else [])).length ≥
      param s 0x0A02)) = true then 2 else 0) = 0 := if_neg (by simp)
  rw [hresp]
  simp only [show ((0 : Nat) = 1) = False from eq_false (by decide), if_false, List.append_nil]
  split
  · exact ⟨(hpin ..).1.trans (emitX_pwr_state ..), (hpin ..).2.trans (emitX_sec ..)⟩
  · split
    · exact ⟨(hpin ..).1.trans (emitX_pwr_state ..), (hpin ..).2.trans (emitX_sec ..)⟩
    · exact ⟨emitX_pwr_state .., emitX_sec ..⟩

/-! ### Clears, strikes and SERVICE -/

theorem tamperSensorClear_clears {k : Nat} {s : State} (h : bitSet s.sec.reads k = true) :
    Completes (exec (.tamperSensorClear k) s) (fun t => t.sec.reads = clrBit s.sec.reads k ∧ t.sec.tripped = s.sec.tripped ∧ t = { s with sec := t.sec }) := by
  rw [exec_tamperSensorClear, execTamperSensorClear, if_neg (by simp [h])]
  exact ⟨_, rfl, rfl, rfl, rfl⟩
theorem tamperHoldEnd_clears {k : Nat} {s : State} (hh : bitSet s.sec.heldTripped k = true) (hr : bitSet s.sec.reads k = false) :
    Completes (exec (.tamperHoldEnd k) s) (fun t => t.sec.heldTripped = clrBit s.sec.heldTripped k ∧ t.sec.chatter = s.sec.chatter.filter (fun c => c.1 ≠ k)) := by
  rw [exec_tamperHoldEnd, execTamperHoldEnd, if_neg (by simp [hh, hr])]
  refine ⟨_, rfl, ?_⟩
  have hsec := monoAt_sec (((s.sec.chatter.filter (fun c => c.1 == k)).foldl (fun m c => max m c.2) 0) + 10000000) s
  exact ⟨congrArg (fun x : Sec => clrBit x.heldTripped k) hsec, congrArg (fun x : Sec => x.chatter.filter (fun c : Nat × Nat => c.1 ≠ k)) hsec⟩
theorem monoAt_past {t : Nat} {s : State} (h : t ≤ s.clk.mono) : monoAt t s = s := by
  unfold monoAt
  rw [Nat.sub_eq_zero_of_le h, Nat.add_zero]
  unfold dueAt
  rw [advanceTo_of_le (Nat.le_refl _), ite_self]
theorem strikeExpiry_drops {x : Nat} {l : List Nat} {s : State} (hl : s.sec.strikes = x :: l) (hs : started s = true) (hx : x + dayUs ≤ s.clk.mono)
    (hy : ∀ y ∈ l, s.clk.mono < y + dayUs) : Completes (exec .strikeExpiry s) (fun t => t.sec.strikes = l) := by
  have hf : s.sec.strikes.filter (fun t => s.clk.mono < t + dayUs) = l := by
    rw [hl, List.filter_cons_of_neg (by simpa using hx), List.filter_eq_self.mpr (by simpa using hy)]
  have hne : ¬l = s.sec.strikes := fun e => List.cons_ne_self x l (hl ▸ e).symm
  rw [exec_strikeExpiry, execStrikeExpiry, hl]
  dsimp only
  rw [if_neg (by simp [hs]), monoAt_past hx, hf, if_neg hne]
  exact ⟨_, rfl, rfl⟩
theorem serviceExpiry_ends {g : Nat × Nat} {s : State} (h : s.sec.service = some g) :
    Completes (exec .serviceExpiry s) (fun t => t.sec.service = none ∧ t.sec.halted = (false, false)) := by
  have hclose : ∀ (m : Bool) (r : Nat) (u : State), (closeSecure m r u).sec = u.sec := fun m r u =>
    (congrArg State.sec (talkFrame_closeSecure m r u) : (talkFrame (closeSecure m r u)).sec = (talkFrame u).sec)
  have hdue : (dueAt g.1 s).sec = s.sec := by
    unfold dueAt
    split
    · rfl
    · exact advanceTo_sec ..
  rw [exec_serviceExpiry, execServiceExpiry, h]
  dsimp only
  refine ⟨_, rfl, ?_⟩
  unfold endService
  rw [if_neg (by rw [hdue, h]; simp)]
  have hsec := fun c => (hclose true 4 _).trans ((hclose false 4 _).trans (emitX_sec evLifecycle 0 [4, c] {}
    ((dueAt g.1 s).onSec (fun x => { x with service := none, halted := (false, false) }))))
  exact ⟨(congrArg Sec.service (hsec _)).trans rfl, (congrArg Sec.halted (hsec _)).trans rfl⟩

/-! ### The debug port -/

theorem debug_refused {c : CoreId} {s : State} (h : debugReaches s c = false) :
    exec (.debugHalt c) s = exec (.tamperTrip 11) s ∧ exec (.debugResume c) s = exec (.tamperTrip 11) s := by
  rw [exec_debugHalt, execDebugHalt, exec_debugResume, execDebugResume, if_pos (by simp [h])]
  exact ⟨(exec_tamperTrip ..).symm, (if_pos (by simp [h])).trans (exec_tamperTrip ..).symm⟩
theorem debugHalt_halts (c : CoreId) (s : State) : s.pwr.phase = .ready → debugReaches s c = true → Completes (exec (.debugHalt c) s) (fun t =>
    t = s.onSec (fun x => { x with halted := match c with | .cc => (true, x.halted.2) | .ext => (x.halted.1, true) })) := by
  intro hp h
  rw [exec_debugHalt, execDebugHalt, if_neg (by simp [h]), if_neg (by simp [hp])]
  exact ⟨_, rfl, rfl⟩
theorem debugResume_resumes (c : CoreId) (s : State) : debugReaches s c = true → Completes (exec (.debugResume c) s) (fun t =>
    t = s.onSec (fun x => { x with halted := match c with | .cc => (false, x.halted.2) | .ext => (x.halted.1, false) })) := by
  intro h
  rw [exec_debugResume, execDebugResume, if_neg (by simp [h])]
  exact ⟨_, rfl, rfl⟩

/-- Settles O47: with response 0 a trip only writes the security state; a sensor's first step is whether Neap is left for it. -/
theorem tamperAndDebug : Obligations.TamperAndDebug := by
  unfold Obligations.TamperAndDebug
  refine fun k g s => ⟨tamperTrip_awake, fun hk hp _ => tamperTrip_wakes hk hp, fun hk hp hs hb => ⟨_, tamperTrip_unwatched hk hp hs hb, rfl⟩,
    fun hk hp hs he hr hh ha hc h0 => ?_, tamperSensorClear_clears, tamperHoldEnd_clears, fun x l hl hs _ => strikeExpiry_drops hl hs, serviceExpiry_ends,
    debugHalt_halts .cc s, debugHalt_halts .ext s, fun c => debug_refused, debugResume_resumes .cc s, debugResume_resumes .ext s⟩
  obtain ⟨hst, hsec⟩ := tamperTrips_told ha hr hh hc (by rw [hs]; decide) h0
  exact ⟨_, tamperTrip_awake hk hp (by rw [hs]; decide) he, congrArg Sec.reads hsec, congrArg Sec.tripped hsec, congrArg Sec.lastResp hsec, hst.trans hs⟩
/-! ### What the writer begins -/

section
variable {j : Job} {rest : List Job} {s : State} (hw : writerRuns s = true) (hc : s.store.cur = none) (hb : s.evt.backlog = [])
include hw hc hb

/-- With no log entry waiting, the writer judges the job it picks as the store stands (R379). -/
theorem storeWriteBegin_job (hp : pickWrite s.store = .job j rest) : exec .storeWriteBegin s =
    if s.pwr.holdBusy || (j.copies.isSome && s.pwr.phase ≠ .ready) then .next s else
    (regRefused s j).elim
      (if jobOk j s then .next (s.onStore (fun t => { t with
          cur := some { job := regJob s j, from_ := s.clk.mono + 4000 * forcedErases j t }, queue := rest })) else .next (deferWrite j rest s))
      (fun ref => .next (respond ref stDenied [] (s.onStore (fun t => { t with queue := rest })))) := by
  have hlog : pumpLog s = s := by
    unfold pumpLog
    rw [hb]
  rw [exec_storeWriteBegin, execStoreWriteBegin, if_neg (by simp [hw, hc]), hlog]
  dsimp only
  rw [hp]
  dsimp only
  cases regRefused s j <;> rfl
theorem storeWriteBegin_resumes {w : Writing} {wrest : List Writing} (hp : pickWrite s.store = .resume w wrest) : Completes (exec .storeWriteBegin s) (fun t =>
    t = s.onStore (fun x => { x with cur := some { w with from_ := s.clk.mono }, paused := wrest })) := by
  have hlog : pumpLog s = s := by
    unfold pumpLog
    rw [hb]
  rw [exec_storeWriteBegin, execStoreWriteBegin, if_neg (by simp [hw, hc]), hlog]
  dsimp only
  rw [hp]
  exact ⟨_, rfl, rfl⟩
theorem storeWriteBegin_waits (hp : pickWrite s.store = .job j rest) (h : s.pwr.holdBusy = true ∨ (j.copies.isSome = true ∧ s.pwr.phase ≠ .ready)) :
    exec .storeWriteBegin s = .next s := by
  rw [storeWriteBegin_job hw hc hb hp]
  exact if_pos (by simpa using h)
theorem storeWriteBegin_judges (hp : pickWrite s.store = .job j rest) (hh : s.pwr.holdBusy = false) (h : j.copies = none ∨ s.pwr.phase = .ready) :
    exec .storeWriteBegin s = (regRefused s j).elim
      (if jobOk j s then .next (s.onStore (fun t => { t with
          cur := some { job := regJob s j, from_ := s.clk.mono + 4000 * forcedErases j t }, queue := rest })) else .next (deferWrite j rest s))
      (fun ref => .next (respond ref stDenied [] (s.onStore (fun t => { t with queue := rest })))) := by
  rw [storeWriteBegin_job hw hc hb hp]
  refine if_neg ?_
  rcases h with h | h <;> simp [hh, h]
end

/-! ### The regulatory record's lock, as its write begins -/

theorem regJob_other {j : Job} (s : State) (h : ∀ i ∈ j.items, ∀ b, i ≠ .record 0x0050 0 b) : regJob s j = j := by
  unfold regJob
  split
  · rfl
  · refine congrArg (fun l => { j with items := l }) ((List.map_congr_left (g := id) fun i hi => ?_).trans (List.map_id _))
    split
    next b => exact absurd rfl (h _ hi b)
    · rfl
theorem regJob_locks {j : Job} {b : Bytes} (s : State) (hb : b ≠ []) (ha : j.after = .nothing) (hi : j.items = [.record 0x0050 0 b]) :
    (regJob s j).items = [.record 0x0050 0 (b.take 416 ++ [if regLocked s then 1 else 0])] := by
  unfold regJob
  rw [ha, if_neg (by simp), hi]
  simp [hb]

/-! ### The copies of a write -/

theorem monoAt_mono {t : Nat} {s : State} (h : s.pwr.state ≠ .neap) : (monoAt t s).clk.mono = max s.clk.mono t := by
  have hnow : now s = s.clk.base := rfl
  unfold monoAt dueAt advanceTo
  rw [if_neg h]
  split
  · omega
  · rw [passUs_mono]
    omega
theorem copyTime_store (w : Writing) (s : State) : (copyTime w s).store = s.store := monoAt_store ..
theorem copyTime_mono {w : Writing} {s : State} (hn : s.pwr.state ≠ .neap) (hj : w.job.copies = none) :
    (copyTime w s).clk.mono = max s.clk.mono (w.from_ + 45 * w.job.copyCells) := by
  have hh : w.job.hasCopy w.aDone = true := by simp [Job.hasCopy, hj]
  unfold copyTime
  rw [if_pos hh, monoAt_mono hn]
/-- Copy A done: the write goes on with copy B, or is held back for an urgent one (R380). -/
theorem storeCopyDone_writesA {w : Writing} {s : State} (hc : s.store.cur = some w) (ha : w.aDone = false) : exec .storeCopyDone s = .next
    (if w.job.cls = 3 && (writeCopy false w.job s.store).queue.any (fun j => j.cls ≤ 2 && !j.deferred) then
      { copyTime w s with
        store := { writeCopy false w.job s.store with cur := none, paused := (writeCopy false w.job s.store).paused ++ [{ w with aDone := true }] } }
    else { copyTime w s with store := { writeCopy false w.job s.store with cur := some { w with aDone := true, from_ := (copyTime w s).clk.mono } } }) := by
  rw [exec_storeCopyDone, execStoreCopyDone, hc]
  dsimp only
  rw [if_neg (by simp [ha]), copyADone, copyTime_store, hc]
  dsimp only
  rw [if_neg (by simp [ha])]
theorem storeWriteCommit_commits {w : Writing} {s : State} (hc : s.store.cur = some w) (ha : w.aDone = true) (hw : writerRuns s = true) :
    exec .storeWriteCommit s = .next (committed w.job { copyTime w s with store := { writeCopy true w.job s.store with cur := none } }) := by
  rw [exec_storeWriteCommit, execStoreWriteCommit, hc]
  dsimp only
  rw [if_neg (by simp [ha, hw]), copyTime_store]
theorem storeWriteCommit_waits {w : Writing} {s : State} (hc : s.store.cur = some w) (ha : w.aDone = false) : exec .storeWriteCommit s = .next s := by
  rw [exec_storeWriteCommit, execStoreWriteCommit, hc]
  exact if_pos (by simp [ha])
theorem jobOk_deferred (j : Job) (d : Bool) (s : State) : jobOk { j with deferred := d } s = jobOk j s := rfl
theorem storeDeferredRetry_judges {s : State} (hq : s.store.queue.any (·.deferred) = true) (hw : writerRuns s = true) (hh : s.pwr.holdBusy = false) :
    exec .storeDeferredRetry s = .next ((monoAt s.store.retryAt s).onStore (fun x => { x with
      queue := x.queue.map (fun y => { y with deferred := y.deferred && !jobOk y (monoAt s.store.retryAt s) }),
      retryAt := (monoAt s.store.retryAt s).clk.mono + 10000 })) := by
  rw [exec_storeDeferredRetry, execStoreDeferredRetry, if_neg (by simp [hq, hw, hh])]

/-! ### Reclaim, erase and scrub -/

theorem reclaim_erases {area i : Nat} {copyB : Bool} {s : State} (hr : running s = true) (he : s.store.erasing = none) (h1 : 1 ≤ area) (h3 : area ≤ 3)
    (hh : s.pwr.holdBusy = false) (hen : energyOk false 0 1 s = true) (hv : 5500 ≤ s.pwr.vbat) (hp : reclaimPage area copyB s.store = some i) :
    Completes (exec (.reclaim area copyB) s) (fun t =>
      t.store.erasing = some i ∧ t.store.queue = s.store.queue ++ rewrites i copyB s.store ∧ t.store.recs = s.store.recs ∧ t.store.ctrs = s.store.ctrs) := by
  have h0 : ¬area = 0 := by omega
  rw [exec_reclaim, execReclaim, if_neg (by simp [hr, he, hh, hen, hv, h0, h3]), hp]
  exact ⟨_, rfl, rfl, rfl, rfl, rfl⟩
theorem pageEraseDone_empties {i : Nat} {s : State} (he : s.store.erasing = some i) (hu : urgentWrite s.store = false) (hi : i < s.store.pages.length)
    (hl : liveCells i (s.store.pages.getD i {}).copyB s.store = 0) (hn : (s.store.pages.getD i {}).erases + 1 < 100000) :
    Completes (exec (.pageEraseDone i true) s) (fun t =>
      t.store.erasing = none ∧ t.store.pages.getD i {} = { s.store.pages.getD i {} with
        opened := none, used := 0, torn := false, bad := false, erases := (s.store.pages.getD i {}).erases + 1 } ∧
      ∀ k, k ≠ i → t.store.pages.getD k {} = s.store.pages.getD k {}) := by
  have hsame : (modAt s.store.pages i Page.erased).getD i {} = (s.store.pages.getD i {}).erased := getD_modAt_same hi ..
  have hlow : ¬((modAt s.store.pages i Page.erased).getD i {}).erases ≥ 100000 := by
    rw [hsame]
    exact Nat.not_le.mpr hn
  rw [exec_pageEraseDone, execPageEraseDone, if_neg (by simp [he, hu])]
  dsimp only
  rw [if_neg (by simpa using hl)]
  refine ⟨_, (if_neg (by simp)).trans (if_neg ?_), rfl, hsame, fun k hk => getD_modAt_ne hk ..⟩
  exact fun h => hlow (of_decide_eq_true (Bool.and_eq_true .. |>.mp h).1)
theorem scrub_marks {l : List Nat} {s : State} (hr : running s = true) : Completes (exec (.scrub l) s) (fun t =>
    t = s.onStore (fun x => { x with toReclaim := x.toReclaim ++ l.filter (fun i => i < 64 && !x.toReclaim.contains i) })) := by
  rw [exec_scrub, execScrub, if_neg (by simp [hr])]
  exact ⟨_, rfl, rfl⟩

/-- Settles O49: the writer judges the one job it picks; what follows copy A hangs on the urgent writes alone. -/
theorem storeWrites : Obligations.StoreWrites := by
  unfold Obligations.StoreWrites
  refine ⟨fun j rest w wrest s => ⟨fun hw hc hb hp hh hok h hr => ?_, fun hw hc hb hp hh hok h hr => ?_, fun hw hc hb hp h => storeWriteBegin_waits hw hc hb hp h,
    fun ref hw hc hb hp hh h hr => ?_, regJob_other s, fun b => regJob_locks s, fun hw hc hb hp => storeWriteBegin_resumes hw hc hb hp,
    fun hc ha => ⟨fun h => ?_, fun h3 hu => ?_⟩, fun _ hn hj _ => copyTime_mono hn hj, storeWriteCommit_commits, fun hc ha => ⟨_, storeWriteCommit_waits hc ha, rfl⟩,
    fun hq hw hh => ⟨_, storeDeferredRetry_judges hq hw hh, rfl, fun y hy hd => ?_⟩⟩,
    fun area i copyB l s => ⟨reclaim_erases, pageEraseDone_empties, scrub_marks⟩⟩
  · rw [storeWriteBegin_judges hw hc hb hp hh h, hr, hok]
    exact ⟨_, rfl, rfl⟩
  · rw [storeWriteBegin_judges hw hc hb hp hh h, hr, hok]
    rfl
  · rw [storeWriteBegin_judges hw hc hb hp hh h, hr]
    rfl
  · refine ⟨_, storeCopyDone_writesA hc ha, if_neg ?_⟩
    rw [Bool.and_eq_true, decide_eq_true_eq]
    exact fun hu => h.elim (fun hcls => hcls hu.1) (fun hq => Bool.false_ne_true (hq.symm.trans hu.2))
  · exact ⟨_, storeCopyDone_writesA hc ha, if_pos (by simpa [h3] using hu)⟩
  · obtain ⟨x, _, rfl⟩ := List.mem_map.mp hy
    rw [jobOk_deferred]
    simpa using (Bool.and_eq_true .. |>.mp hd).2
end Sys2Proof.Machine
end

section
/-! Random numbers, plug-ins and the AES port (O51, O57, O58). -/

namespace Sys2Proof.Machine
open Sys2Proof
/-! ### Noise sources and blocks -/

theorem advanceTo_onRng_base (n : Nat) (f : Rng → Rng) (s : State) : ((advanceTo n s).onRng f).clk.base = max s.clk.base n :=
  (advanceTo_base ..).trans (Nat.max_comm ..)
theorem advanceTo_onRng_src (n : Nat) (f : Rng → Rng) (s : State) : ((advanceTo n s).onRng f).rng.src = (f s.rng).src :=
  congrArg (fun r => (f r).src) (advanceTo_rng ..)
theorem noiseSourcesStart_runs {s : State} (hp : s.pwr.phase = .rom) (hs : s.rng.src.any (·.running) = false) (hf : s.rng.fatal = none) :
    Completes (exec .noiseSourcesStart s) (fun t =>
      t.rng.src = s.rng.src.map (fun x => { x with running := true, passed := false }) ∧ t.clk.base = max s.clk.base (if coldStart s then 2000 else 1200)) := by
  rw [exec_noiseSourcesStart, execNoiseSourcesStart, if_neg (by simp [hp, hs, hf])]
  exact ⟨_, rfl, advanceTo_onRng_src .., advanceTo_onRng_base ..⟩
theorem rngStartupTestPass_passes {n : Nat} {s : State} (hs : sampling s n = true) (hp : (noise s n).passed = false) (ht : s.rng.test.getLsbD 0 = false) :
    Completes (exec (.rngStartupTestPass n) s) (fun t => t = onNoise n (fun x => { x with passed := true }) s) := by
  rw [exec_rngStartupTestPass, execRngStartupTestPass, if_neg (by simp [hs, hp]), if_neg (Bool.eq_false_iff.mp ht)]
  exact ⟨_, rfl, rfl⟩
theorem rngBlockReady_serves {n : Nat} {samples : Bytes} {s : State} (hs : sampling s n = true) (hp : (noise s n).passed = true) (hb : (noise s n).block = none)
    (hl : samples.length = 256) (ht : s.rng.test.getLsbD 0 = false) :
    exec (.rngBlockReady n samples) s = .next (updateUwb (serveRng (tryReseed (tryInstantiate (s.onRng (fun r => { r with
      src := modAt r.src (n - 1) (fun x => { x with block := some (shake256 samples 32) }),
      first := if ((r.src.getD (2 - n) {}).block).isSome then r.first else n - 1 })))))) := by
  rw [exec_rngBlockReady, execRngBlockReady, if_neg (by simp [hs, hp, hb, hl]), if_neg (Bool.eq_false_iff.mp ht)]
theorem rngHealthFail_drops {n test : Nat} {s : State} (hs : sampling s n = true) (hp : (noise s n).passed = true) (ht : test = 2 ∨ test = 3)
    (hf : (noise s n).fails = []) : Completes (exec (.rngHealthFail n test) s) (fun t =>
      (t.rng.src.getD (n - 1) {}).passed = false ∧ t.rng.drbg = s.rng.drbg ∧ t.rng.fatal = s.rng.fatal) := by
  have hn : n - 1 < s.rng.src.length := by
    refine Decidable.byContradiction fun h => ?_
    have hd : noise s n = {} := by
      unfold noise
      rw [List.getD_eq_getElem?_getD, List.getElem?_eq_none (Nat.not_lt.mp h)]
      rfl
    rw [hd] at hp
    exact absurd hp (by decide)
  have hrng := emitX_rng evRngHealth 1 [byte n, byte test] {} (onNoise n (fun x => { x with passed := false, fails := [now s] }) s)
  rw [exec_rngHealthFail, execRngHealthFail, if_neg (by rcases ht with rfl | rfl <;> simp [hs, hp]), hf]
  refine ⟨_, congrArg next (if_neg (by simp)), ?_, ?_, ?_⟩
  · exact (congrArg (fun r : Rng => (r.src.getD (n - 1) {}).passed) hrng).trans (congrArg Noise.passed (getD_modAt_same hn ..))
  · exact (congrArg Rng.drbg hrng).trans rfl
  · exact (congrArg Rng.fatal hrng).trans rfl
theorem rngFatalRestart_runs {t0 : Nat} {s : State} (hf : s.rng.fatal = some t0) (hl : s.rng.latchedFatal = false) (hs : s.rng.src.any (·.running) = false)
    (hn : s.pwr.state ≠ .neap) : Completes (exec .rngFatalRestart s) (fun t =>
      t.rng.src = s.rng.src.map (fun x => { x with running := true, passed := false, fails := [] }) ∧ t.clk.base = max s.clk.base (t0 + 10000000)) := by
  rw [exec_rngFatalRestart, execRngFatalRestart, hf]
  exact ⟨_, if_neg (by simp [hl, hs, hn]), advanceTo_onRng_src .., advanceTo_onRng_base ..⟩

/-! ### The DRBG's fatal alarm (R369): whatever it ends, the DRBG is gone -/

theorem keys_stopPathWork (s : State) : (outs (stopPathWork s)).keys = (outs s).keys := by
  have hcut : ∀ u : State, (outs (cutBurst u)).keys = (outs u).keys := fun u => by rw [outs_cutBurst]
  have hend : ∀ u : State, (outs (endTx u)).keys = (outs u).keys := fun u => by rw [outs_endTx]
  have hlf : ∀ {c : Prop} [Decidable c] {u : State}, (outs (if c then cutBurst u else u)).keys = (outs u).keys := fun {c} _ {u} => by
    split
    · exact hcut u
    · rfl
  unfold stopPathWork
  extract_lets u
  have hu : (outs u).keys = (outs s).keys := by
    unfold u
    split
    · exact hlf
    · rfl
  clear_value u
  split
  · split
    · exact (hend u).trans hu
    · exact hu
  · exact hu
theorem keys_closePath (n : Nat) (d : Option Nat) (s : State) : (outs (closePath n d s)).keys = (outs s).keys := by
  unfold closePath
  simp [keys_stopPathWork]
theorem keys_denyPathBy (why : Nat × Nat) (reason : Nat) (s : State) : (outs (denyPathBy why reason s)).keys = (outs s).keys := by
  unfold denyPathBy
  split
  · rfl
  · split
    · rfl
    · dsimp only
      split <;> simp [keys_closePath]
theorem keys_rngDenies (s : State) : (outs ((rngDenies s).getD s)).keys = (outs s).keys := by
  unfold rngDenies
  split
  · exact keys_denyPathBy ..
  · rfl
@[simp] theorem outs_failGrant (s : State) : outs (failGrant s) = outs s := by
  unfold failGrant grantEnds
  split
  · split
    · rfl
    · have hset : ∀ (a : Nat) (b : Bytes) (u : State), outs (setStage a b u) = outs u := fun a b u => by
        refine outs_onSec _ _ fun x => ?_
        split
        · exact ⟨rfl, rfl⟩
        · split <;> exact ⟨rfl, rfl⟩
      simp [hset]
  · rfl
theorem updateUwb_rng (s : State) : (updateUwb s).rng = s.rng := by
  unfold updateUwb
  split
  · rfl
  · refine (foldl_keeps State.rng (fun u r => ?_) _ _).trans rfl
    split
    · exact emitX_rng ..
    · split
      · exact emitX_rng ..
      · rfl
theorem rngFatal_ends {reason : Nat} {s : State} (hf : s.rng.fatal = none) : (rngFatal reason s).rng.drbg = none ∧ (rngFatal reason s).rng.waiting = [] := by
  unfold rngFatal
  rw [if_neg (by simp [hf])]
  extract_lets times u v w x
  have hu : (outs u).keys.2.2 = none := rfl
  have hv : (outs v).keys.2.2 = none := (congrArg (fun o : Outs => o.keys.2.2) (outs_emit ..)).trans hu
  have hw : (outs w).keys.2.2 = none := by
    unfold w
    split
    · exact (congrArg (fun k => k.2.2) (keys_rngDenies v)).trans hv
    · exact hv
  have hx : (outs x).keys.2.2 = none := by
    have hkeep : outs x = outs w := by
      refine foldl_keeps outs (fun t m => ?_) _ _
      split
      · exact (outs_respond ..).trans (outs_onBox ..)
      · rfl
    exact (congrArg (fun o : Outs => o.keys.2.2) hkeep).trans hw
  rw [updateUwb_rng]
  exact ⟨(congrArg (fun o : Outs => o.keys.2.2) (outs_failGrant x)).trans hx, rfl⟩
theorem rngNoBlockTimeout_fatal {t0 : Nat} {d : Drbg} {s : State} (hr : s.rng.reseedFrom = some t0) (hd : s.rng.drbg = some d) (hf : s.rng.fatal = none)
    (hn : s.pwr.state ≠ .neap) : Completes (exec .rngNoBlockTimeout s) (fun t => t.rng.drbg = none ∧ t.rng.waiting = []) := by
  have hf' : (advanceTo (t0 + 20000) s).rng.fatal = none := (congrArg Rng.fatal (advanceTo_rng ..)).trans hf
  rw [exec_rngNoBlockTimeout, execRngNoBlockTimeout, hr, hd]
  exact ⟨_, if_neg hn, rngFatal_ends hf'⟩

/-! ### The software ports -/

theorem rngWaitTimeout_nonce {x : RngUser × Nat} {s : State} (hx : s.rng.waiting.find? (fun w => w.1 = .nonce) = some x) (hs : s.mbx.waitOpen = none)
    (hm : s.mmb.waitOpen = none) : Completes (exec (.rngWaitTimeout .nonce) s) (fun t =>
      t = s.onRng (fun r => { r with waiting := r.waiting.filter (fun x => x.1 ≠ .nonce) })) := by
  have h1 : (s.box false).waitOpen = none := hs
  have h2 : (s.box true).waitOpen = none := hm
  rw [exec_rngWaitTimeout, execRngWaitTimeout, hx]
  dsimp only [List.foldl]
  rw [h1]
  dsimp only
  rw [h2]
  exact ⟨_, rfl, rfl⟩
theorem rngPort_onRngPort (o : CoreId) (f : RngPort → RngPort) (s : State) : rngPort (onRngPort o f s) o = f (rngPort s o) := by cases o <;> rfl
theorem refillPort_filled {o : CoreId} {s : State} (h : (rngPort s o).fifo ≠ []) : refillPort o s = s := by
  unfold refillPort
  exact if_pos (by simp [h])
theorem refillPort_unready {o : CoreId} {s : State} (h : rngReady s o = false) : refillPort o s = s := by
  unfold refillPort
  exact if_pos (by simp [h])
/-- A ready port with words gives its first one and is filled again where that was the last. -/
theorem readRngData_ready {o : CoreId} {w : Word} {l : List Word} {s : State} (hr : rngReady s o = true) (hf : (rngPort s o).fifo = w :: l) :
    readRngData o s = (w, refillPort o (onRngPort o (fun p => { p with fifo := l }) s)) := by
  unfold readRngData
  rw [if_neg (by simp [hr]), refillPort_filled (by simp [hf])]
  dsimp only
  rw [hf]
theorem readRngData_unready {o : CoreId} {s : State} (hr : rngReady s o = false) :
    readRngData o s = (0, onRngPort o (fun p => { p with err := true }) s) := if_pos (by simp [hr])

section
variable {o : CoreId} {s : State} (hp : portRuns s = true)
include hp

theorem rngDataRead_reads : exec (.rngDataRead o) s = .next (readRngData o s).2 := by
  rw [exec_rngDataRead, execRngDataRead, if_pos hp]
theorem rngFlush_flushes : exec (.rngFlush o) s = .next (refillPort o (onRngPort o (fun p => { p with fifo := [] }) s)) := by
  rw [exec_rngFlush, execRngFlush, if_pos hp, flushPort]
theorem rngDataRead_keeps {w : Word} {l : List Word} (hr : rngReady s o = true) (hf : (rngPort s o).fifo = w :: l) (hl : l ≠ []) :
    Completes (exec (.rngDataRead o) s) (fun t => rngPort t o = { rngPort s o with fifo := l } ∧ (readRngData o s).1 = w ∧ t = { s with rng := t.rng }) := by
  have hfill : refillPort o (onRngPort o (fun p => { p with fifo := l }) s) = onRngPort o (fun p => { p with fifo := l }) s :=
    refillPort_filled (by rw [rngPort_onRngPort]; exact hl)
  rw [rngDataRead_reads hp, readRngData_ready hr hf, hfill]
  exact ⟨_, rfl, rngPort_onRngPort .., rfl, rfl⟩
theorem rngDataRead_fails (hr : rngReady s o = false) : Completes (exec (.rngDataRead o) s) (fun t =>
    rngPort t o = { rngPort s o with err := true } ∧ (readRngData o s).1 = 0 ∧ t = { s with rng := t.rng }) := by
  rw [rngDataRead_reads hp, readRngData_unready hr]
  exact ⟨_, rfl, rngPort_onRngPort .., rfl, rfl⟩
theorem rngReseedRequest_waits (hd : s.rng.drbg = none) : Completes (exec (.rngReseedRequest o) s) (fun t =>
    rngPort t o = { rngPort s o with fifo := [], reseed := true } ∧ t = { s with rng := t.rng }) := by
  have hd' : (onRngPort o (fun p => { p with fifo := [], reseed := true }) s).rng.drbg = none := by cases o <;> exact hd
  rw [exec_rngReseedRequest, execRngReseedRequest, if_pos hp, askReseed]
  exact ⟨_, congrArg next (if_pos (by rw [hd']; rfl)), rngPort_onRngPort .., rfl⟩
theorem rngFlush_empties (hr : rngReady s o = false) : Completes (exec (.rngFlush o) s) (fun t =>
    rngPort t o = { rngPort s o with fifo := [] } ∧ t = { s with rng := t.rng }) := by
  have hr' : rngReady (onRngPort o (fun p => { p with fifo := [] }) s) o = false := by cases o <;> exact hr
  rw [rngFlush_flushes hp, refillPort_unready hr']
  exact ⟨_, rfl, rngPort_onRngPort .., rfl⟩
end

theorem rngTestWrite_zeroises {v : Word} {s : State} (hp : portRuns s = true) (hl : lifecycle s = .factory) : Completes (exec (.rngTestWrite v) s) (fun t =>
    t.rng.test = v ∧ t.rng.drbg = none ∧ (∀ b ∈ t.rng.src, b.block = none) ∧ t = { s with rng := t.rng }) := by
  rw [exec_rngTestWrite, execRngTestWrite, if_pos hp, writeRngTest, if_neg (by simp [hl])]
  refine ⟨_, rfl, rfl, rfl, fun b hb => ?_, rfl⟩
  obtain ⟨x, _, rfl⟩ := List.mem_map.mp hb
  rfl
theorem rngTestWrite_ignored {v : Word} {s : State} (hp : portRuns s = true) (hl : lifecycle s ≠ .factory) : Completes (exec (.rngTestWrite v) s) (fun t => t = s) := by
  rw [exec_rngTestWrite, execRngTestWrite, if_pos hp, writeRngTest, if_pos hl]
  exact ⟨_, rfl, rfl⟩

/-- Settles O51: the fatal alarm zeroises the DRBG first, and nothing it ends after that gives one back. -/
theorem randomNumbers : Obligations.RandomNumbers := by
  unfold Obligations.RandomNumbers
  refine ⟨fun n test t0 samples d s => ⟨noiseSourcesStart_runs, rngStartupTestPass_passes, rngBlockReady_serves, rngHealthFail_drops, rngNoBlockTimeout_fatal,
    rngFatalRestart_runs⟩, fun o v w l x s => ⟨rngWaitTimeout_nonce, fun hp hr hf hl => rngDataRead_keeps hp hr hf hl, fun hp hr hf => ?_, fun hp hr => rngDataRead_fails hp hr, fun hp hd => rngReseedRequest_waits hp hd,
    fun hp hr => rngFlush_empties hp hr, fun hp => rngFlush_flushes hp, rngTestWrite_zeroises, rngTestWrite_ignored⟩⟩
  rw [rngDataRead_reads hp, readRngData_ready hr hf]
  exact ⟨rfl, rfl⟩
/-! ### Plug-in commands -/

/-- A slot's entry in EXT_STATUS. -/
def slotEntry (x : Slot) : Bytes := [byte x.state, 0] ++ le16 x.traps ++ le16 x.overruns ++ [byte x.lastCause, 0]
theorem extStatus_reads {m : MbxCmd} {s : State} {ref : CmdRef} {u : State} (h : begun 0x0C02 m s = some (ref, u)) (hp : m.payload = []) :
    ∃ e : Bytes, e.length = 32 ∧ exec (.extStatus m) s = .next (reply ref e u) ∧
    ∀ i, i < 4 → slice e (8 * i) 8 = [byte (slotOf u i).state, 0] ++ le16 (slotOf u i).traps ++ le16 (slotOf u i).overruns ++ [byte (slotOf u i).lastCause, 0] := by
  refine ⟨(List.range 4).flatMap (fun i => slotEntry (slotOf u i)), rfl, ?_, fun i hi => ?_⟩
  · rw [exec_extStatus, execExtStatus, runCmd_begun h, needLen_eq (by rw [hp]; rfl)]
    rfl
  · have hcase : i = 0 ∨ i = 1 ∨ i = 2 ∨ i = 3 := by omega
    rcases hcase with rfl | rfl | rfl | rfl <;> rfl

/-! ### Invocations -/

theorem invocBegin_begins {v : Invoc} {rest : List Invoc} {s : State} (hq : s.ext.queue = v :: rest) (hr : running s = true) (hh : halted s = false)
    (hc : s.ext.cur = none) (hreq : s.ext.requests = []) (hd : s.sec.halted.2 = false) (hl : slotLive s v.slot = true) :
    exec .extInvocationBegin s = .next (beginInvoc v (s.onExt (fun e => { e with queue := rest }))) := by
  have hl' : slotLive (s.onExt (fun e => { e with queue := rest })) v.slot = true := hl
  rw [exec_extInvocationBegin, execExtInvocationBegin, hq]
  dsimp only
  rw [if_neg (by simp [hr, hh, hc, hreq, hd]), if_pos hl']
theorem invocBegin_drops {v : Invoc} {rest : List Invoc} {s : State} (hq : s.ext.queue = v :: rest) (hr : running s = true) (hh : halted s = false)
    (hc : s.ext.cur = none) (hreq : s.ext.requests = []) (hd : s.sec.halted.2 = false) (hl : slotLive s v.slot = false) :
    Completes (exec .extInvocationBegin s) (fun t => t.ext.cur = none ∧ t.ext.queue = rest ∧ t.xc = s.xc) := by
  have hl' : ¬slotLive (s.onExt (fun e => { e with queue := rest })) v.slot = true := Bool.eq_false_iff.mp hl
  rw [exec_extInvocationBegin, execExtInvocationBegin, hq]
  dsimp only
  rw [if_neg (by simp [hr, hh, hc, hreq, hd]), if_neg hl']
  exact ⟨_, rfl, hc, rfl, rfl⟩
theorem invocRecord_length (v : Invoc) : (invocRecord v).length = 64 := by
  simp [invocRecord, padTo, zeroBytes]
  omega
theorem entryRegs_get (event dataBase : Nat) : (entryRegs event dataBase)[1] = BitVec.ofNat 32 event ∧ (entryRegs event dataBase)[30] = 0x20000 := by
  simp [entryRegs]

/-! ### Service requests: the command itself stands for the request where no list waits (log 40) -/

theorem takeRequest_command {slot : Nat} {s : State} (hr : s.ext.requests = []) (hc : s.ext.cur = none) (hs : s.ext.prevSlot = some slot) (req : Bytes) :
    takeRequest req s = (some slot, s) := by
  unfold takeRequest
  rw [hr, hc, hs]

section
variable {slot : Nat} {s : State} (hr : s.ext.requests = []) (hc : s.ext.cur = none) (hs : s.ext.prevSlot = some slot)
include hr hc hs

theorem answerRequest_answers {serial id fslot idx : Nat} {off : Int} {p : Path} (hp : s.path = some p) (hw : p.step = .window) (he : p.ended = false)
    (hf : s.ext.frames.find? (fun f => f.1 == serial) = some (serial, fslot, p.poll, off)) (h255 : fslot ≠ 255) (ht : tokenOf s id = some idx)
    (hb : (tokenRec s idx).elim false (fun b => boundTo b slot) = true) (hslot : slotFor s id p.nDev = fslot) :
    Completes (exec (.answerRequest serial id) s) (fun t => ∃ (q : Path) (x : Ans), t = { s with path := some q } ∧
      q.answers = p.answers.filter (fun x => x.idx ≠ idx) ++ [x] ∧ x.idx = idx ∧ x.id = id ∧ x.plugin = some slot ∧ x.serial = serial ∧ x.offNs = 1000 * off) := by
  obtain ⟨b, hrec, hbound⟩ : ∃ b, tokenRec s idx = some b ∧ boundTo b slot = true := by
    cases hx : tokenRec s idx with
    | none => exact absurd (hx ▸ hb) (by simp)
    | some b => exact ⟨b, rfl, by simpa [hx] using hb⟩
  rw [exec_answerRequest, execAnswerRequest, takeRequest_command hr hc hs]
  dsimp only
  rw [hp, hf]
  dsimp only
  rw [if_neg (by simp [hw, he, h255]), ht]
  dsimp only
  rw [hrec]
  dsimp only
  rw [if_neg (by simp [hbound, hslot])]
  refine ⟨_, rfl, { p with answers := p.answers.filter (fun x => x.idx ≠ idx) ++ [_] }, { idx := idx, id := id, poll := p.poll, slot := fslot, nDev := p.nDev, offNs := 1000 * off, plugin := some slot, serial := serial },
    ?_, rfl, rfl, rfl, rfl, rfl, rfl⟩
  unfold State.onPath
  rw [hp]
  rfl
theorem transmitRequest_refused {buffer preamble start : Nat} (hst : s.ext.step = none) : exec (.transmitRequest buffer preamble start) s =
    .next (queueInvoc { slot := slot, event := 5, body := [byte buffer, 2] } s).2 := by
  rw [exec_transmitRequest, execTransmitRequest, takeRequest_command hr hc hs]
  dsimp only
  rw [hst]
  rfl
theorem transmitRequest_sends {buffer preamble start : Nat} {st : Nat × Nat × Nat × Nat} {p : Path} (hst : s.ext.step = some st) (hp : s.path = some p)
    (h1 : st.1 = slot) (hb : buffer ≤ 15) (hp1 : 1 ≤ preamble) (hp8 : preamble ≤ 8) (hu : s.ext.txUsed.any (fun b => b.2 == buffer) = false)
    (hn : 1 ≤ leNat (memReadN s.xc.mem (0x21000 + 256 * buffer) 2)) (hn' : leNat (memReadN s.xc.mem (0x21000 + 256 * buffer) 2) ≤ 240) :
    let wait := (start + 2 ^ 48 - tide s) % 2 ^ 48
    start = 0 ∨ (wait < 2 ^ 47 ∧ now s + wait < st.2.2.2) →
    let v := if start = 0 then s else advanceTo (now s + wait) s
    let frame := List.replicate preamble (0xAA : Byte) ++
      (twFrame (memReadN v.xc.mem (0x21010 + 256 * buffer) (leNat (memReadN s.xc.mem (0x21000 + 256 * buffer) 2)))).drop 1
    let r := txRequest { freq := p.freq, asked := param v 0x0701, airUs := twAirUs v frame.length, prec := 1, frame := frame, plugin := some buffer }
      (v.onExt (fun e => { e with txUsed := e.txUsed ++ [(slot, buffer)] }))
    exec (.transmitRequest buffer preamble start) s =
      .next (if r.1 = stOk ∨ r.1 = stAccepted then r.2 else transmitDone buffer (if r.1 = stRegulatory then 1 else 2) r.2) := by
  intro wait hwait v frame r
  rw [exec_transmitRequest, execTransmitRequest, takeRequest_command hr hc hs]
  dsimp only
  rw [hst, hp]
  dsimp only
  rw [if_neg (by simp [h1, hu]; omega)]
  refine (if_neg ?_).trans ((if_neg ?_).trans ?_)
  · rw [Bool.and_eq_true, decide_eq_true_eq, decide_eq_true_eq]
    exact fun ⟨h0, hlate⟩ => hwait.elim h0 (fun h => absurd h.1 (Nat.not_lt.mpr hlate))
  · rw [Bool.and_eq_true, decide_eq_true_eq, decide_eq_true_eq]
    exact fun ⟨h0, hlate⟩ => hwait.elim h0 (fun h => absurd h.2 (Nat.not_lt.mpr hlate))
  · change (if (decide (r.1 = stOk) || decide (r.1 = stAccepted)) = true then next r.2 else next (transmitDone buffer (if r.1 = stRegulatory then 1 else 2) r.2)) = _
    clear_value r
    by_cases hk : r.1 = stOk ∨ r.1 = stAccepted
    · rw [if_pos hk, if_pos (by simpa using hk)]
    · rw [if_neg hk, if_neg (by simpa using hk)]
theorem verdict_applies {addr : Word} {st : Nat × Nat × Nat × Nat} {p : Path} {a : Ans} (hst : s.ext.step = some st) (hp : s.path = some p) (ha : p.cur = some a)
    (h1 : st.1 = slot) (hw : within addr.toNat 32 (slotOf s slot).dataBase (slotOf s slot).dataSize = true ∨ within addr.toNat 32 0x18000 0x8000 = true)
    (hk : u8 (memReadN s.xc.mem addr.toNat 32) 1 ≤ 3 ∨ u8 (memReadN s.xc.mem addr.toNat 32) 1 = 0xFF) (hser : u16 (memReadN s.xc.mem addr.toNat 32) 2 = st.2.1)
    (hid : u32 (memReadN s.xc.mem addr.toNat 32) 4 = a.id) (hz : zeros (memReadN s.xc.mem addr.toNat 32) 21 1 = true)
    (hz' : zeros (memReadN s.xc.mem addr.toNat 32) 30 2 = true) (ht : (tokenRec s a.idx).isSome = true) (hkind : u8 (memReadN s.xc.mem addr.toNat 32) 0 ≤ 2) :
    exec (.verdict addr) s = .next (applyVerdict slot (memReadN s.xc.mem addr.toNat 32) a s) := by
  have hcur : s.path.bind (·.cur) = some a := by rw [hp]; exact ha
  rw [exec_verdict, execVerdict, takeRequest_command hr hc hs]
  dsimp only
  rw [hst, hcur]
  dsimp only
  generalize memReadN s.xc.mem addr.toNat 32 = b at *
  rw [if_pos]
  simp only [Bool.and_eq_true, Bool.or_eq_true, decide_eq_true_eq, beq_iff_eq]
  exact ⟨⟨⟨⟨⟨⟨⟨⟨h1, hw⟩, hkind⟩, hk⟩, hser⟩, hid⟩, hz⟩, hz'⟩, ht⟩
end

/-! ### What a verdict does -/

section
variable {slot : Nat} {b : Bytes} {a : Ans} {s : State}

theorem applyVerdict_old (h0 : u8 b 0 = 0) (hc : u32 b 8 ≤ tokCounter s a.idx) : applyVerdict slot b a s = nextAuth ((emit evTokenAuthFail 1 (le16 a.idx ++ [4])
    (logOldCounter a.idx (u32 b 8) (tokCounter s a.idx) s)).onExt (fun e => { e with step := none })) := by
  unfold applyVerdict
  rw [h0]
  exact if_pos hc
theorem applyVerdict_proved (h0 : u8 b 0 = 0) (hc : tokCounter s a.idx < u32 b 8) (hk : u8 b 1 = 0xFF) (ho : u16 b 22 = 0xFFFF) :
    applyVerdict slot b a s = nextAuth ((authenticated { a with counter := u32 b 8, strengths := (slice b 12 8).map (·.toNat), pre := u8 b 20 } none 0 0 a.slot s).onExt
      (fun e => { e with step := none })) := by
  have hoff : secondOffset b s = some 0 := if_pos ho
  unfold applyVerdict
  rw [h0]
  dsimp only
  rw [if_neg (Nat.not_le.mpr hc), if_pos hk, hoff]
  rfl
theorem applyVerdict_failed (h1 : u8 b 0 = 1) : applyVerdict slot b a s =
    nextAuth ((emit evTokenAuthFail 1 (le16 a.idx ++ [1]) s).onExt (fun e => { e with step := none })) := by
  unfold applyVerdict
  rw [h1]
  rfl
theorem applyVerdict_foreign (h2 : u8 b 0 = 2) : applyVerdict slot b a s = nextAuth ((foreignAnswer a.id a.slot s).onExt (fun e => { e with step := none })) := by
  unfold applyVerdict
  rw [h2]
  rfl
end

theorem pluginLoad_verifies {m : MbxCmd} {s : State} {ref : CmdRef} {u : State} (h : begun 0x0C00 m s = some (ref, u)) (hl : m.payload.length = 4)
    (h3 : u8 m.payload 0 ≤ 3) (hz : zeros m.payload 1 3 = true) (hb : u.pwr.state ≠ .breach) (hp : pinnedBusy u = false) (hs : u.sec.sign = none)
    (hv : u.sec.verify = none) :
    exec (.pluginLoad m) s = .next (accepted ref (u.onSec (fun x => { x with verify := some (.plugin (u8 m.payload 0), ref) }))) := by
  rw [exec_pluginLoad, execPluginLoad, runCmd_begun h, needLen_eq hl, need_true (by simp [h3, hz]), need_true (by simp [hb]), beginVerify_of_free hp hs hv]
theorem pluginUnload_changes {m : MbxCmd} {s : State} {ref : CmdRef} {u : State} (h : begun 0x0C01 m s = some (ref, u)) (hl : m.payload.length = 4)
    (h3 : u8 m.payload 0 ≤ 3) (hz : zeros m.payload 1 3 = true) :
    exec (.pluginUnload m) s = .next (reply ref [] (changeSlot (u8 m.payload 0) {} none u)) := by
  rw [exec_pluginUnload, execPluginUnload, runCmd_begun h, needLen_eq hl, need_true (by simp [h3, hz])]

/-- Settles O57: a service request waits in no list here, so its command stands for it (log 40); an invocation starts from cleared registers. -/
theorem plugins : Obligations.Plugins := by
  unfold Obligations.Plugins
  refine ⟨fun m s ref u v rest => ⟨pluginLoad_verifies, fun h hl h3 hz hr => ?_, fun h hl h3 hz hr => ?_, extStatus_reads, fun hq hr hh hc hreq hd hl => ?_,
    invocBegin_drops, fun hc => ?_⟩, fun serial id idx slot fslot buffer preamble start off addr p a st s hr hc hs =>
    ⟨fun hp hw he hf h255 ht hb hslot => ?_, transmitRequest_refused hr hc hs, fun hst hp => transmitRequest_sends hr hc hs hst hp,
      fun hst hp ha h1 => ?_, fun hst => ?_⟩⟩
  · rw [pluginUnload_changes h hl h3 hz, changeSlot, if_pos hr]
  · rw [pluginUnload_changes h hl h3 hz, changeSlot, if_neg (Bool.eq_false_iff.mp hr)]
  · refine ⟨_, invocBegin_begins hq hr hh hc hreq hd hl, rfl, rfl, rfl, rfl, rfl, (entryRegs_get ..).1, (entryRegs_get ..).2, rfl, ?_, rfl, rfl⟩
    have hread := memReadN_memPut (if s.ext.prevSlot = some v.slot then memClear s.xc.mem 0x40002000 0x80
      else memClear (memClear s.xc.mem 0x40002000 0x80) 0x18000 0x8000) 0x22000 (invocRecord v)
    rw [invocRecord_length] at hread
    exact hread
  · rw [exec_extWatchdog, execExtWatchdog, if_neg (by simp [hc])]
  · refine answerRequest_answers hr hc hs hp hw he hf h255 ht ?_ hslot
    revert hb
    cases tokenRec s idx <;> exact fun h => h
  · intro b hw hk hser hid hz hz' ht
    have hgo := verdict_applies hr hc hs hst hp ha h1 hw hk hser hid hz hz' ht
    exact ⟨fun h0 hold => (hgo (Nat.le_trans (Nat.le_of_eq h0) (by decide))).trans (congrArg next (applyVerdict_old h0 hold)),
      fun h0 hnew hk' ho => (hgo (Nat.le_trans (Nat.le_of_eq h0) (by decide))).trans (congrArg next (applyVerdict_proved h0 hnew hk' ho)),
      fun h1 => (hgo (Nat.le_trans (Nat.le_of_eq h1) (by decide))).trans (congrArg next (applyVerdict_failed h1)), fun h2 => (hgo (Nat.le_trans (Nat.le_of_eq h2) (by decide))).trans (congrArg next (applyVerdict_foreign h2))⟩
  · rw [exec_pluginStepEnd, execPluginStepEnd, hst]
/-! ### What an operation of the AES port answers, in the order of its checks -/

/-- The `n` bytes at `a` lie where a plug-in of slot `k` may have them written: its data, the shared data or the buffers (Table 19-7). -/
def aesReach (s : State) (k a n : Nat) : Bool :=
  within a n (slotOf s k).dataBase (slotOf s k).dataSize || within a n 0x18000 0x8000 || within a n 0x21000 0x1000
/-- What operation `op` makes of its input. -/
def aesResult (op : Nat) (key input : Bytes) : Bytes := if op = 1 then aesEnc key input else if op = 2 then aesDec key input else cmac key input

section
variable {op dk : Nat} {v : Invoc} {s : State} (hc : s.ext.cur = some v) (hb : s.ext.aesBusy = false) (h1 : 1 ≤ op) (h4 : op ≤ 4)
include hc hb h1 h4

/-- An idle port of a running invocation judges the handle, then the addresses, then the length (Table 19-7). -/
theorem aesStart_judges : aesStart op dk s =
    if handleKey s v.slot s.ext.aesHandle = .inl 1 then s.onExt (fun e => { e with aesErr := 1 })
    else if !(aesReach s v.slot s.ext.aesSrc.toNat s.ext.aesLen || within s.ext.aesSrc.toNat s.ext.aesLen 0x20000 0x1000) ||
      (op ≠ 4 && !aesReach s v.slot s.ext.aesDst.toNat 16) then s.onExt (fun e => { e with aesErr := 2 })
    else if (op ≤ 2 && s.ext.aesLen ≠ 16) || s.ext.aesLen = 0 then s.onExt (fun e => { e with aesErr := 3 })
    else (handleKey s v.slot s.ext.aesHandle).elim (fun k => s.onExt (fun e => { e with aesErr := k })) (fun key =>
      s.onExt (fun e => { e with aesErr := 0, aesBusy := true, aesOut := some (aesResult op key (memReadN s.xc.mem s.ext.aesSrc.toNat s.ext.aesLen),
        if op = 4 then some dk else none, s.ext.aesDst.toNat, v.slot) })) := by
  unfold aesStart
  rw [hc]
  dsimp only
  rw [if_neg (by simp [hb]; omega)]
  split
  next h => rw [if_pos h]
  next r h =>
    rw [if_neg h]
    cases handleKey s v.slot s.ext.aesHandle <;> rfl
theorem aesStart_badHandle (h : handleKey s v.slot s.ext.aesHandle = .inl 1) : aesStart op dk s = s.onExt (fun e => { e with aesErr := 1 }) := by
  rw [aesStart_judges hc hb h1 h4, if_pos h]
theorem aesStart_badRange (h : handleKey s v.slot s.ext.aesHandle ≠ .inl 1) (hop : op ≠ 4)
    (hr : ((aesReach s v.slot s.ext.aesSrc.toNat s.ext.aesLen || within s.ext.aesSrc.toNat s.ext.aesLen 0x20000 0x1000) &&
      aesReach s v.slot s.ext.aesDst.toNat 16) = false) : aesStart op dk s = s.onExt (fun e => { e with aesErr := 2 }) := by
  rw [aesStart_judges hc hb h1 h4, if_neg h, if_pos]
  rw [decide_eq_true hop, Bool.true_and, ← Bool.not_and, hr]
  rfl
theorem aesStart_badLength {key : Bytes} (h : handleKey s v.slot s.ext.aesHandle = .inr key) (hop : op ≤ 2)
    (hs : (aesReach s v.slot s.ext.aesSrc.toNat s.ext.aesLen || within s.ext.aesSrc.toNat s.ext.aesLen 0x20000 0x1000) = true)
    (hd : aesReach s v.slot s.ext.aesDst.toNat 16 = true) (hn : s.ext.aesLen ≠ 16) : aesStart op dk s = s.onExt (fun e => { e with aesErr := 3 }) := by
  rw [aesStart_judges hc hb h1 h4, if_neg (by rw [h]; exact Sum.inr_ne_inl), if_neg (by rw [hs, hd]; simp), if_pos (by simp [hop, hn])]
theorem aesStart_begins {key : Bytes} (h : handleKey s v.slot s.ext.aesHandle = .inr key)
    (hs : (aesReach s v.slot s.ext.aesSrc.toNat s.ext.aesLen || within s.ext.aesSrc.toNat s.ext.aesLen 0x20000 0x1000) = true)
    (hd : op = 4 ∨ aesReach s v.slot s.ext.aesDst.toNat 16 = true) (hn : s.ext.aesLen ≠ 0) (h16 : op ≤ 2 → s.ext.aesLen = 16) :
    aesStart op dk s = s.onExt (fun e => { e with aesBusy := true, aesErr := 0, aesOut := some (
      aesResult op key (memReadN s.xc.mem s.ext.aesSrc.toNat s.ext.aesLen), if op = 4 then some dk else none, s.ext.aesDst.toNat, v.slot) }) := by
  have hlen : ¬((op ≤ 2 && s.ext.aesLen ≠ 16) || s.ext.aesLen = 0) = true := by
    simp only [Bool.or_eq_true, Bool.and_eq_true, decide_eq_true_eq, not_or, not_and, Classical.not_not]
    exact ⟨h16, hn⟩
  rw [aesStart_judges hc hb h1 h4, if_neg (by rw [h]; exact Sum.inr_ne_inl), if_neg (by rw [hs]; rcases hd with hd | hd <;> simp [hd]), if_neg hlen, h]
  rfl
end

/-! ### The end of an operation, and what is looked up -/

theorem aesOpDone_ends {s : State} (h : s.ext.aesBusy = true) : exec .aesOpDone s = .next (aesDone s) := by
  rw [exec_aesOpDone, execAesOpDone, if_pos h]
theorem aesDone_idle (s : State) : (aesDone s).ext.aesBusy = false := by
  unfold aesDone
  dsimp only
  split <;> rfl
theorem aesBusyRead_ends {s : State} (hc : s.ext.cur.isSome = true) (hb : s.ext.aesBusy = true) :
    Completes (exec .aesBusyRead s) (fun t => t = aesDone s ∧ t.ext.aesBusy = false) := by
  rw [exec_aesBusyRead, execAesBusyRead, if_pos hc]
  have ht : (readReg (.aes 0x14) s).2 = aesDone s := if_pos hb
  rw [ht]
  exact ⟨_, rfl, rfl, aesDone_idle s⟩
theorem aesDone_writes {s : State} {out : Bytes} {dst slot : Nat} (h : s.ext.aesOut = some (out, none, dst, slot)) :
    (aesDone s).xc.mem = memPut s.xc.mem dst out := by
  unfold aesDone
  rw [h]
  rfl
theorem aesDone_keys {s : State} {out : Bytes} {k dst slot : Nat} (h : s.ext.aesOut = some (out, some k, dst, slot)) :
    aesDone s = onSlot slot (fun x => { x with vol := x.vol.set k (some out) }) (s.onExt (fun e => { e with aesBusy := false, aesOut := none })) := by
  unfold aesDone
  rw [h]
theorem fxLookup_finds {id : Word} {s : State} (h : s.ext.cur.isSome = true) : Completes (exec (.fxLookup id) s) (fun t =>
    t = s.onExt (fun e => { e with fxId := id }) ∧ (readReg (.fx 4) t).1 = BitVec.ofNat 32 (fxIndex s id.toNat)) := by
  rw [exec_fxLookup, execFxLookup, if_pos h]
  exact ⟨_, rfl, rfl, rfl⟩

/-- Settles O58: every operation is one start that judges the handle, the addresses and the length in this order. -/
theorem aesPort : Obligations.AesPort := by
  unfold Obligations.AesPort
  refine fun id v dk key s => ⟨fxLookup_finds, fun hc hb => ?_, aesBusyRead_ends, fun hb out dst slot ho => ?_, fun hb out k dst slot ho hs _ => ?_⟩
  · intro x src dst n w input
    have hstart : ∀ op ∈ [Instr.aesEncrypt, .aesDecrypt, .aesCmac], ∃ k, 1 ≤ k ∧ k ≤ 3 ∧ exec op s = .next (aesStart k 0 s) := by
      intro op hop
      simp only [List.mem_cons, List.not_mem_nil, or_false] at hop
      rcases hop with rfl | rfl | rfl
      · exact ⟨1, (Nat.le_refl _), by decide, exec_aesEncrypt ..⟩
      · exact ⟨2, by decide, by decide, exec_aesDecrypt ..⟩
      · exact ⟨3, by decide, (Nat.le_refl _), exec_aesCmac ..⟩
    refine ⟨fun h op hop => ?_, fun h hr op hop => ?_, fun h hs => ?_⟩
    · obtain ⟨k, h1, h3, he⟩ := hstart op hop
      rw [he, aesStart_badHandle hc hb h1 (by omega) h]
    · obtain ⟨k, h1, h3, he⟩ := hstart op hop
      rw [he, aesStart_badRange hc hb h1 (by omega) h (by omega) hr]
    · have hs' := (Bool.or_eq_true ..).mpr hs
      refine ⟨fun hd hn => ?_, fun hd hn => ?_, fun hd hn => ?_, fun hdk hn => ?_, fun hd hn op hop => ?_⟩
      · exact ⟨_, (exec_aesEncrypt s).trans (congrArg next (aesStart_begins (op := 1) (dk := 0) hc hb (Nat.le_refl _) (by decide) h hs' (.inr hd)
          (fun e => absurd (hn.symm.trans e) (by decide)) (fun _ => hn))), rfl⟩
      · exact ⟨_, (exec_aesDecrypt s).trans (congrArg next (aesStart_begins (op := 2) (dk := 0) hc hb (by decide) (by decide) h hs' (.inr hd)
          (fun e => absurd (hn.symm.trans e) (by decide)) (fun _ => hn))), rfl⟩
      · exact ⟨_, (exec_aesCmac s).trans (congrArg next (aesStart_begins (op := 3) (dk := 0) hc hb (by decide) (by decide) h hs' (.inr hd) hn
          (fun e => absurd e (by decide)))), rfl⟩
      · rw [exec_aesCmacDkey, execAesCmacDkey, if_neg (by omega)]
        exact ⟨_, congrArg next (aesStart_begins (op := 4) hc hb (by decide) (Nat.le_refl _) h hs' (.inl rfl) hn (fun e => absurd e (by decide))), rfl⟩
      · have hop' : ∃ k, 1 ≤ k ∧ k ≤ 2 ∧ exec op s = .next (aesStart k 0 s) := by
          simp only [List.mem_cons, List.not_mem_nil, or_false] at hop
          rcases hop with rfl | rfl
          · exact ⟨1, (Nat.le_refl _), by decide, exec_aesEncrypt ..⟩
          · exact ⟨2, by decide, (Nat.le_refl _), exec_aesDecrypt ..⟩
        obtain ⟨k, h1, h2, he⟩ := hop'
        rw [he, aesStart_badLength hc hb h1 (by omega) h h2 hs' hd hn]
  · have hm := aesDone_writes ho
    refine ⟨_, aesOpDone_ends hb, aesDone_idle s, ?_, fun a ha => ?_⟩
    · rw [hm, memReadN_memPut]
    · rw [hm, memRead_memPut, if_neg (by omega)]
  · refine ⟨_, aesOpDone_ends hb, aesDone_idle s, ?_⟩
    rw [aesDone_keys ho]
    refine ⟨rfl, fun hk => ?_⟩
    have hslot : slotOf (onSlot slot (fun x => { x with vol := x.vol.set k (some out) }) (s.onExt (fun e => { e with aesBusy := false, aesOut := none }))) slot =
        { slotOf s slot with vol := (slotOf s slot).vol.set k (some out) } := getD_modAt_same hs ..
    rw [hslot]
    show ((slotOf s slot).vol.set k (some out)).getD k none = some out
    rw [List.getD_eq_getElem?_getD, List.getElem?_set_self hk]
    rfl
end Sys2Proof.Machine
end
